-- ==== Sys2Proof/Word.lean ====
section
/-! DEFINITION. The word types of the Skachacor-2: 64-bit registers, bytes, 1,024-bit vectors and
128-bit masks (R18, R81). -/

namespace Sys2Proof

/-- A 64-bit register value. -/
abbrev Word := BitVec 64

/-- One byte of a memory. -/
abbrev Byte := BitVec 8

/-- A vector register. -/
abbrev Vec := BitVec 1024

/-- A mask register. -/
abbrev Mask := BitVec 128

end Sys2Proof
end

