-- ==== Sys2Proof/Machine/Bits.lean ====
section
/-! DEFINITION. The integer helpers of R9, bit fields of words, and byte order (R6). -/

namespace Sys2Proof.Machine

/-- `trunc(x, n)` of R9 on naturals. -/
def truncN (x n : Nat) : Nat := x % 2 ^ n

/-- `sext(x, n)` of R9: the low n bits of x read as two's complement. -/
def sext (x n : Nat) : Int :=
  let y := x % 2 ^ n
  if y < 2 ^ (n - 1) then (y : Int) else (y : Int) - (2 ^ n : Nat)

/-- `trunc(x, n)` of R9 on integers. -/
def truncI (x : Int) (n : Nat) : Nat := (x % ((2 ^ n : Nat) : Int)).toNat

/-- A 64-bit word from an integer, cut to 64 bits (R137). -/
def wordI (x : Int) : Word := BitVec.ofNat 64 (truncI x 64)

/-- A 64-bit word from a natural, cut to 64 bits. -/
def wordN (x : Nat) : Word := BitVec.ofNat 64 x

/-- Bits hi down to lo of a natural. -/
def bitsN (x hi lo : Nat) : Nat := x / 2 ^ lo % 2 ^ (hi + 1 - lo)

/-- One bit of a natural. -/
def bitN (x i : Nat) : Bool := x / 2 ^ i % 2 == 1

/-- Bits hi down to lo of a word (R5). -/
def bits (w : Word) (hi lo : Nat) : Nat := bitsN w.toNat hi lo

/-- One bit of a word. -/
def bit (w : Word) (i : Nat) : Bool := bitN w.toNat i

/-- A number with bits hi down to lo replaced by the low bits of v. -/
def setBitsN (x hi lo v : Nat) : Nat :=
  let m := 2 ^ (hi + 1 - lo)
  x - (x / 2 ^ lo % m) * 2 ^ lo + (v % m) * 2 ^ lo

/-- A word with bits hi down to lo replaced by the low bits of v. -/
def setBits (w : Word) (hi lo v : Nat) : Word := wordN (setBitsN w.toNat hi lo v)

/-- 1 for true, 0 for false. -/
def b2n (b : Bool) : Nat := if b then 1 else 0

/-- The mask of bits hi down to lo. -/
def maskN (hi lo : Nat) : Nat := (2 ^ (hi + 1 - lo) - 1) * 2 ^ lo

/-- n bytes of x, the lowest first (R6). -/
def bytesOf : Nat → Nat → List Byte
  | 0, _ => []
  | n + 1, x => BitVec.ofNat 8 x :: bytesOf n (x / 256)

/-- The number spelled by bytes, the lowest first (R6). -/
def ofBytes : List Byte → Nat
  | [] => 0
  | b :: bs => b.toNat + 256 * ofBytes bs

/-- Least n with 2^n > x, that is the number of significant bits. -/
def bitLen (x : Nat) : Nat := if x = 0 then 0 else Nat.log2 x + 1

/-- The number of one bits among the low n bits of x. -/
def popN : Nat → Nat → Nat
  | 0, _ => 0
  | n + 1, x => x % 2 + popN n (x / 2)

/-- The number of trailing zero bits of x, n when the low n bits are zero. -/
def ctzN : Nat → Nat → Nat
  | 0, _ => 0
  | n + 1, x => if x % 2 = 1 then 0 else ctzN n (x / 2) + 1

/-- Numbers 0 to n - 1. -/
def upto (n : Nat) : List Nat := List.range n

/-- x rounded up to a multiple of m, divided by m. -/
def ceilDiv (x m : Nat) : Nat := (x + m - 1) / m

end Sys2Proof.Machine
end

