-- ==== Sys2Proof/Syntax.lean ====
section
/-! DEFINITION. The one syntax of the Skachacor-2 model: a constructor for every row of the table of
operations and events. The operands of an encoded instruction are the fields of its word as numbers
(R79, R80); a signed field is kept as the unsigned number its bits spell. An event has no word: the
unit it happens in and the values that come from outside the machine stand in `State.arg`, in the order
that the event's docstring names (`sid`: site 36,864 × wafer + 192 × y + x; `w`: wafer; `k`: management core 4 × wafer +
side; `r`: power region 16 × wafer + region; `p`: port 132 × wafer + unit; `q`: a queue or its index; `v`: a value
written). -/

namespace Sys2Proof

/-- The operations and events of the Skachacor-2. -/
inductive Instr where
  /-- ADD (R141). Writes A + B. -/
  | add (d : Nat) (a : Nat) (b : Nat)
  /-- SUB (R141). Writes A − B. -/
  | sub (d : Nat) (a : Nat) (b : Nat)
  /-- AND (R141). Writes A AND B. -/
  | and (d : Nat) (a : Nat) (b : Nat)
  /-- OR (R141). Writes A OR B. -/
  | or (d : Nat) (a : Nat) (b : Nat)
  /-- XOR (R141). Writes A XOR B. -/
  | xor (d : Nat) (a : Nat) (b : Nat)
  /-- ANDN (R141). Writes A AND NOT B. -/
  | andn (d : Nat) (a : Nat) (b : Nat)
  /-- SHL (R142). Shifts left by the whole of B. -/
  | shl (d : Nat) (a : Nat) (b : Nat)
  /-- SHR (R142). Shifts right logically by the whole of B. -/
  | shr (d : Nat) (a : Nat) (b : Nat)
  /-- SAR (R142). Shifts right arithmetically by min(B, 63). -/
  | sar (d : Nat) (a : Nat) (b : Nat)
  /-- ROL (R142). Rotates left by B modulo 64. -/
  | rol (d : Nat) (a : Nat) (b : Nat)
  /-- MUL (R141). Writes the low 64 bits of the product. -/
  | mul (d : Nat) (a : Nat) (b : Nat)
  /-- MULH (R141). Writes the high 64 bits of the signed product. -/
  | mulh (d : Nat) (a : Nat) (b : Nat)
  /-- MULHN (R141). Writes the high 64 bits of the unsigned product. -/
  | mulhn (d : Nat) (a : Nat) (b : Nat)
  /-- DIV (R143). Writes the signed quotient, all ones on division by zero. -/
  | div (d : Nat) (a : Nat) (b : Nat)
  /-- DIVN (R143). Writes the unsigned quotient, all ones on division by zero. -/
  | divn (d : Nat) (a : Nat) (b : Nat)
  /-- REM (R143). Writes the signed remainder, the dividend on division by zero. -/
  | rem (d : Nat) (a : Nat) (b : Nat)
  /-- REMN (R143). Writes the unsigned remainder, the dividend on division by zero. -/
  | remn (d : Nat) (a : Nat) (b : Nat)
  /-- MIN (R141). Writes the signed minimum. -/
  | min (d : Nat) (a : Nat) (b : Nat)
  /-- MAX (R141). Writes the signed maximum. -/
  | max (d : Nat) (a : Nat) (b : Nat)
  /-- MINN (R141). Writes the unsigned minimum. -/
  | minn (d : Nat) (a : Nat) (b : Nat)
  /-- MAXN (R141). Writes the unsigned maximum. -/
  | maxn (d : Nat) (a : Nat) (b : Nat)
  /-- SLT (R141). Writes 1 if sA < sB. -/
  | slt (d : Nat) (a : Nat) (b : Nat)
  /-- SLTN (R141). Writes 1 if A < B unsigned. -/
  | sltn (d : Nat) (a : Nat) (b : Nat)
  /-- SEQ (R141). Writes 1 if A == B. -/
  | seq (d : Nat) (a : Nat) (b : Nat)
  /-- SEL (R144). Selects ga or gb by whether gd is non-zero. -/
  | sel (d : Nat) (a : Nat) (b : Nat)
  /-- CLZ (R141). Counts leading zero bits. -/
  | clz (d : Nat) (a : Nat)
  /-- CTZ (R141). Counts trailing zero bits. -/
  | ctz (d : Nat) (a : Nat)
  /-- POPC (R141). Counts one bits. -/
  | popc (d : Nat) (a : Nat)
  /-- BFX (R145). Extracts a bit field. -/
  | bfx (d : Nat) (a : Nat) (b : Nat)
  /-- BFI (R145). Inserts a bit field into gd. -/
  | bfi (d : Nat) (a : Nat) (b : Nat)
  /-- ADDI (R146). Adds a signed immediate. -/
  | addi (d : Nat) (a : Nat) (i : Nat)
  /-- ANDI (R146). ANDs with a sign-extended immediate. -/
  | andi (d : Nat) (a : Nat) (i : Nat)
  /-- ORI (R146). ORs with a sign-extended immediate. -/
  | ori (d : Nat) (a : Nat) (i : Nat)
  /-- XORI (R146). XORs with a sign-extended immediate. -/
  | xori (d : Nat) (a : Nat) (i : Nat)
  /-- SHLI (R147). Shifts left by an immediate. -/
  | shli (d : Nat) (a : Nat) (s : Nat)
  /-- SHRI (R147). Shifts right logically by an immediate. -/
  | shri (d : Nat) (a : Nat) (s : Nat)
  /-- SARI (R147). Shifts right arithmetically by an immediate. -/
  | sari (d : Nat) (a : Nat) (s : Nat)
  /-- SLTI (R146). Writes 1 if sA is below the immediate. -/
  | slti (d : Nat) (a : Nat) (i : Nat)
  /-- SLTIN (R146). Writes 1 if A is below the immediate, unsigned. -/
  | sltin (d : Nat) (a : Nat) (i : Nat)
  /-- LUI (R148). Loads the sign-extended immediate shifted left by 14. -/
  | lui (d : Nat) (i : Nat)
  /-- ADRP (R149). Writes its own address plus four times the immediate. -/
  | adrp (d : Nat) (i : Nat)
  /-- BEQ (R150). Branches if A == B. -/
  | beq (a : Nat) (b : Nat) (o : Nat)
  /-- BNE (R150). Branches if A != B. -/
  | bne (a : Nat) (b : Nat) (o : Nat)
  /-- BLT (R150). Branches if sA < sB. -/
  | blt (a : Nat) (b : Nat) (o : Nat)
  /-- BGE (R150). Branches if sA ≥ sB. -/
  | bge (a : Nat) (b : Nat) (o : Nat)
  /-- BLTN (R150). Branches if A < B unsigned. -/
  | bltn (a : Nat) (b : Nat) (o : Nat)
  /-- BGEN (R150). Branches if A ≥ B unsigned. -/
  | bgen (a : Nat) (b : Nat) (o : Nat)
  /-- JAL (R151). Jumps relative and writes the link. -/
  | jal (d : Nat) (o : Nat)
  /-- JALR (R152). Jumps to a register plus immediate and writes the link. -/
  | jalr (d : Nat) (a : Nat) (i : Nat)
  /-- NOP (R155). Advances PC. -/
  | nop
  /-- YIELD (R156). Keeps the strand out of issue for 16 cycles. -/
  | yield
  /-- EXIT (R157). Ends the strand, freeing its slot and banks. -/
  | exit
  /-- WID (R158). Returns a level of the work identifier or the WSHAPE. -/
  | wid (d : Nat) (b : Nat)
  /-- TIME (R159). Reads the wafer time. -/
  | time (d : Nat)
  /-- LDB (R171). Loads a sign-extended byte. -/
  | ldb (d : Nat) (a : Nat) (s : Nat) (o : Nat)
  /-- LDBN (R171). Loads a zero-extended byte. -/
  | ldbn (d : Nat) (a : Nat) (s : Nat) (o : Nat)
  /-- LDH (R171). Loads a sign-extended half-word. -/
  | ldh (d : Nat) (a : Nat) (s : Nat) (o : Nat)
  /-- LDHN (R171). Loads a zero-extended half-word. -/
  | ldhn (d : Nat) (a : Nat) (s : Nat) (o : Nat)
  /-- LDW (R171). Loads a sign-extended word. -/
  | ldw (d : Nat) (a : Nat) (s : Nat) (o : Nat)
  /-- LDWN (R171). Loads a zero-extended word. -/
  | ldwn (d : Nat) (a : Nat) (s : Nat) (o : Nat)
  /-- LDD (R171). Loads a dword. -/
  | ldd (d : Nat) (a : Nat) (s : Nat) (o : Nat)
  /-- STB (R171). Stores a byte. -/
  | stb (d : Nat) (a : Nat) (s : Nat) (o : Nat)
  /-- STH (R171). Stores a half-word. -/
  | sth (d : Nat) (a : Nat) (s : Nat) (o : Nat)
  /-- STW (R171). Stores a word. -/
  | stw (d : Nat) (a : Nat) (s : Nat) (o : Nat)
  /-- STD (R171). Stores a dword. -/
  | std (d : Nat) (a : Nat) (s : Nat) (o : Nat)
  /-- LADD (R173). Atomically adds to a local dword. -/
  | ladd (d : Nat) (a : Nat) (b : Nat) (s : Nat)
  /-- LMIN (R173). Atomic signed minimum on a local dword. -/
  | lmin (d : Nat) (a : Nat) (b : Nat) (s : Nat)
  /-- LMAX (R173). Atomic signed maximum on a local dword. -/
  | lmax (d : Nat) (a : Nat) (b : Nat) (s : Nat)
  /-- LAND (R173). Atomic AND on a local dword. -/
  | land (d : Nat) (a : Nat) (b : Nat) (s : Nat)
  /-- LOR (R173). Atomic OR on a local dword. -/
  | lor (d : Nat) (a : Nat) (b : Nat) (s : Nat)
  /-- LXOR (R173). Atomic XOR on a local dword. -/
  | lxor (d : Nat) (a : Nat) (b : Nat) (s : Nat)
  /-- LSWP (R173). Atomic swap on a local dword. -/
  | lswp (d : Nat) (a : Nat) (b : Nat) (s : Nat)
  /-- LCAS (R173). Atomic compare-and-swap on a local dword. -/
  | lcas (d : Nat) (a : Nat) (b : Nat) (s : Nat)
  /-- FENCE (R174). Waits until the strand's earlier accesses of the named streams and kinds have performed. -/
  | fence (m : Nat) (k : Nat)
  /-- FPOP (R176). Reads the next element of a bound copy into a general register. -/
  | fpop (d : Nat) (a : Nat)
  /-- VLD (R177). Loads 128 bytes into a vector register. -/
  | vld (d : Nat) (a : Nat) (s : Nat) (o : Nat)
  /-- VST (R177). Stores 128 bytes from a vector register. -/
  | vst (d : Nat) (a : Nat) (s : Nat) (o : Nat)
  /-- FPOPV (R176). Reads up to 128 bytes of elements of a bound copy into a vector register. -/
  | fpopv (d : Nat) (a : Nat)
  /-- VGATH (R178). Gathers masked lanes from local addresses. -/
  | vgath (d : Nat) (a : Nat) (b : Nat) (w : Nat) (s : Nat)
  /-- VSCAT (R178). Scatters masked lanes to local addresses. -/
  | vscat (d : Nat) (a : Nat) (b : Nat) (w : Nat) (s : Nat)
  /-- VADD (R211). Adds lanes. -/
  | vadd (d : Nat) (a : Nat) (b : Nat) (t : Nat)
  /-- VSUB (R211). Subtracts lanes. -/
  | vsub (d : Nat) (a : Nat) (b : Nat) (t : Nat)
  /-- VMUL (R211). Multiplies lanes. -/
  | vmul (d : Nat) (a : Nat) (b : Nat) (t : Nat)
  /-- VMIN (R211). Lane-wise minimum. -/
  | vmin (d : Nat) (a : Nat) (b : Nat) (t : Nat)
  /-- VMAX (R211). Lane-wise maximum. -/
  | vmax (d : Nat) (a : Nat) (b : Nat) (t : Nat)
  /-- VFMA (R211). Fused multiply-add on float lanes. -/
  | vfma (d : Nat) (a : Nat) (b : Nat) (t : Nat)
  /-- VSHL (R213). Shifts integer lanes left. -/
  | vshl (d : Nat) (a : Nat) (b : Nat) (t : Nat)
  /-- VSHR (R213). Shifts integer lanes right. -/
  | vshr (d : Nat) (a : Nat) (b : Nat) (t : Nat)
  /-- VCMP_EQ (R215). Compares lanes for equality into a mask. -/
  | vcmpEq (d : Nat) (a : Nat) (b : Nat) (t : Nat)
  /-- VCMP_LT (R215). Compares lanes for less-than into a mask. -/
  | vcmpLt (d : Nat) (a : Nat) (b : Nat) (t : Nat)
  /-- VCMP_LE (R215). Compares lanes for less-or-equal into a mask. -/
  | vcmpLe (d : Nat) (a : Nat) (b : Nat) (t : Nat)
  /-- VABS (R211). Clears the sign of each lane. -/
  | vabs (d : Nat) (a : Nat) (t : Nat)
  /-- VNEG (R211). Inverts the sign of each lane. -/
  | vneg (d : Nat) (a : Nat) (t : Nat)
  /-- VRCP (R217). Reciprocal of each float lane. -/
  | vrcp (d : Nat) (a : Nat) (t : Nat)
  /-- VRSQ (R217). Reciprocal square root of each float lane. -/
  | vrsq (d : Nat) (a : Nat) (t : Nat)
  /-- VEXP2 (R217). Base-2 exponential of each float lane. -/
  | vexp2 (d : Nat) (a : Nat) (t : Nat)
  /-- VLOG2 (R217). Base-2 logarithm of each float lane. -/
  | vlog2 (d : Nat) (a : Nat) (t : Nat)
  /-- VTANH (R217). Hyperbolic tangent of each float lane. -/
  | vtanh (d : Nat) (a : Nat) (t : Nat)
  /-- VSUM (R218). Sums all lanes with one rounding. -/
  | vsum (d : Nat) (a : Nat) (t : Nat)
  /-- VRMAX (R219). Writes the greatest lane to lane 0. -/
  | vrmax (d : Nat) (a : Nat) (t : Nat)
  /-- VAND (R214). Bitwise AND of two vectors. -/
  | vand (d : Nat) (a : Nat) (b : Nat)
  /-- VOR (R214). Bitwise OR of two vectors. -/
  | vor (d : Nat) (a : Nat) (b : Nat)
  /-- VXOR (R214). Bitwise XOR of two vectors. -/
  | vxor (d : Nat) (a : Nat) (b : Nat)
  /-- VSEL (R216). Merges lanes of va into vd under a mask. -/
  | vsel (d : Nat) (a : Nat) (b : Nat) (w : Nat)
  /-- VPERM (R220). Permutes lanes by an index vector. -/
  | vperm (d : Nat) (a : Nat) (b : Nat) (w : Nat)
  /-- VEXT (R220). Extracts one lane into a general register. -/
  | vext (d : Nat) (a : Nat) (b : Nat) (w : Nat)
  /-- VINS (R220). Inserts a general register into one lane. -/
  | vins (d : Nat) (a : Nat) (b : Nat) (w : Nat)
  /-- VBCAST (R220). Broadcasts a general register to every lane. -/
  | vbcast (d : Nat) (a : Nat) (w : Nat)
  /-- VCVT (R222). Converts elements between formats, format form. -/
  | vcvt (d : Nat) (a : Nat) (f : Nat) (s : Nat) (p : Nat)
  /-- VQNT (R224). Quantises float lanes into block images. -/
  | vqnt (d : Nat) (a : Nat) (f : Nat) (s : Nat) (p : Nat)
  /-- VDQNT (R225). Decodes block images into float lanes. -/
  | vdqnt (d : Nat) (a : Nat) (f : Nat) (s : Nat) (p : Nat)
  /-- VCVT_LANE (R223). Converts between lane types, lane form. -/
  | vcvtLane (d : Nat) (a : Nat) (f : Nat) (s : Nat) (p : Nat)
  /-- TMMA (R246). Queues a product A·B into an accumulator slot. -/
  | tmma (d : Nat) (a : Nat) (b : Nat) (s : Nat)
  /-- TZERO (R247). Clears a slot's LIVE, POISON and flags and zeroes its words. -/
  | tzero (d : Nat)
  /-- TSTAT (R253). Returns a slot's state. -/
  | tstat (d : Nat) (a : Nat)
  /-- TCFG (R245). Configures a slot that is not LIVE. -/
  | tcfg (d : Nat) (a : Nat) (b : Nat) (mm : Nat) (nn : Nat) (af : Nat) (bf : Nat) (acc : Nat)
  /-- TCFG_Z (R245). Configures a slot, discarding its contents and poison. -/
  | tcfgZ (d : Nat) (a : Nat) (b : Nat) (mm : Nat) (nn : Nat) (af : Nat) (bf : Nat) (acc : Nat)
  /-- TDRAIN (R248). Writes a slot's words, converted, to local rows. -/
  | tdrain (d : Nat) (a : Nat) (b : Nat) (f : Nat) (raw : Nat) (s : Nat)
  /-- TLDACC (R249). Loads a slot from local rows. -/
  | tldacc (d : Nat) (a : Nat) (b : Nat) (f : Nat) (raw : Nat) (s : Nat)
  /-- TDRAIN_F (R250). Sends a slot's rows as steered DATA packets. -/
  | tdrainF (d : Nat) (a : Nat) (b : Nat) (f : Nat) (raw : Nat) (s : Nat)
  /-- CLAIM (R131). Lowers the group's claim. -/
  | claim (a : Nat)
  /-- ACQ_B (R132). Acquires pooled banks, waiting until granted. -/
  | acqB (d : Nat) (a : Nat)
  /-- ACQ_L (R132). Acquires pages, waiting until granted. -/
  | acqL (d : Nat) (a : Nat)
  /-- ACQ_T (R132). Acquires accumulator slots, waiting until granted. -/
  | acqT (d : Nat) (a : Nat)
  /-- ACQ_C (R132). Acquires copy channels, waiting until granted. -/
  | acqC (d : Nat) (a : Nat)
  /-- TACQ_B (R132). Tries once to acquire pooled banks, returning a status. -/
  | tacqB (d : Nat) (a : Nat)
  /-- TACQ_L (R132). Tries once to acquire pages, returning a status. -/
  | tacqL (d : Nat) (a : Nat)
  /-- TACQ_T (R132). Tries once to acquire slots, returning a status. -/
  | tacqT (d : Nat) (a : Nat)
  /-- TACQ_C (R132). Tries once to acquire channels, returning a status. -/
  | tacqC (d : Nat) (a : Nat)
  /-- REL_B (R133). Releases pooled banks by mask. -/
  | relB (a : Nat)
  /-- REL_L (R133). Releases a run of pages. -/
  | relL (a : Nat) (b : Nat)
  /-- REL_T (R133). Releases slots by mask. -/
  | relT (a : Nat)
  /-- REL_C (R133). Releases a count of channels. -/
  | relC (a : Nat)
  /-- RELALL (R134). Releases everything the group holds. -/
  | relall
  /-- QRES (R135). Returns claim, held, available or the bank mask. -/
  | qres (d : Nat) (b : Nat)
  /-- SEND (R297). Sends a DATA packet from the build registers. -/
  | send (a : Nat)
  /-- SENDT (R297). Sends a DATA packet, or returns a status without allowance. -/
  | sendt (d : Nat) (a : Nat)
  /-- SENDL (R297). Sends a DATA packet whose payload is read from the local store. -/
  | sendl (a : Nat) (b : Nat) (s : Nat)
  /-- INVOKE (R298). Sends an INVOKE and waits for its answer, retrying FULL. -/
  | invoke (a : Nat) (b : Nat)
  /-- INVOKET (R298). Sends an INVOKE and returns the answer as a status. -/
  | invoket (d : Nat) (a : Nat) (b : Nat)
  /-- INVOKEP (R298). Sends a posted INVOKE whose refusal arrives as a message. -/
  | invokep (a : Nat) (b : Nat)
  /-- RECV (R300). Releases the held copy and takes the oldest eligible message, waiting if none. -/
  | recv (d : Nat) (a : Nat)
  /-- RECVT (R300). Takes an eligible message, or returns all ones. -/
  | recvt (d : Nat) (a : Nat)
  /-- WAITMSG (R300). Waits until an eligible message exists. -/
  | waitmsg (a : Nat)
  /-- REPLY (R301). Sends a DATA answer to the SRC of a held or launch copy. -/
  | reply (a : Nat) (b : Nat)
  /-- INVOKEI (R299). Invokes a handler with immediate fields and waits for the answer. -/
  | invokei (a : Nat) (b : Nat) (h : Nat) (len : Nat) (prio : Nat) (wsel : Nat) (wx : Nat) (f : Nat)
  /-- INVOKEI_T (R299). Invokes a handler with immediate fields, returning a status. -/
  | invokeiT (d : Nat) (a : Nat) (b : Nat) (h : Nat) (len : Nat) (prio : Nat) (wsel : Nat) (wx : Nat) (f : Nat)
  /-- INVOKEI_P (R299). Invokes a handler with immediate fields, posted. -/
  | invokeiP (a : Nat) (b : Nat) (h : Nat) (len : Nat) (prio : Nat) (wsel : Nat) (wx : Nat) (f : Nat)
  /-- DSET (R303). Binds a dependency counter. -/
  | dset (d : Nat) (a : Nat) (b : Nat)
  /-- DDEC (R304). Decrements a counter locally, returning a status. -/
  | ddec (d : Nat) (a : Nat) (b : Nat)
  /-- DWAIT (R305). Waits until a counter is unbound or reaches zero. -/
  | dwait (d : Nat)
  /-- RLD (R325). Loads from a remote home and waits for the reply. -/
  | rld (d : Nat) (a : Nat) (s : Nat) (c : Nat) (o : Nat) (z : Nat)
  /-- RST (R325). Stores to a remote home. -/
  | rst (d : Nat) (a : Nat) (s : Nat) (c : Nat) (o : Nat) (z : Nat)
  /-- NST (R325). Stores into a logical neighbour's loggia. -/
  | nst (d : Nat) (a : Nat) (s : Nat) (c : Nat) (o : Nat) (z : Nat)
  /-- RADD (R326). Remote atomic add. -/
  | radd (d : Nat) (a : Nat) (s : Nat) (c : Nat) (o : Nat) (z : Nat)
  /-- RMIN (R326). Remote atomic signed minimum. -/
  | rmin (d : Nat) (a : Nat) (s : Nat) (c : Nat) (o : Nat) (z : Nat)
  /-- RMAX (R326). Remote atomic signed maximum. -/
  | rmax (d : Nat) (a : Nat) (s : Nat) (c : Nat) (o : Nat) (z : Nat)
  /-- RAND (R326). Remote atomic AND. -/
  | rand (d : Nat) (a : Nat) (s : Nat) (c : Nat) (o : Nat) (z : Nat)
  /-- ROR (R326). Remote atomic OR. -/
  | ror (d : Nat) (a : Nat) (s : Nat) (c : Nat) (o : Nat) (z : Nat)
  /-- RXOR (R326). Remote atomic XOR. -/
  | rxor (d : Nat) (a : Nat) (s : Nat) (c : Nat) (o : Nat) (z : Nat)
  /-- RSWP (R326). Remote atomic swap. -/
  | rswp (d : Nat) (a : Nat) (s : Nat) (c : Nat) (o : Nat) (z : Nat)
  /-- RCAS (R326). Remote atomic compare-and-swap. -/
  | rcas (d : Nat) (a : Nat) (s : Nat) (c : Nat) (o : Nat) (z : Nat)
  /-- MCST (R327). Stores one value at up to 64 remote replicas. -/
  | mcst (z : Nat) (d : Nat) (a : Nat) (b : Nat) (s : Nat) (c : Nat) (o : Nat)
  /-- HINIT (R348). Opens a hasp with an expected arrival count. -/
  | hinit (a : Nat) (b : Nat)
  /-- HARRIVE (R349). Arrives once at a local hasp after a release half. -/
  | harrive (d : Nat) (a : Nat) (x : Nat) (c : Nat)
  /-- HARRIVE_REMOTE (R349). Arrives once at a remote hasp and waits for its answer. -/
  | harriveRemote (d : Nat) (a : Nat) (x : Nat) (c : Nat)
  /-- HWAIT (R350). Waits until a local hasp's token is complete. -/
  | hwait (a : Nat) (b : Nat)
  /-- HWAIT_REMOTE (R350). Waits on a remote hasp's token. -/
  | hwaitRemote (a : Nat) (b : Nat)
  /-- HEXPECT (R351). Adds expected arrivals to a hasp. -/
  | hexpect (a : Nat) (b : Nat)
  /-- HTEST (R350). Returns a hasp's state and whether a token is complete. -/
  | htest (d : Nat) (a : Nat) (b : Nat)
  /-- FRED (R369). Starts a fabric reduction of local data on a tree. -/
  | fred (d : Nat) (a : Nat) (s : Nat)
  /-- FBCAST (R369). Broadcasts raw bytes down a tree from its root. -/
  | fbcast (d : Nat) (a : Nat) (s : Nat)
  /-- FRWAIT (R370). Waits for a reduction ticket and returns its status. -/
  | frwait (d : Nat) (a : Nat)
  /-- CPY (R264). Starts a many-dimensional copy with conversion. -/
  | cpy (d : Nat) (a : Nat) (b : Nat) (g : Nat) (ss : Nat) (ds : Nat) (s : Nat) (c : Nat)
  /-- CPYR (R271). Starts a copy that reduces into its destination. -/
  | cpyr (d : Nat) (a : Nat) (b : Nat) (g : Nat) (ss : Nat) (ds : Nat) (s : Nat) (c : Nat)
  /-- CPYM (R273). Starts a multicast copy down a reduction tree. -/
  | cpym (d : Nat) (a : Nat) (b : Nat) (g : Nat) (ss : Nat) (s : Nat) (c : Nat) (t : Nat)
  /-- CPYS (R276). Starts a copy bound to a feed register. -/
  | cpys (e : Nat) (d : Nat) (a : Nat) (b : Nat) (g : Nat) (ss : Nat) (s : Nat) (c : Nat) (k : Nat)
  /-- CPYW (R277). Waits for a copy to end and returns its result. -/
  | cpyw (d : Nat) (a : Nat)
  /-- CPYQ (R277). Returns a copy's result word without waiting. -/
  | cpyq (d : Nat) (a : Nat)
  /-- CPYX (R277). Cancels a copy with status 6. -/
  | cpyx (a : Nat)
  /-- HALO (R274). Sends edge slabs into the logical neighbours' loggias. -/
  | halo (d : Nat) (a : Nat) (b : Nat) (dirs : Nat) (s : Nat)
  /-- SYSR (R396). Reads a system register. -/
  | sysr (d : Nat) (n : Nat)
  /-- SYSW (R396). Writes a system register. -/
  | sysw (d : Nat) (n : Nat)
  /-- SYSSET (R396). Sets bits of a system register's RW fields. -/
  | sysset (d : Nat) (n : Nat)
  /-- SYSCLR (R396). Clears bits of a system register's RW fields. -/
  | sysclr (d : Nat) (n : Nat)
  /-- TRAP (R397). Takes a SOFTWARE trap with a code. -/
  | trap (n : Nat)
  /-- BREAK (R397). Takes a BREAK trap with a code. -/
  | brk (n : Nat)
  /-- ERET (R385). Ends a presentation, resuming or terminating the strand, or returns from a management trap. -/
  | eret
  /-- HALT (R398). Halts the supervisor context or the management core. -/
  | halt
  /-- WFI (R398). Waits for a pending trap record, window write or interrupt. -/
  | wfi
  /-- MODULE_RESET (R444). Module reset verifies a firmware slot and starts bring-up of the whole module. Arguments: w. -/
  | moduleReset
  /-- SITE_JOIN (R438). A tested site joins the fabric in the selected bring-up mode; its links come up and it is left in the bring-up state. Arguments: sid, outcome, links. -/
  | siteJoin
  /-- LIFE_COUNTER_UPDATE (R443). Once per hour of operation and at each start, the life counters in flash are updated. Arguments: w. -/
  | lifeCounterUpdate
  /-- SPDM_REQUEST (R445). An SPDM request on a host port is answered with signed measurements. Arguments: w, port, req. -/
  | spdmRequest
  /-- BOOT_CFG_WRITE (R442). A write to BOOT_CFG is stored in flash and takes effect at the next start. Arguments: k, v. -/
  | bootCfgWrite
  /-- CLEAR_LOG (R442). Writing 1 to BOOT_CFG.CLEAR_LOG erases the boot log. Arguments: k. -/
  | clearLog
  /-- REGISTER_WRITE (R396). A write to a system register that has no row of its own updates its fields by their access codes. Arguments: sid, n, v. -/
  | registerWrite
  /-- LOCAL_ACCESS_PERFORM (R165). A local access performs when its bank serves it: a load takes its value, a store changes memory, an atomic does both. Arguments: sid, acc, unit. -/
  | localAccessPerform
  /-- ECC_CORRECTION_WRITEBACK (R169). The bank rewrites a corrected word in its next cycle that no requester wants. Arguments: sid, word. -/
  | eccCorrectionWriteback
  /-- SCRUB_LINE_READ (R170). Every SCRUB_CFG.INTERVAL cycles the scrubber reads and corrects the next 32-byte line. Arguments: sid. -/
  | scrubLineRead
  /-- FETCH_LINE_FILL (R76). A fetch-line fill completes, after which the next sequential line is prefetched. Arguments: sid, ctx. -/
  | fetchLineFill
  /-- AGE_PROMOTION (R101). A READY strand's age counter reaches a multiple of 1,024 and its effective class rises by one. Arguments: sid, ctx. -/
  | agePromotion
  /-- YIELD_WINDOW_END (R103). Sixteen cycles after YIELD, the strand becomes a candidate for issue again. Arguments: sid, ctx. -/
  | yieldWindowEnd
  /-- ADMISSION_EVALUATION (R105). An evaluation considers the oldest PREEMPTED group or the head of the highest queue, and admits or resumes it. Arguments: sid. -/
  | admissionEvaluation
  /-- FRAME_SAVE_DONE (R109). A victim strand's 80-line frame save completes and its slot becomes FREE. Arguments: sid. -/
  | frameSaveDone
  /-- FRAME_RESTORE_DONE (R112). The last frame restore of a resumed group completes, and every strand takes its restored state. Arguments: sid. -/
  | frameRestoreDone
  /-- GROUP_LEAVES_DRAINING (R98). After the last outstanding work of a DRAINING group ends, RELALL, mailbox release and group-number release take effect. Arguments: sid, grp. -/
  | groupLeavesDraining
  /-- SAFETY_TEST_END (R120). A Tumbler safety test ends and either commits its grant, restarts, or reports the request unsafe or unavailable. Arguments: sid. -/
  | safetyTestEnd
  /-- TUMBLER_REEVALUATION (R126). After a release, claim lowering or group retirement, the Tumbler retests every waiter in queue order. Arguments: sid. -/
  | tumblerReevaluation
  /-- RELEASE_APPLY (R128). A deferred release of pages, slots or channels is applied once the accesses, tensor work or copy it waited for has ended. Arguments: sid, idx. -/
  | releaseApply
  /-- PAGE_ZEROING_DONE (R122). Zeroing of granted pages ends; the requester or the newly admitted group may proceed. Arguments: sid, idx. -/
  | pageZeroingDone
  /-- TUMBLER_CFG_WRITE (R118). A write of RESV_L is accepted or refused with ERR. Arguments: sid, v. -/
  | tumblerCfgWrite
  /-- PMAP_DATA_WRITE (R161). A write to the selected page-map entry is checked for pool pages and PHYS and is then accepted or refused. Arguments: sid, m, v. -/
  | pmapDataWrite
  /-- PMAP_WRITE_EFFECT (R164). A page-map write takes effect once every earlier issued local access on the core has performed. Arguments: sid. -/
  | pmapWriteEffect
  /-- HTAB_BASE_WRITE (R394). A write of the handler-table base is accepted or refused with ERR. Arguments: sid, v. -/
  | htabBaseWrite
  /-- MBOX_CFG_WRITE (R286). A write of the mailbox configuration records its physical pages, or is refused with ERR. Arguments: sid, v. -/
  | mboxCfgWrite
  /-- MSGLEN_MAX_WRITE (R285). A write of MSGLEN_MAX is accepted, or refused with ERR when LEN is 0. Arguments: sid, v. -/
  | msglenMaxWrite
  /-- TIER_CFG_WRITE (R260). A write of the tier interleave configuration is accepted or refused with ERR. Arguments: sid, v. -/
  | tierCfgWrite
  /-- TDEC_DATA_WRITE (R192). A write of a decode-table entry is accepted or refused with ERR. Arguments: sid, v. -/
  | tdecDataWrite
  /-- TDEC_WRITE_EFFECT (R192). A decode-table write takes effect once no T8 or T4 work is in progress on the core. Arguments: sid. -/
  | tdecWriteEffect
  /-- FPCTL_WRITE (R200). A write of FPCTL sets the rounding mode and trap enables, storing RM 7 as 0. Arguments: sid, ctx, v. -/
  | fpctlWrite
  /-- STEER_DATA_WRITE (R252). A write of a steering-table way is accepted or refused with ERR. Arguments: sid, v. -/
  | steerDataWrite
  /-- NT_DATA_WRITE (R61). A write of the selected name-table entry is performed, or refused with ERR when the entry is illegal. Arguments: sid, v. -/
  | ntDataWrite
  /-- CORE_NAME_WRITE (R54). A write of CORE_NAME in S is checked against the park's name range. Arguments: sid, m, v. -/
  | coreNameWrite
  /-- ROUTE_FLUSH (R63). Writing 1 to ROUTE_CFG.FLUSH invalidates every unpinned name-table entry. Arguments: sid. -/
  | routeFlush
  /-- PROBE_CLEAR (R64). Writing 1 to ROUTE_CFG.PROBE_CLR abandons every probe, empties the path records and releases held packets. Arguments: sid. -/
  | probeClear
  /-- NAME_TABLE_TICK (R63). At each ageing tick, unpinned entries age and those at AGE 7 become invalid. Arguments: sid. -/
  | nameTableTick
  /-- RTREE_DATA_WRITE (R355). A write of a reduction-tree entry is accepted or refused with ERR. Arguments: sid, v. -/
  | rtreeDataWrite
  /-- COUNTER_UNBIND (R306). Writing DCNT_SEL with UNBIND 1 unbinds the counter, releases its copies and completes its DWAITs. Arguments: sid, v. -/
  | counterUnbind
  /-- DCNT_SEL_WRITE (R306). A write of DCNT_SEL selects a counter, or is refused with ERR for counter 0. Arguments: sid, v. -/
  | dcntSelWrite
  /-- PACKET_RESOLVE (R57). The first router on a wafer resolves a packet's TARGET and first hop, delivers it, floods it, or finds it unreachable. Arguments: sid, q. -/
  | packetResolve
  /-- PACKET_HOP (R58). A header arrives at a router, passes or fails the port guard, and is forwarded negative-first, delivered, or found unreachable. Arguments: sid, q. -/
  | packetHop
  /-- FLOOD_COPY_ARRIVAL (R66). A flood copy arrives at a tree router and is forwarded, delivered, or discarded. Arguments: sid, q. -/
  | floodCopyArrival
  /-- FLOOD_PACKET_SINK (R66). A FLOOD packet that teaches the owner's name is sunk at its TARGET. Arguments: sid, q. -/
  | floodPacketSink
  /-- PROBE_ARRIVAL (R64). A probe reaching its recorded TARGET or DEST owner is answered with a PRB REPLY. Arguments: sid, q. -/
  | probeArrival
  /-- PROBE_ANSWER (R64). A probe's answer reaches the resolving router, which releases the held packets and rewrites the path record. Arguments: sid, q. -/
  | probeAnswer
  /-- LINK_DOWN (R70). A link whose link-level retry fails goes down, invalidating entries and reporting packets lost on it. Arguments: sid, dir. -/
  | linkDown
  /-- BRIDGE_FORWARD (R74). A bridge unit forwards a buffered packet once the far unit has room for it. Arguments: b, q. -/
  | bridgeForward
  /-- BRIDGE_REINJECT (R74). The far bridge unit re-injects a packet, keeping ORIGIN and ING and resetting TARGET. Arguments: b, q. -/
  | bridgeReinject
  /-- INVOKE_ARRIVAL (R38). An INVOKE or handler-naming DATA packet at a core is checked and queued with ACCEPT, or refused with a NACK or FAULTREP. Arguments: sid. -/
  | invokeArrival
  /-- COUNTER_LAUNCH (R39). A packet naming a counter is checked, deposited and decrements the counter, launching the bound task at zero. Arguments: sid. -/
  | counterLaunch
  /-- MESSAGE_ARRIVAL (R288). A plain DATA packet is entered in the message queue or refused FULL. Arguments: sid. -/
  | messageArrival
  /-- ANSWER_ARRIVAL (R291). An ACCEPT, NACK or FAULTREP arriving at a core is matched by SEQ to its outstanding operation or queued unowned. Arguments: sid. -/
  | answerArrival
  /-- PACKET_LOCAL_COMPLETE (R283). A sent packet's last flit enters the injection buffer and the sending strand becomes READY. Arguments: sid, q. -/
  | packetLocalComplete
  /-- HARDWARE_RETRY (R293). A refused packet's backoff expires and it is resent with the same SEQ. Arguments: sid, idx. -/
  | hardwareRetry
  /-- LAUNCH_LINE_WRITE (R44). A host write of a launch line is consumed in LSEQ order or held, and completed records are launched. Arguments: q, off, size, data. -/
  | launchLineWrite
  /-- INGRESS_TIMER_EXPIRY (R46). A FINAL line still held behind a gap when the sequence timer expires raises ingress fault cause 2. Arguments: q. -/
  | ingressTimerExpiry
  /-- INGRESS_ANSWER (R49). An answer to an ingress packet is matched by SEQ and schedules a retry or raises a fault. Arguments: q. -/
  | ingressAnswer
  /-- INGRESS_RETRY (R49). An ingress retry's delay expires and the refused packet is sent again. Arguments: q, idx. -/
  | ingressRetry
  /-- INGRESS_RESET (R51). Writing 1 to INGRESS_CTL.RESET discards held lines and delta state and clears the status. Arguments: q. -/
  | ingressReset
  /-- REMOTE_REQUEST_ARRIVAL (R313). An RLOAD, RSTORE or RATOMIC at its home is checked, performed and answered, or refused by NACK. Arguments: sid. -/
  | remoteRequestArrival
  /-- REMOTE_ANSWER (R319). An answer to a remote request writes the value, retries, traps at once, or records a deferred fault. Arguments: sid. -/
  | remoteAnswer
  /-- PORT_REQUEST (R261). A copy-form RLOAD or COPYDATA reaches a memory or host port, is translated, and is issued to the device, or is refused. Arguments: p, how. -/
  | portRequest
  /-- PORT_ACCESS_COMPLETE (R261). A port's device access completes and the port sends its answer. Arguments: p, idx. -/
  | portAccessComplete
  /-- PORT_ROOT_WRITE (R262). A window write of a park's translation root at a port takes effect and discards the park's cached translations. Arguments: p. -/
  | portRootWrite
  /-- PORT_INVAL (R262). Writing PORT_CMD.INVAL discards a park's cached translations at a port and answers once in-flight users have completed. Arguments: p, i. -/
  | portInval
  /-- COPY_ENGINE_SERVE (R266). Each cycle the copy engine serves the next occupied channel with one packet or one local line. Arguments: sid, ch, what. -/
  | copyEngineServe
  /-- COPYDATA_ARRIVAL (R267). A COPYDATA packet at its home is checked, its writes performed in arrival order, and it is answered. Arguments: sid. -/
  | copydataArrival
  /-- COPY_COUNTER_PACKET (R268). A LEN-0 COPYDATA naming a counter decrements it once the copy's earlier packets have performed. Arguments: sid. -/
  | copyCounterPacket
  /-- COPY_ANSWER (R269). An answer to a copy packet is taken, a refusal retries or sets the copy's status, and the copy ends when all are in. Arguments: sid. -/
  | copyAnswer
  /-- COPYACK_PLACEMENT (R270). The COPYACK of an ended copy is placed in the message queue once there is room, freeing its channel. Arguments: sid, ch. -/
  | copyackPlacement
  /-- MULTICAST_TILE_ARRIVAL (R273). A multicast tile arrives at a tree member, is written and is forwarded to the member's children. Arguments: sid, q. -/
  | multicastTileArrival
  /-- MULTICAST_CREDIT (R273). A member sends a tile's credit to its parent once the tile has performed and its children have credited it. Arguments: sid, q, way. -/
  | multicastCredit
  /-- HASP_REMOTE_REQUEST (R344). A remote hasp arrival or wait at its owner is checked, applied or tabled, and answered. Arguments: sid. -/
  | haspRemoteRequest
  /-- RED_BLOCK_ARRIVAL (R360). A reduction block at a tree node is folded in fixed order and sent up, or at the root delivered or broadcast. Arguments: sid, q. -/
  | redBlockArrival
  /-- RENORM_ARRIVAL (R361). A child records a RENORM exponent and pre-shifts its block before sending it. Arguments: sid, q. -/
  | renormArrival
  /-- BCAST_ARRIVAL (R364). A broadcast block is passed down the tree and written to each receiving member's DST, with its counter decremented. Arguments: sid, q. -/
  | bcastArrival
  /-- VECTOR_COMPLETION (R206). A vector instruction completes: it writes its destinations, merges flags, and traps FP_TRAP on an enabled flag. Arguments: sid, idx. -/
  | vectorCompletion
  /-- TENSOR_OP_START (R234). The head tensor operation starts once its predecessor allows, swapping its slot in if needed. Arguments: sid. -/
  | tensorOpStart
  /-- TENSOR_SLOT_WRITE (R234). A TMMA, TLDACC or TCFG/TZERO writes its slot in the engine and merges its flags. Arguments: sid. -/
  | tensorSlotWrite
  /-- DRAIN_ROW_WRITE (R248). A drain row's converted words are written to the local store once its bank is free. Arguments: sid, piece. -/
  | drainRowWrite
  /-- STEERED_ROW_SEND (R250). A steered drain sends one DATA packet per valid way of a row's steering entry when allowance exists. Arguments: sid. -/
  | steeredRowSend
  /-- TRAP_PRESENTATION (R382). The oldest trap record is presented to an IDLE supervisor context, which starts at TRAP_VEC.BASE. Arguments: sid. -/
  | trapPresentation
  /-- FATAL_TRAP (R383). A trap with TRAP_VEC.EN 0 and the context not HALTED records its values and terminates the group. Arguments: sid, slot. -/
  | fatalTrap
  /-- DOUBLE_TRAP (R384). A trap in S halts the supervisor context and sends CORE_HALT to a management core. Arguments: sid. -/
  | doubleTrap
  /-- MGMT_INTERRUPT (R390). A management core takes its lowest enabled pending interrupt at an instruction boundary. Arguments: k. -/
  | mgmtInterrupt
  /-- REMOTE_WINDOW_ACCESS (R391). An MGMT window request at a site performs the register operation as in M and answers with the old value. Arguments: sid. -/
  | remoteWindowAccess
  /-- REMOTE_WINDOW_ANSWER (R391). The answer to a window access reaches the management core and ends its wait, or traps REMOTE_FAULT. Arguments: k. -/
  | remoteWindowAnswer
  /-- SITE_LSA_WRITE (R392). A window write of SITE_LSA sets the physical offset, or is refused. Arguments: sid, v. -/
  | siteLsaWrite
  /-- SITE_LSD_READ (R392). A window read of SITE_LSD returns the dword at SITE_LSA and advances it by 8. Arguments: sid. -/
  | siteLsdRead
  /-- SITE_LSD_WRITE (R392). A window write of SITE_LSD stores the dword at SITE_LSA and advances it by 8. Arguments: sid, v. -/
  | siteLsdWrite
  /-- TRAP_VEC_WRITE (R398). A window write of TRAP_VEC with EN 1 restarts a HALTED supervisor context. Arguments: sid, m, v. -/
  | trapVecWrite
  /-- GUARD_REPORT (R416). A guard-drop report at its management core updates GUARD_LOG and raises GUARD_DROP. Arguments: k. -/
  | guardReport
  /-- EVICT (R404). STOP_CMD with OP 1 sends an EVICT STOP packet to a site. Arguments: k, v. -/
  | evict
  /-- RESTORE (R404). STOP_CMD with OP 2 sends a RESTORE STOP packet to a site. Arguments: k, v. -/
  | restore
  /-- RELEASE (R404). STOP_CMD with OP 3 sends a RELEASE STOP packet, ending the site's held name. Arguments: k, v. -/
  | release
  /-- STOP_ARRIVAL (R406). An EVICT reaches its core, which stops issuing and injecting and refuses later requests with RETRY. Arguments: sid. -/
  | stopArrival
  /-- QUIESCENCE (R407). The stopping core becomes quiescent and its outgoing injection ends. Arguments: sid. -/
  | quiescence
  /-- STOP_ECHO (R408). The stop echo reaches the management core's rim site and decrements UNSTOPPED. Arguments: k. -/
  | stopEcho
  /-- STOPPED_END (R409). The last answer arrives or TMO expires, and the core begins SAVING. Arguments: sid. -/
  | stoppedEnd
  /-- SAVE_COMPLETE (R409). The last image write is answered; the core clears itself and sends its completion. Arguments: sid. -/
  | saveComplete
  /-- RESTORE_COMPLETE (R411). The last image read is applied and the core re-enters RUN, reporting lost answers and presenting the STOP record. Arguments: sid. -/
  | restoreComplete
  /-- STOP_COMPLETION (R404). A command's completion reaches the management core and decrements PENDING, recording any failure code. Arguments: k. -/
  | stopCompletion
  /-- STEP_BOUNDARY (R423). At each 320-cycle step boundary I_MEAS updates, staggered releases occur and droop holds may end. Arguments: r. -/
  | stepBoundary
  /-- CURRENT_SAMPLE (R424). Every 32 cycles the region current is sampled and STEP_T is set to 7 or decremented. Arguments: r, amps. -/
  | currentSample
  /-- VOLTAGE_SAMPLE (R426). Every 8 cycles the region voltage is compared with VMIN and may raise a droop. Arguments: r, mv. -/
  | voltageSample
  /-- THERMAL_SAMPLE (R427). Every 16,000 cycles each field's sensor is sampled. Arguments: w, temps.... -/
  | thermalSample
  /-- REGULATOR_FAIL (R429). A regulator stack fails, its region's cores die at once and REGULATOR_FAIL is raised. Arguments: r. -/
  | regulatorFail
  /-- PWR_CTL_WRITE (R422). A write of the selected region's PWR_CTL is accepted or refused with ERR. Arguments: k, v. -/
  | pwrCtlWrite
  /-- PWR_GO (R425). A write of PWR_GO.STEP arms every held region for its staggered release. Arguments: k, v. -/
  | pwrGo
  /-- THERM_SEL_WRITE (R427). A write of THERM_SEL selects a field, or is refused with ERR. Arguments: k, v. -/
  | thermSelWrite
  /-- RESTORE_ARRIVAL (R411). A RESTORE STOP packet reaches an IDLE core, which checks VERSION and enters RESTORING to read its image, or fails with code 3 or 4. Arguments: sid. -/
  | restoreArrival
  /-- RELEASE_ARRIVAL (R409). A RELEASE STOP packet reaches a site, which returns CORE_NAME to reset and ends the held name, or fails with code 6. Arguments: sid. -/
  | releaseArrival
  /-- CORE_HALT_ARRIVAL (R384). The MGMT packet generated by a halted supervisor context reaches its management core and raises CORE_HALT in MIP. Arguments: k. -/
  | coreHaltArrival
  /-- SCALAR_RESULT_WRITE (R139). A multiply or divide result is written to its register 3 or 18 cycles after issue, freeing dependent instructions and the divider. Arguments: sid, idx. -/
  | scalarResultWrite
  /-- LOCAL_CONTRIBUTION_BLOCK (R369). A FRED's next quantised block becomes ready as the local input of its tree node, which then folds or emits it. Arguments: sid, tree. -/
  | localContributionBlock
  /-- ILLEGAL_INSTRUCTION (R82). A strand issues a word whose major is unowned, or whose fields no chapter assigns, and traps ILLEGAL_INSTRUCTION. Arguments: w0, w1, len. -/
  | illegalInstruction
  deriving DecidableEq, Repr

end Sys2Proof
end

