-- ==== Sys2Proof/Machine/Legal.lean ====
section
/-! DEFINITION. Which fields an encoded instruction admits: the register fields of R81 and the
qualifier encodings each chapter assigns. A word whose fields are not legal is not an instruction
(R82). Fields that depend on the privilege level or on machine state are no matter of this file. -/

namespace Sys2Proof.Machine

/-- A general register field (R81). -/
def isG (r : Nat) : Bool := decide (r < 64)
/-- A vector register field (R81). -/
def isV (r : Nat) : Bool := decide (r < 16)
/-- A mask register field (R81). -/
def isQ (r : Nat) : Bool := decide (r < 8)
/-- A mask register field that is written: q0 is read-only (R81). -/
def isQd (r : Nat) : Bool := decide (0 < r) && decide (r < 8)
/-- An accumulator slot or feed register field (R81). -/
def isA (r : Nat) : Bool := decide (r < 8)
/-- A dependency counter field (R81). -/
def isD (r : Nat) : Bool := decide (0 < r) && decide (r < 64)
/-- A hasp field (R81). -/
def isH (r : Nat) : Bool := decide (r < 32)
/-- A stream (R80). -/
def isS (r : Nat) : Bool := decide (r < 16)
/-- A scope code (R22): 6 and 7 trap ILLEGAL_INSTRUCTION. -/
def isScope (c : Nat) : Bool := decide (c < 6)
/-- An unsigned field of n values. -/
def below (n x : Nat) : Bool := decide (x < n)

/-- Float lane types of R204. -/
def isFloatT (t : Nat) : Bool := t == 0 || t == 1 || t == 2
/-- Signed integer lane types of R204. -/
def isSignedT (t : Nat) : Bool := t == 4 || t == 6 || t == 8
/-- Unsigned integer lane types of R204. -/
def isNatT (t : Nat) : Bool := t == 5 || t == 7 || t == 9
/-- Integer lane types. -/
def isIntT (t : Nat) : Bool := isSignedT t || isNatT t
/-- Any assigned lane type. -/
def isT (t : Nat) : Bool := isFloatT t || isIntT t

/-- Lane width in bits of a lane type (R204). -/
def laneBits (t : Nat) : Nat :=
  if t == 0 || t == 4 || t == 5 then 32
  else if t == 1 || t == 2 || t == 6 || t == 7 then 16 else 8

/-- Bits of one element of a format code (R179). -/
def fmtBits (f : Nat) : Nat :=
  match f with
  | 0 => 32 | 1 => 16 | 2 => 16 | 3 => 8 | 4 => 8 | 5 => 6 | 6 => 6 | 7 => 4
  | 8 => 8 | 9 => 8 | 10 => 4 | 11 => 4 | 12 => 2
  | 13 => 8 | 14 => 8 | 15 => 6 | 16 => 6 | 17 => 4 | 18 => 8 | 19 => 4
  | 20 => 8 | 21 => 6 | 22 => 4 | 23 => 3 | 24 => 8 | 25 => 4
  | 26 => 8 | 27 => 4 | _ => 8

/-- Block formats are the codes 13 to 25 (R179). -/
def isBlock (f : Nat) : Bool := decide (13 ≤ f) && decide (f ≤ 25)

/-- Elements of one block (R179); 1 for the other formats. -/
def blockElems (f : Nat) : Nat :=
  if isBlock f then (if f == 19 || f == 24 || f == 25 then 16 else 32) else 1

/-- Bytes of one block image (R179, R185). -/
def imageBytes (f : Nat) : Nat := 4 + blockElems f * fmtBits f / 8

/-- Elements a vector register holds of a code (R222). -/
def capacity (f : Nat) : Nat :=
  if fmtBits f == 32 then 32 else if fmtBits f == 16 then 64 else 128

/-- Elements a vector register holds of a lane type (R204). -/
def laneCount (t : Nat) : Nat := 1024 / laneBits t

/-- The part field of a conversion between n1 and n2 elements (R222). -/
def partOk (n1 n2 p : Nat) : Bool := decide (p < max n1 n2 / min n1 n2)

/-- Formats a format-form VCVT accepts (R222). -/
def cvtFmt (f : Nat) : Bool := decide (f < 13) || f == 26 || f == 27

/-- Operands of VQNT and VDQNT: block code, float code and part (R224, R225). The part has the two
bits of R221; DEDUCED: R224's example of a part 4 has no encoding. -/
-- DEDUCED: log 30.
def qntOk (blk flt p : Nat) : Bool :=
  isBlock blk && isFloatT flt && decide (p < 4) &&
    decide ((p + 1) * (capacity flt / blockElems blk) * imageBytes blk ≤ 128)

/-- Integer operands of an INT32 accumulator (R236). -/
def isIntFmt (f : Nat) : Bool := decide (8 ≤ f) && decide (f ≤ 12)

/-- Operand pairs of TCFG (R236). -/
def tcfgOk (af bf acc : Nat) : Bool :=
  decide (af < 28) && decide (bf < 28) && ((af == 0) == (bf == 0)) &&
    (acc == 0 || (acc == 1 && isIntFmt af && isIntFmt bf))

/-- Format and raw fields of TDRAIN, TLDACC and TDRAIN.F (R243). -/
def drainOk (f raw : Nat) : Bool :=
  decide (f < 28) && (raw == 0 || (raw == 1 && f == 0))

/-- The EXT fields of INVOKEI (R299). -/
def invokeiOk (h len prio wsel wx f : Nat) : Bool :=
  decide (0 < h) && decide (h < 1024) && decide (len < 3) && decide (prio < 4) &&
    decide (wsel < 8) && (wx == 0 || (wx == 1 && decide (0 < len))) && decide (f < 28)

/-- The fields a remote load or store has (R322). -/
def rmemOk (d a s c o z : Nat) : Bool :=
  isG d && isG a && isS s && isScope c && below 4 o && below 4 z

/-- The fields a remote atomic has (R322). -/
def ramoOk (d a s c o z : Nat) : Bool :=
  isG d && isG a && isS s && isScope c && below 4 o && below 2 z

/-- The fields common to the copies (R275). -/
def cpyOk (d a b g ss s c : Nat) : Bool :=
  isG d && isG a && isG b && isG g && below 4 ss && isS s && isScope c

/-- The legal operands of every encoded instruction; an event has no word. -/
def legal : Instr → Bool
  | .add d a b => isG d && isG a && isG b
  | .sub d a b => isG d && isG a && isG b
  | .and d a b => isG d && isG a && isG b
  | .or d a b => isG d && isG a && isG b
  | .xor d a b => isG d && isG a && isG b
  | .andn d a b => isG d && isG a && isG b
  | .shl d a b => isG d && isG a && isG b
  | .shr d a b => isG d && isG a && isG b
  | .sar d a b => isG d && isG a && isG b
  | .rol d a b => isG d && isG a && isG b
  | .mul d a b => isG d && isG a && isG b
  | .mulh d a b => isG d && isG a && isG b
  | .mulhn d a b => isG d && isG a && isG b
  | .div d a b => isG d && isG a && isG b
  | .divn d a b => isG d && isG a && isG b
  | .rem d a b => isG d && isG a && isG b
  | .remn d a b => isG d && isG a && isG b
  | .min d a b => isG d && isG a && isG b
  | .max d a b => isG d && isG a && isG b
  | .minn d a b => isG d && isG a && isG b
  | .maxn d a b => isG d && isG a && isG b
  | .slt d a b => isG d && isG a && isG b
  | .sltn d a b => isG d && isG a && isG b
  | .seq d a b => isG d && isG a && isG b
  | .sel d a b => isG d && isG a && isG b
  | .clz d a => isG d && isG a
  | .ctz d a => isG d && isG a
  | .popc d a => isG d && isG a
  | .bfx d a b => isG d && isG a && isG b
  | .bfi d a b => isG d && isG a && isG b
  | .addi d a i => isG d && isG a && below 16384 i
  | .andi d a i => isG d && isG a && below 16384 i
  | .ori d a i => isG d && isG a && below 16384 i
  | .xori d a i => isG d && isG a && below 16384 i
  | .shli d a s => isG d && isG a && below 64 s
  | .shri d a s => isG d && isG a && below 64 s
  | .sari d a s => isG d && isG a && below 64 s
  | .slti d a i => isG d && isG a && below 16384 i
  | .sltin d a i => isG d && isG a && below 16384 i
  | .lui d i => isG d && below 1048576 i
  | .adrp d i => isG d && below 1048576 i
  | .beq a b o => isG a && isG b && below 16384 o
  | .bne a b o => isG a && isG b && below 16384 o
  | .blt a b o => isG a && isG b && below 16384 o
  | .bge a b o => isG a && isG b && below 16384 o
  | .bltn a b o => isG a && isG b && below 16384 o
  | .bgen a b o => isG a && isG b && below 16384 o
  | .jal d o => isG d && below 1048576 o
  | .jalr d a i => isG d && isG a && below 16384 i
  | .nop => true
  | .yield => true
  | .exit => true
  | .wid d b => isG d && below 7 b
  | .time d => isG d
  | .ldb d a s o => isG d && isG a && isS s && below 1024 o
  | .ldbn d a s o => isG d && isG a && isS s && below 1024 o
  | .ldh d a s o => isG d && isG a && isS s && below 1024 o
  | .ldhn d a s o => isG d && isG a && isS s && below 1024 o
  | .ldw d a s o => isG d && isG a && isS s && below 1024 o
  | .ldwn d a s o => isG d && isG a && isS s && below 1024 o
  | .ldd d a s o => isG d && isG a && isS s && below 1024 o
  | .stb d a s o => isG d && isG a && isS s && below 1024 o
  | .sth d a s o => isG d && isG a && isS s && below 1024 o
  | .stw d a s o => isG d && isG a && isS s && below 1024 o
  | .std d a s o => isG d && isG a && isS s && below 1024 o
  | .ladd d a b s => isG d && isG a && isG b && isS s
  | .lmin d a b s => isG d && isG a && isG b && isS s
  | .lmax d a b s => isG d && isG a && isG b && isS s
  | .land d a b s => isG d && isG a && isG b && isS s
  | .lor d a b s => isG d && isG a && isG b && isS s
  | .lxor d a b s => isG d && isG a && isG b && isS s
  | .lswp d a b s => isG d && isG a && isG b && isS s
  | .lcas d a b s => isG d && isG a && isG b && isS s
  | .fence m k => below 65536 m && below 8 k
  | .fpop d a => isG d && isA a
  | .vld d a s o => isV d && isG a && isS s && below 1024 o
  | .vst d a s o => isV d && isG a && isS s && below 1024 o
  | .fpopv d a => isV d && isA a
  | .vgath d a b w s => isV d && isQ a && isV b && below 3 w && isS s
  | .vscat d a b w s => isV d && isQ a && isV b && below 3 w && isS s
  | .vadd d a b t => isV d && isV a && isV b && isT t
  | .vsub d a b t => isV d && isV a && isV b && isT t
  | .vmul d a b t => isV d && isV a && isV b && isT t
  | .vmin d a b t => isV d && isV a && isV b && isT t
  | .vmax d a b t => isV d && isV a && isV b && isT t
  | .vfma d a b t => isV d && isV a && isV b && isFloatT t
  | .vshl d a b t => isV d && isV a && isV b && isIntT t
  | .vshr d a b t => isV d && isV a && isV b && isIntT t
  | .vcmpEq d a b t => isQd d && isV a && isV b && isT t
  | .vcmpLt d a b t => isQd d && isV a && isV b && isT t
  | .vcmpLe d a b t => isQd d && isV a && isV b && isT t
  | .vabs d a t => isV d && isV a && (isFloatT t || isSignedT t)
  | .vneg d a t => isV d && isV a && (isFloatT t || isSignedT t)
  | .vrcp d a t => isV d && isV a && isFloatT t
  | .vrsq d a t => isV d && isV a && isFloatT t
  | .vexp2 d a t => isV d && isV a && isFloatT t
  | .vlog2 d a t => isV d && isV a && isFloatT t
  | .vtanh d a t => isV d && isV a && isFloatT t
  | .vsum d a t => isV d && isV a && isT t
  | .vrmax d a t => isV d && isV a && isT t
  | .vand d a b => isV d && isV a && isV b
  | .vor d a b => isV d && isV a && isV b
  | .vxor d a b => isV d && isV a && isV b
  | .vsel d a b w => isV d && isV a && isQ b && below 3 w
  | .vperm d a b w => isV d && isV a && isV b && below 3 w
  | .vext d a b w => isG d && isV a && isG b && below 3 w
  | .vins d a b w => isV d && isG a && isG b && below 3 w
  | .vbcast d a w => isV d && isG a && below 3 w
  | .vcvt d a f s p => isV d && isV a && cvtFmt f && cvtFmt s && partOk (capacity f) (capacity s) p
  | .vqnt d a f s p => isV d && isV a && qntOk f s p
  | .vdqnt d a f s p => isV d && isV a && qntOk s f p
  | .vcvtLane d a f s p => isV d && isV a && isT f && isT s && partOk (laneCount f) (laneCount s) p
  | .tmma d a b s => isA d && isG a && isG b && isS s
  | .tzero d => isA d
  | .tstat d a => isG d && isA a
  | .tcfg d a b mm nn af bf acc =>
      isA d && isG a && isG b && below 32 mm && below 32 nn && tcfgOk af bf acc
  | .tcfgZ d a b mm nn af bf acc =>
      isA d && isG a && isG b && below 32 mm && below 32 nn && tcfgOk af bf acc
  | .tdrain d a b f raw s => isA d && isG a && isG b && drainOk f raw && isS s
  | .tldacc d a b f raw s => isA d && isG a && isG b && drainOk f raw && isS s
  | .tdrainF d a b f raw s => isA d && isG a && isG b && drainOk f raw && isS s
  | .claim a => isG a
  | .acqB d a => isG d && isG a
  | .acqL d a => isG d && isG a
  | .acqT d a => isG d && isG a
  | .acqC d a => isG d && isG a
  | .tacqB d a => isG d && isG a
  | .tacqL d a => isG d && isG a
  | .tacqT d a => isG d && isG a
  | .tacqC d a => isG d && isG a
  | .relB a => isG a
  | .relL a b => isG a && isG b
  | .relT a => isG a
  | .relC a => isG a
  | .relall => true
  | .qres d b => isG d && below 4 b
  | .send a => isG a
  | .sendt d a => isG d && isG a
  | .sendl a b s => isG a && isG b && isS s
  | .invoke a b => isG a && isG b
  | .invoket d a b => isG d && isG a && isG b
  | .invokep a b => isG a && isG b
  | .recv d a => isG d && isG a
  | .recvt d a => isG d && isG a
  | .waitmsg a => isG a
  | .reply a b => isG a && isG b
  | .invokei a b h len prio wsel wx f => isG a && isG b && invokeiOk h len prio wsel wx f
  | .invokeiT d a b h len prio wsel wx f =>
      isG d && isG a && isG b && invokeiOk h len prio wsel wx f
  | .invokeiP a b h len prio wsel wx f => isG a && isG b && invokeiOk h len prio wsel wx f
  | .dset d a b => isD d && isG a && isG b
  | .ddec d a b => isD d && isG a && isG b
  | .dwait d => isD d
  | .rld d a s c o z => rmemOk d a s c o z
  | .rst d a s c o z => rmemOk d a s c o z
  | .nst d a s c o z => rmemOk d a s c o z
  | .radd d a s c o z => ramoOk d a s c o z
  | .rmin d a s c o z => ramoOk d a s c o z
  | .rmax d a s c o z => ramoOk d a s c o z
  | .rand d a s c o z => ramoOk d a s c o z
  | .ror d a s c o z => ramoOk d a s c o z
  | .rxor d a s c o z => ramoOk d a s c o z
  | .rswp d a s c o z => ramoOk d a s c o z
  | .rcas d a s c o z => ramoOk d a s c o z && decide (d % 2 = 0)
  | .mcst z d a b s c o => below 4 z && isG d && isG a && isG b && isS s && isScope c && below 4 o
  | .hinit a b => isH a && isG b
  | .harrive d a x c => isG d && isH a && below 2 x && isScope c
  | .harriveRemote d a x c => isG d && isG a && below 2 x && isScope c
  | .hwait a b => isH a && isG b
  | .hwaitRemote a b => isG a && isG b
  | .hexpect a b => isH a && isG b
  | .htest d a b => isG d && isH a && isG b
  | .fred d a s => isG d && isG a && isS s
  | .fbcast d a s => isG d && isG a && isS s
  | .frwait d a => isG d && isG a
  | .cpy d a b g ss ds s c => cpyOk d a b g ss s c && below 4 ds
  | .cpyr d a b g ss ds s c => cpyOk d a b g ss s c && below 2 ds
  | .cpym d a b g ss s c t => cpyOk d a b g ss s c && below 8 t
  | .cpys e d a b g ss s c k => cpyOk d a b g ss s c && below 4 e && isA k
  | .cpyw d a => isG d && isG a
  | .cpyq d a => isG d && isG a
  | .cpyx a => isG a
  | .halo d a b dirs s => isG d && isG a && isG b && below 16 dirs && isS s
  | .sysr d n => isG d && below 4096 n
  | .sysw d n => isG d && below 4096 n
  | .sysset d n => isG d && below 4096 n
  | .sysclr d n => isG d && below 4096 n
  | .trap n => below 4096 n
  | .brk n => below 4096 n
  | .eret => true
  | .halt => true
  | .wfi => true
  | _ => false

end Sys2Proof.Machine
end

