-- ==== Sys2Proof/WellFormed.lean ====
section
/-! DEFINITION. Well-formed instructions: the encoded instructions whose fields the encoding admits
(R80, R81, R82). -/

namespace Sys2Proof

/-- An instruction that a word spells: its fields lie in their ranges and no chapter makes them
trap ILLEGAL_INSTRUCTION. -/
abbrev Instr.WellFormed (i : Instr) : Prop := Machine.legal i = true

end Sys2Proof
end

