-- ==== Sys2Proof/Decode.lean ====
section
/-! DEFINITION. Decoding and encoding of instruction words (R79 to R84 and the encoding tables of the
instruction chapters), total on any bytes; a word that is no instruction is rejected by name (R82). -/

namespace Sys2Proof

open Machine (bitsN legal)

/-- Why bytes are not an instruction. -/
inductive Undecoded where
  /-- fewer bytes than the instruction's length -/
  | tooShort
  /-- a major opcode that no chapter owns (R82) -/
  | major
  /-- an fn code its chapter does not assign, or a reserved bit that is not zero (R82) -/
  | fnOrReserved
  /-- a register field outside R81, a scope or format code or a qualifier that is not assigned (R82) -/
  | operand
  deriving DecidableEq, Repr

/-- Bits hi down to lo of an instruction word. -/
def fw (w hi lo : Nat) : Nat := w / 2 ^ lo % 2 ^ (hi + 1 - lo)

/-- Length in bytes, told by the first word's major alone (R79). -/
def instrLen (w0 : Nat) : Nat := if fw w0 31 26 < 0x3C then 4 else 8

/-- Major 0x01, part 1 (R141, R142, R143). -/
def rawInt1 (w : Nat) : Option Instr :=
  if fw w 7 0 = 0 then some (.add (fw w 25 20) (fw w 19 14) (fw w 13 8)) else
  if fw w 7 0 = 1 then some (.sub (fw w 25 20) (fw w 19 14) (fw w 13 8)) else
  if fw w 7 0 = 2 then some (.and (fw w 25 20) (fw w 19 14) (fw w 13 8)) else
  if fw w 7 0 = 3 then some (.or (fw w 25 20) (fw w 19 14) (fw w 13 8)) else
  if fw w 7 0 = 4 then some (.xor (fw w 25 20) (fw w 19 14) (fw w 13 8)) else
  if fw w 7 0 = 5 then some (.andn (fw w 25 20) (fw w 19 14) (fw w 13 8)) else
  if fw w 7 0 = 8 then some (.shl (fw w 25 20) (fw w 19 14) (fw w 13 8)) else
  if fw w 7 0 = 9 then some (.shr (fw w 25 20) (fw w 19 14) (fw w 13 8)) else
  if fw w 7 0 = 10 then some (.sar (fw w 25 20) (fw w 19 14) (fw w 13 8)) else
  if fw w 7 0 = 11 then some (.rol (fw w 25 20) (fw w 19 14) (fw w 13 8)) else
  if fw w 7 0 = 16 then some (.mul (fw w 25 20) (fw w 19 14) (fw w 13 8)) else
  if fw w 7 0 = 17 then some (.mulh (fw w 25 20) (fw w 19 14) (fw w 13 8)) else
  if fw w 7 0 = 18 then some (.mulhn (fw w 25 20) (fw w 19 14) (fw w 13 8)) else
  if fw w 7 0 = 20 then some (.div (fw w 25 20) (fw w 19 14) (fw w 13 8)) else
  if fw w 7 0 = 21 then some (.divn (fw w 25 20) (fw w 19 14) (fw w 13 8)) else
  if fw w 7 0 = 22 then some (.rem (fw w 25 20) (fw w 19 14) (fw w 13 8)) else
  none

/-- Major 0x01, part 2 (R143, R141, R144, R145). -/
def rawInt2 (w : Nat) : Option Instr :=
  if fw w 7 0 = 23 then some (.remn (fw w 25 20) (fw w 19 14) (fw w 13 8)) else
  if fw w 7 0 = 24 then some (.min (fw w 25 20) (fw w 19 14) (fw w 13 8)) else
  if fw w 7 0 = 25 then some (.max (fw w 25 20) (fw w 19 14) (fw w 13 8)) else
  if fw w 7 0 = 26 then some (.minn (fw w 25 20) (fw w 19 14) (fw w 13 8)) else
  if fw w 7 0 = 27 then some (.maxn (fw w 25 20) (fw w 19 14) (fw w 13 8)) else
  if fw w 7 0 = 32 then some (.slt (fw w 25 20) (fw w 19 14) (fw w 13 8)) else
  if fw w 7 0 = 33 then some (.sltn (fw w 25 20) (fw w 19 14) (fw w 13 8)) else
  if fw w 7 0 = 34 then some (.seq (fw w 25 20) (fw w 19 14) (fw w 13 8)) else
  if fw w 7 0 = 35 then some (.sel (fw w 25 20) (fw w 19 14) (fw w 13 8)) else
  if fw w 13 0 = 40 then some (.clz (fw w 25 20) (fw w 19 14)) else
  if fw w 13 0 = 41 then some (.ctz (fw w 25 20) (fw w 19 14)) else
  if fw w 13 0 = 42 then some (.popc (fw w 25 20) (fw w 19 14)) else
  if fw w 7 0 = 48 then some (.bfx (fw w 25 20) (fw w 19 14) (fw w 13 8)) else
  if fw w 7 0 = 49 then some (.bfi (fw w 25 20) (fw w 19 14) (fw w 13 8)) else
  none

/-- Major 0x01. -/
def rawInt (w : Nat) : Option Instr :=
  rawInt1 w <|> rawInt2 w

/-- Major 0x06 (R147). -/
def rawShiftImm (w : Nat) : Option Instr :=
  if fw w 13 6 = 0 then some (.shli (fw w 25 20) (fw w 19 14) (fw w 5 0)) else
  if fw w 13 6 = 64 then some (.shri (fw w 25 20) (fw w 19 14) (fw w 5 0)) else
  if fw w 13 6 = 128 then some (.sari (fw w 25 20) (fw w 19 14) (fw w 5 0)) else
  none

/-- Major 0x13 (R155, R156, R157, R158, R159). -/
def rawCtl (w : Nat) : Option Instr :=
  if fw w 25 0 = 0 then some (.nop) else
  if fw w 25 0 = 1 then some (.yield) else
  if fw w 25 0 = 2 then some (.exit) else
  if fw w 7 0 = 8 ∧ fw w 19 14 = 0 then some (.wid (fw w 25 20) (fw w 13 8)) else
  if fw w 19 0 = 9 then some (.time (fw w 25 20)) else
  none

/-- Major 0x1F (R173, R174, R176). -/
def rawLmem (w : Nat) : Option Instr :=
  if fw w 2 0 = 0 ∧ fw w 7 7 = 0 then some (.ladd (fw w 25 20) (fw w 19 14) (fw w 13 8) (fw w 6 3)) else
  if fw w 2 0 = 1 ∧ fw w 7 7 = 0 then some (.lmin (fw w 25 20) (fw w 19 14) (fw w 13 8) (fw w 6 3)) else
  if fw w 2 0 = 2 ∧ fw w 7 7 = 0 then some (.lmax (fw w 25 20) (fw w 19 14) (fw w 13 8) (fw w 6 3)) else
  if fw w 2 0 = 3 ∧ fw w 7 7 = 0 then some (.land (fw w 25 20) (fw w 19 14) (fw w 13 8) (fw w 6 3)) else
  if fw w 2 0 = 4 ∧ fw w 7 7 = 0 then some (.lor (fw w 25 20) (fw w 19 14) (fw w 13 8) (fw w 6 3)) else
  if fw w 2 0 = 5 ∧ fw w 7 7 = 0 then some (.lxor (fw w 25 20) (fw w 19 14) (fw w 13 8) (fw w 6 3)) else
  if fw w 2 0 = 6 ∧ fw w 7 7 = 0 then some (.lswp (fw w 25 20) (fw w 19 14) (fw w 13 8) (fw w 6 3)) else
  if fw w 2 0 = 7 ∧ fw w 7 7 = 0 then some (.lcas (fw w 25 20) (fw w 19 14) (fw w 13 8) (fw w 6 3)) else
  if fw w 9 3 = 16 then some (.fence (fw w 25 10) (fw w 2 0)) else
  if fw w 13 0 = 136 then some (.fpop (fw w 25 20) (fw w 19 14)) else
  none

/-- Major 0x22 (R176, R178). -/
def rawVmem (w : Nat) : Option Instr :=
  if fw w 13 0 = 0 then some (.fpopv (fw w 25 20) (fw w 19 14)) else
  if fw w 7 6 = 1 then some (.vgath (fw w 25 20) (fw w 19 14) (fw w 13 8) (fw w 5 4) (fw w 3 0)) else
  if fw w 7 6 = 2 then some (.vscat (fw w 25 20) (fw w 19 14) (fw w 13 8) (fw w 5 4) (fw w 3 0)) else
  none

/-- Major 0x23, part 1 (R211, R213, R215, R217). -/
def rawVop1 (w : Nat) : Option Instr :=
  if fw w 7 4 = 0 then some (.vadd (fw w 25 20) (fw w 19 14) (fw w 13 8) (fw w 3 0)) else
  if fw w 7 4 = 1 then some (.vsub (fw w 25 20) (fw w 19 14) (fw w 13 8) (fw w 3 0)) else
  if fw w 7 4 = 2 then some (.vmul (fw w 25 20) (fw w 19 14) (fw w 13 8) (fw w 3 0)) else
  if fw w 7 4 = 3 then some (.vmin (fw w 25 20) (fw w 19 14) (fw w 13 8) (fw w 3 0)) else
  if fw w 7 4 = 4 then some (.vmax (fw w 25 20) (fw w 19 14) (fw w 13 8) (fw w 3 0)) else
  if fw w 7 4 = 5 then some (.vfma (fw w 25 20) (fw w 19 14) (fw w 13 8) (fw w 3 0)) else
  if fw w 7 4 = 6 then some (.vshl (fw w 25 20) (fw w 19 14) (fw w 13 8) (fw w 3 0)) else
  if fw w 7 4 = 7 then some (.vshr (fw w 25 20) (fw w 19 14) (fw w 13 8) (fw w 3 0)) else
  if fw w 7 4 = 8 then some (.vcmpEq (fw w 25 20) (fw w 19 14) (fw w 13 8) (fw w 3 0)) else
  if fw w 7 4 = 9 then some (.vcmpLt (fw w 25 20) (fw w 19 14) (fw w 13 8) (fw w 3 0)) else
  if fw w 7 4 = 10 then some (.vcmpLe (fw w 25 20) (fw w 19 14) (fw w 13 8) (fw w 3 0)) else
  if fw w 13 4 = 11 then some (.vabs (fw w 25 20) (fw w 19 14) (fw w 3 0)) else
  if fw w 13 4 = 27 then some (.vneg (fw w 25 20) (fw w 19 14) (fw w 3 0)) else
  if fw w 13 4 = 43 then some (.vrcp (fw w 25 20) (fw w 19 14) (fw w 3 0)) else
  if fw w 13 4 = 59 then some (.vrsq (fw w 25 20) (fw w 19 14) (fw w 3 0)) else
  if fw w 13 4 = 75 then some (.vexp2 (fw w 25 20) (fw w 19 14) (fw w 3 0)) else
  none

/-- Major 0x23, part 2 (R217, R218, R219, R214, R216, R220). -/
def rawVop2 (w : Nat) : Option Instr :=
  if fw w 13 4 = 91 then some (.vlog2 (fw w 25 20) (fw w 19 14) (fw w 3 0)) else
  if fw w 13 4 = 107 then some (.vtanh (fw w 25 20) (fw w 19 14) (fw w 3 0)) else
  if fw w 13 4 = 12 then some (.vsum (fw w 25 20) (fw w 19 14) (fw w 3 0)) else
  if fw w 13 4 = 28 then some (.vrmax (fw w 25 20) (fw w 19 14) (fw w 3 0)) else
  if fw w 7 0 = 208 then some (.vand (fw w 25 20) (fw w 19 14) (fw w 13 8)) else
  if fw w 7 0 = 209 then some (.vor (fw w 25 20) (fw w 19 14) (fw w 13 8)) else
  if fw w 7 0 = 210 then some (.vxor (fw w 25 20) (fw w 19 14) (fw w 13 8)) else
  if fw w 1 0 = 0 ∧ fw w 7 4 = 14 then some (.vsel (fw w 25 20) (fw w 19 14) (fw w 13 8) (fw w 3 2)) else
  if fw w 1 0 = 1 ∧ fw w 7 4 = 14 then some (.vperm (fw w 25 20) (fw w 19 14) (fw w 13 8) (fw w 3 2)) else
  if fw w 1 0 = 2 ∧ fw w 7 4 = 14 then some (.vext (fw w 25 20) (fw w 19 14) (fw w 13 8) (fw w 3 2)) else
  if fw w 1 0 = 3 ∧ fw w 7 4 = 14 then some (.vins (fw w 25 20) (fw w 19 14) (fw w 13 8) (fw w 3 2)) else
  if fw w 1 0 = 0 ∧ fw w 13 4 = 15 then some (.vbcast (fw w 25 20) (fw w 19 14) (fw w 3 2)) else
  none

/-- Major 0x23. -/
def rawVop (w : Nat) : Option Instr :=
  rawVop1 w <|> rawVop2 w

/-- Major 0x24 (R222, R224, R225, R223). -/
def rawVcv (w : Nat) : Option Instr :=
  if fw w 1 0 = 0 then some (.vcvt (fw w 25 20) (fw w 19 14) (fw w 13 9) (fw w 8 4) (fw w 3 2)) else
  if fw w 1 0 = 1 then some (.vqnt (fw w 25 20) (fw w 19 14) (fw w 13 9) (fw w 8 4) (fw w 3 2)) else
  if fw w 1 0 = 2 then some (.vdqnt (fw w 25 20) (fw w 19 14) (fw w 13 9) (fw w 8 4) (fw w 3 2)) else
  if fw w 1 0 = 3 ∧ fw w 8 8 = 0 ∧ fw w 13 13 = 0 then some (.vcvtLane (fw w 25 20) (fw w 19 14) (fw w 12 9) (fw w 7 4) (fw w 3 2)) else
  none

/-- Major 0x25 (R246, R247, R253). -/
def rawTen (w : Nat) : Option Instr :=
  if fw w 7 4 = 0 then some (.tmma (fw w 25 20) (fw w 19 14) (fw w 13 8) (fw w 3 0)) else
  if fw w 19 0 = 16 then some (.tzero (fw w 25 20)) else
  if fw w 13 0 = 32 then some (.tstat (fw w 25 20) (fw w 19 14)) else
  none

/-- Major 0x26 (R131, R132, R133, R134, R135). -/
def rawRes (w : Nat) : Option Instr :=
  if fw w 13 0 = 0 ∧ fw w 25 20 = 0 then some (.claim (fw w 19 14)) else
  if fw w 13 0 = 16 then some (.acqB (fw w 25 20) (fw w 19 14)) else
  if fw w 13 0 = 17 then some (.acqL (fw w 25 20) (fw w 19 14)) else
  if fw w 13 0 = 18 then some (.acqT (fw w 25 20) (fw w 19 14)) else
  if fw w 13 0 = 19 then some (.acqC (fw w 25 20) (fw w 19 14)) else
  if fw w 13 0 = 32 then some (.tacqB (fw w 25 20) (fw w 19 14)) else
  if fw w 13 0 = 33 then some (.tacqL (fw w 25 20) (fw w 19 14)) else
  if fw w 13 0 = 34 then some (.tacqT (fw w 25 20) (fw w 19 14)) else
  if fw w 13 0 = 35 then some (.tacqC (fw w 25 20) (fw w 19 14)) else
  if fw w 13 0 = 48 ∧ fw w 25 20 = 0 then some (.relB (fw w 19 14)) else
  if fw w 7 0 = 49 ∧ fw w 25 20 = 0 then some (.relL (fw w 19 14) (fw w 13 8)) else
  if fw w 13 0 = 50 ∧ fw w 25 20 = 0 then some (.relT (fw w 19 14)) else
  if fw w 13 0 = 51 ∧ fw w 25 20 = 0 then some (.relC (fw w 19 14)) else
  if fw w 25 0 = 64 then some (.relall) else
  if fw w 7 0 = 80 ∧ fw w 19 14 = 0 then some (.qres (fw w 25 20) (fw w 13 8)) else
  none

/-- Major 0x27 (R297, R298, R300, R301). -/
def rawMsg (w : Nat) : Option Instr :=
  if fw w 13 0 = 0 ∧ fw w 25 20 = 0 then some (.send (fw w 19 14)) else
  if fw w 13 0 = 1 then some (.sendt (fw w 25 20) (fw w 19 14)) else
  if fw w 7 4 = 1 ∧ fw w 25 20 = 0 then some (.sendl (fw w 19 14) (fw w 13 8) (fw w 3 0)) else
  if fw w 7 0 = 32 ∧ fw w 25 20 = 0 then some (.invoke (fw w 19 14) (fw w 13 8)) else
  if fw w 7 0 = 33 then some (.invoket (fw w 25 20) (fw w 19 14) (fw w 13 8)) else
  if fw w 7 0 = 34 ∧ fw w 25 20 = 0 then some (.invokep (fw w 19 14) (fw w 13 8)) else
  if fw w 13 0 = 48 then some (.recv (fw w 25 20) (fw w 19 14)) else
  if fw w 13 0 = 49 then some (.recvt (fw w 25 20) (fw w 19 14)) else
  if fw w 13 0 = 50 ∧ fw w 25 20 = 0 then some (.waitmsg (fw w 19 14)) else
  if fw w 7 0 = 56 ∧ fw w 25 20 = 0 then some (.reply (fw w 19 14) (fw w 13 8)) else
  none

/-- Major 0x28 (R303, R304, R305). -/
def rawCnt (w : Nat) : Option Instr :=
  if fw w 7 0 = 0 then some (.dset (fw w 25 20) (fw w 19 14) (fw w 13 8)) else
  if fw w 7 0 = 1 then some (.ddec (fw w 25 20) (fw w 19 14) (fw w 13 8)) else
  if fw w 19 0 = 2 then some (.dwait (fw w 25 20)) else
  none

/-- Major 0x29 (R325). -/
def rawRmem (w : Nat) : Option Instr :=
  if fw w 2 0 = 0 then some (.rld (fw w 25 20) (fw w 19 14) (fw w 13 10) (fw w 9 7) (fw w 6 5) (fw w 4 3)) else
  if fw w 2 0 = 2 then some (.rst (fw w 25 20) (fw w 19 14) (fw w 13 10) (fw w 9 7) (fw w 6 5) (fw w 4 3)) else
  if fw w 2 0 = 4 then some (.nst (fw w 25 20) (fw w 19 14) (fw w 13 10) (fw w 9 7) (fw w 6 5) (fw w 4 3)) else
  none

/-- Major 0x2A (R326). -/
def rawRamo (w : Nat) : Option Instr :=
  if fw w 3 0 = 0 then some (.radd (fw w 25 20) (fw w 19 14) (fw w 13 10) (fw w 9 7) (fw w 6 5) (fw w 4 4)) else
  if fw w 3 0 = 1 then some (.rmin (fw w 25 20) (fw w 19 14) (fw w 13 10) (fw w 9 7) (fw w 6 5) (fw w 4 4)) else
  if fw w 3 0 = 2 then some (.rmax (fw w 25 20) (fw w 19 14) (fw w 13 10) (fw w 9 7) (fw w 6 5) (fw w 4 4)) else
  if fw w 3 0 = 3 then some (.rand (fw w 25 20) (fw w 19 14) (fw w 13 10) (fw w 9 7) (fw w 6 5) (fw w 4 4)) else
  if fw w 3 0 = 4 then some (.ror (fw w 25 20) (fw w 19 14) (fw w 13 10) (fw w 9 7) (fw w 6 5) (fw w 4 4)) else
  if fw w 3 0 = 5 then some (.rxor (fw w 25 20) (fw w 19 14) (fw w 13 10) (fw w 9 7) (fw w 6 5) (fw w 4 4)) else
  if fw w 3 0 = 6 then some (.rswp (fw w 25 20) (fw w 19 14) (fw w 13 10) (fw w 9 7) (fw w 6 5) (fw w 4 4)) else
  if fw w 3 0 = 7 then some (.rcas (fw w 25 20) (fw w 19 14) (fw w 13 10) (fw w 9 7) (fw w 6 5) (fw w 4 4)) else
  none

/-- Major 0x2B (R348, R349, R350, R351). -/
def rawHasp (w : Nat) : Option Instr :=
  if fw w 7 0 = 0 ∧ fw w 25 20 = 0 then some (.hinit (fw w 19 14) (fw w 13 8)) else
  if fw w 13 4 = 1 then some (.harrive (fw w 25 20) (fw w 19 14) (fw w 3 3) (fw w 2 0)) else
  if fw w 13 4 = 2 then some (.harriveRemote (fw w 25 20) (fw w 19 14) (fw w 3 3) (fw w 2 0)) else
  if fw w 7 0 = 48 ∧ fw w 25 20 = 0 then some (.hwait (fw w 19 14) (fw w 13 8)) else
  if fw w 7 0 = 49 ∧ fw w 25 20 = 0 then some (.hwaitRemote (fw w 19 14) (fw w 13 8)) else
  if fw w 7 0 = 64 ∧ fw w 25 20 = 0 then some (.hexpect (fw w 19 14) (fw w 13 8)) else
  if fw w 7 0 = 80 then some (.htest (fw w 25 20) (fw w 19 14) (fw w 13 8)) else
  none

/-- Major 0x2C (R369, R370). -/
def rawFab (w : Nat) : Option Instr :=
  if fw w 13 4 = 0 then some (.fred (fw w 25 20) (fw w 19 14) (fw w 3 0)) else
  if fw w 13 4 = 1 then some (.fbcast (fw w 25 20) (fw w 19 14) (fw w 3 0)) else
  if fw w 13 0 = 32 then some (.frwait (fw w 25 20) (fw w 19 14)) else
  none

/-- Major 0x38 (R396, R397). -/
def rawSys (w : Nat) : Option Instr :=
  if fw w 7 0 = 0 then some (.sysr (fw w 25 20) (fw w 19 8)) else
  if fw w 7 0 = 1 then some (.sysw (fw w 25 20) (fw w 19 8)) else
  if fw w 7 0 = 2 then some (.sysset (fw w 25 20) (fw w 19 8)) else
  if fw w 7 0 = 3 then some (.sysclr (fw w 25 20) (fw w 19 8)) else
  if fw w 7 0 = 16 ∧ fw w 25 20 = 0 then some (.trap (fw w 19 8)) else
  if fw w 7 0 = 17 ∧ fw w 25 20 = 0 then some (.brk (fw w 19 8)) else
  none

/-- Major 0x39 (R385, R398). -/
def rawPriv (w : Nat) : Option Instr :=
  if fw w 25 0 = 0 then some (.eret) else
  if fw w 25 0 = 1 then some (.halt) else
  if fw w 25 0 = 2 then some (.wfi) else
  none

/-- Major 0x3C, LTEN (R243). -/
def rawLten (w e : Nat) : Option Instr :=
  if fw w 7 0 = 0x00 ∧ fw e 31 21 = 0 then
    some (.tcfg (fw w 25 20) (fw w 19 14) (fw w 13 8) (fw e 4 0) (fw e 9 5) (fw e 14 10) (fw e 19 15) (fw e 20 20)) else
  if fw w 7 0 = 0x01 ∧ fw e 31 21 = 0 then
    some (.tcfgZ (fw w 25 20) (fw w 19 14) (fw w 13 8) (fw e 4 0) (fw e 9 5) (fw e 14 10) (fw e 19 15) (fw e 20 20)) else
  if fw w 7 0 = 0x10 ∧ fw e 31 10 = 0 then
    some (.tdrain (fw w 25 20) (fw w 19 14) (fw w 13 8) (fw e 4 0) (fw e 5 5) (fw e 9 6)) else
  if fw w 7 0 = 0x11 ∧ fw e 31 10 = 0 then
    some (.tldacc (fw w 25 20) (fw w 19 14) (fw w 13 8) (fw e 4 0) (fw e 5 5) (fw e 9 6)) else
  if fw w 7 0 = 0x12 ∧ fw e 31 10 = 0 then
    some (.tdrainF (fw w 25 20) (fw w 19 14) (fw w 13 8) (fw e 4 0) (fw e 5 5) (fw e 9 6)) else
  none

/-- Major 0x3D, LCPY (R275). -/
def rawLcpy (w e : Nat) : Option Instr :=
  if fw w 7 0 = 0x00 ∧ fw e 31 17 = 0 then
    some (.cpy (fw w 25 20) (fw w 19 14) (fw w 13 8) (fw e 5 0) (fw e 7 6) (fw e 9 8) (fw e 13 10) (fw e 16 14)) else
  if fw w 7 0 = 0x01 ∧ fw e 31 17 = 0 then
    some (.cpyr (fw w 25 20) (fw w 19 14) (fw w 13 8) (fw e 5 0) (fw e 7 6) (fw e 9 8) (fw e 13 10) (fw e 16 14)) else
  if fw w 7 0 = 0x02 ∧ fw e 9 8 = 0 ∧ fw e 31 20 = 0 then
    some (.cpym (fw w 25 20) (fw w 19 14) (fw w 13 8) (fw e 5 0) (fw e 7 6) (fw e 13 10) (fw e 16 14) (fw e 19 17)) else
  if fw w 7 2 = 0x01 ∧ fw e 9 8 = 0 ∧ fw e 31 20 = 0 then
    some (.cpys (fw w 1 0) (fw w 25 20) (fw w 19 14) (fw w 13 8) (fw e 5 0) (fw e 7 6) (fw e 13 10) (fw e 16 14) (fw e 19 17)) else
  if fw w 13 0 = 0x08 ∧ fw e 31 0 = 0 then some (.cpyw (fw w 25 20) (fw w 19 14)) else
  if fw w 13 0 = 0x09 ∧ fw e 31 0 = 0 then some (.cpyq (fw w 25 20) (fw w 19 14)) else
  if fw w 13 0 = 0x0A ∧ fw w 25 20 = 0 ∧ fw e 31 0 = 0 then some (.cpyx (fw w 19 14)) else
  if fw w 7 0 = 0x0C ∧ fw e 31 8 = 0 then
    some (.halo (fw w 25 20) (fw w 19 14) (fw w 13 8) (fw e 3 0) (fw e 7 4)) else
  none

/-- Major 0x3E, LMSG (R299, R323). -/
def rawLmsg (w e : Nat) : Option Instr :=
  if fw w 7 0 = 0x00 ∧ fw w 25 20 = 0 ∧ fw e 31 23 = 0 then
    some (.invokei (fw w 19 14) (fw w 13 8) (fw e 9 0) (fw e 11 10) (fw e 13 12) (fw e 16 14) (fw e 17 17) (fw e 22 18)) else
  if fw w 7 0 = 0x01 ∧ fw e 31 23 = 0 then
    some (.invokeiT (fw w 25 20) (fw w 19 14) (fw w 13 8) (fw e 9 0) (fw e 11 10) (fw e 13 12) (fw e 16 14) (fw e 17 17) (fw e 22 18)) else
  if fw w 7 0 = 0x02 ∧ fw w 25 20 = 0 ∧ fw e 31 23 = 0 then
    some (.invokeiP (fw w 19 14) (fw w 13 8) (fw e 9 0) (fw e 11 10) (fw e 13 12) (fw e 16 14) (fw e 17 17) (fw e 22 18)) else
  if fw w 7 2 = 0x20 ∧ fw e 31 9 = 0 then
    some (.mcst (fw w 1 0) (fw w 25 20) (fw w 19 14) (fw w 13 8) (fw e 3 0) (fw e 6 4) (fw e 8 7)) else
  none

/-- The majors that chapters own (R84); `none` outside is an unowned major. -/
def rawByMajor (w e : Nat) : Option (Option Instr) :=
  match fw w 31 26 with
  | 0x01 => some (rawInt w)
  | 0x02 => some (some (.addi (fw w 25 20) (fw w 19 14) (fw w 13 0)))
  | 0x03 => some (some (.andi (fw w 25 20) (fw w 19 14) (fw w 13 0)))
  | 0x04 => some (some (.ori (fw w 25 20) (fw w 19 14) (fw w 13 0)))
  | 0x05 => some (some (.xori (fw w 25 20) (fw w 19 14) (fw w 13 0)))
  | 0x06 => some (rawShiftImm w)
  | 0x07 => some (some (.slti (fw w 25 20) (fw w 19 14) (fw w 13 0)))
  | 0x08 => some (some (.sltin (fw w 25 20) (fw w 19 14) (fw w 13 0)))
  | 0x09 => some (some (.lui (fw w 25 20) (fw w 19 0)))
  | 0x0A => some (some (.adrp (fw w 25 20) (fw w 19 0)))
  | 0x0B => some (some (.beq (fw w 25 20) (fw w 19 14) (fw w 13 0)))
  | 0x0C => some (some (.bne (fw w 25 20) (fw w 19 14) (fw w 13 0)))
  | 0x0D => some (some (.blt (fw w 25 20) (fw w 19 14) (fw w 13 0)))
  | 0x0E => some (some (.bge (fw w 25 20) (fw w 19 14) (fw w 13 0)))
  | 0x0F => some (some (.bltn (fw w 25 20) (fw w 19 14) (fw w 13 0)))
  | 0x10 => some (some (.bgen (fw w 25 20) (fw w 19 14) (fw w 13 0)))
  | 0x11 => some (some (.jal (fw w 25 20) (fw w 19 0)))
  | 0x12 => some (some (.jalr (fw w 25 20) (fw w 19 14) (fw w 13 0)))
  | 0x13 => some (rawCtl w)
  | 0x14 => some (some (.ldb (fw w 25 20) (fw w 19 14) (fw w 13 10) (fw w 9 0)))
  | 0x15 => some (some (.ldbn (fw w 25 20) (fw w 19 14) (fw w 13 10) (fw w 9 0)))
  | 0x16 => some (some (.ldh (fw w 25 20) (fw w 19 14) (fw w 13 10) (fw w 9 0)))
  | 0x17 => some (some (.ldhn (fw w 25 20) (fw w 19 14) (fw w 13 10) (fw w 9 0)))
  | 0x18 => some (some (.ldw (fw w 25 20) (fw w 19 14) (fw w 13 10) (fw w 9 0)))
  | 0x19 => some (some (.ldwn (fw w 25 20) (fw w 19 14) (fw w 13 10) (fw w 9 0)))
  | 0x1A => some (some (.ldd (fw w 25 20) (fw w 19 14) (fw w 13 10) (fw w 9 0)))
  | 0x1B => some (some (.stb (fw w 25 20) (fw w 19 14) (fw w 13 10) (fw w 9 0)))
  | 0x1C => some (some (.sth (fw w 25 20) (fw w 19 14) (fw w 13 10) (fw w 9 0)))
  | 0x1D => some (some (.stw (fw w 25 20) (fw w 19 14) (fw w 13 10) (fw w 9 0)))
  | 0x1E => some (some (.std (fw w 25 20) (fw w 19 14) (fw w 13 10) (fw w 9 0)))
  | 0x1F => some (rawLmem w)
  | 0x20 => some (some (.vld (fw w 25 20) (fw w 19 14) (fw w 13 10) (fw w 9 0)))
  | 0x21 => some (some (.vst (fw w 25 20) (fw w 19 14) (fw w 13 10) (fw w 9 0)))
  | 0x22 => some (rawVmem w)
  | 0x23 => some (rawVop w)
  | 0x24 => some (rawVcv w)
  | 0x25 => some (rawTen w)
  | 0x26 => some (rawRes w)
  | 0x27 => some (rawMsg w)
  | 0x28 => some (rawCnt w)
  | 0x29 => some (rawRmem w)
  | 0x2A => some (rawRamo w)
  | 0x2B => some (rawHasp w)
  | 0x2C => some (rawFab w)
  | 0x38 => some (rawSys w)
  | 0x39 => some (rawPriv w)
  | 0x3C => some (rawLten w e)
  | 0x3D => some (rawLcpy w e)
  | 0x3E => some (rawLmsg w e)
  | _ => none

/-- The instruction spelled by a first word and, for a long form, the second word. -/
def decodeWords (w0 w1 : Nat) : Except Undecoded Instr :=
  match rawByMajor w0 w1 with
  | none => .error .major
  | some none => .error .fnOrReserved
  | some (some i) => if legal i then .ok i else .error .operand

/-- The 32-bit word spelled by four bytes (R6, R79). -/
def wordOfBytes (b0 b1 b2 b3 : Byte) : Nat :=
  b0.toNat + 256 * b1.toNat + 65536 * b2.toNat + 16777216 * b3.toNat

/-- The first instruction of a list of bytes and the bytes after it. -/
def decodeBytes : List Byte → Except Undecoded (Instr × List Byte)
  | b0 :: b1 :: b2 :: b3 :: rest =>
    let w0 := wordOfBytes b0 b1 b2 b3
    if instrLen w0 = 4 then (decodeWords w0 0).map fun i => (i, rest)
    else match rest with
      | c0 :: c1 :: c2 :: c3 :: rest' =>
        (decodeWords w0 (wordOfBytes c0 c1 c2 c3)).map fun i => (i, rest')
      | _ => .error .tooShort
  | _ => .error .tooShort

/-- The four bytes of a word, the lowest first. -/
def bytesOfWord (w : Nat) : List Byte :=
  [BitVec.ofNat 8 w, BitVec.ofNat 8 (w / 256), BitVec.ofNat 8 (w / 65536), BitVec.ofNat 8 (w / 16777216)]

/-- The instruction a table row's bits spell: the first word is bits 31..0, the second bits 63..32;
bits above nbits are zero. -/
def decodeTableWord (nbits w : Nat) : Option Instr :=
  let v := w % 2 ^ nbits
  match decodeBytes (bytesOfWord v ++ bytesOfWord (v / 2 ^ 32)) with
  | .ok (i, _) => some i
  | .error _ => none

/-- The first and second words of an encoded instruction (zero where there is none). -/
def encode : Instr → Nat × Nat
  | .add d a b => (0x04000000 + d * 0x100000 + a * 0x4000 + b * 0x100, 0)
  | .sub d a b => (0x04000001 + d * 0x100000 + a * 0x4000 + b * 0x100, 0)
  | .and d a b => (0x04000002 + d * 0x100000 + a * 0x4000 + b * 0x100, 0)
  | .or d a b => (0x04000003 + d * 0x100000 + a * 0x4000 + b * 0x100, 0)
  | .xor d a b => (0x04000004 + d * 0x100000 + a * 0x4000 + b * 0x100, 0)
  | .andn d a b => (0x04000005 + d * 0x100000 + a * 0x4000 + b * 0x100, 0)
  | .shl d a b => (0x04000008 + d * 0x100000 + a * 0x4000 + b * 0x100, 0)
  | .shr d a b => (0x04000009 + d * 0x100000 + a * 0x4000 + b * 0x100, 0)
  | .sar d a b => (0x0400000A + d * 0x100000 + a * 0x4000 + b * 0x100, 0)
  | .rol d a b => (0x0400000B + d * 0x100000 + a * 0x4000 + b * 0x100, 0)
  | .mul d a b => (0x04000010 + d * 0x100000 + a * 0x4000 + b * 0x100, 0)
  | .mulh d a b => (0x04000011 + d * 0x100000 + a * 0x4000 + b * 0x100, 0)
  | .mulhn d a b => (0x04000012 + d * 0x100000 + a * 0x4000 + b * 0x100, 0)
  | .div d a b => (0x04000014 + d * 0x100000 + a * 0x4000 + b * 0x100, 0)
  | .divn d a b => (0x04000015 + d * 0x100000 + a * 0x4000 + b * 0x100, 0)
  | .rem d a b => (0x04000016 + d * 0x100000 + a * 0x4000 + b * 0x100, 0)
  | .remn d a b => (0x04000017 + d * 0x100000 + a * 0x4000 + b * 0x100, 0)
  | .min d a b => (0x04000018 + d * 0x100000 + a * 0x4000 + b * 0x100, 0)
  | .max d a b => (0x04000019 + d * 0x100000 + a * 0x4000 + b * 0x100, 0)
  | .minn d a b => (0x0400001A + d * 0x100000 + a * 0x4000 + b * 0x100, 0)
  | .maxn d a b => (0x0400001B + d * 0x100000 + a * 0x4000 + b * 0x100, 0)
  | .slt d a b => (0x04000020 + d * 0x100000 + a * 0x4000 + b * 0x100, 0)
  | .sltn d a b => (0x04000021 + d * 0x100000 + a * 0x4000 + b * 0x100, 0)
  | .seq d a b => (0x04000022 + d * 0x100000 + a * 0x4000 + b * 0x100, 0)
  | .sel d a b => (0x04000023 + d * 0x100000 + a * 0x4000 + b * 0x100, 0)
  | .clz d a => (0x04000028 + d * 0x100000 + a * 0x4000, 0)
  | .ctz d a => (0x04000029 + d * 0x100000 + a * 0x4000, 0)
  | .popc d a => (0x0400002A + d * 0x100000 + a * 0x4000, 0)
  | .bfx d a b => (0x04000030 + d * 0x100000 + a * 0x4000 + b * 0x100, 0)
  | .bfi d a b => (0x04000031 + d * 0x100000 + a * 0x4000 + b * 0x100, 0)
  | .addi d a i => (0x08000000 + d * 0x100000 + a * 0x4000 + i, 0)
  | .andi d a i => (0x0C000000 + d * 0x100000 + a * 0x4000 + i, 0)
  | .ori d a i => (0x10000000 + d * 0x100000 + a * 0x4000 + i, 0)
  | .xori d a i => (0x14000000 + d * 0x100000 + a * 0x4000 + i, 0)
  | .shli d a s => (0x18000000 + d * 0x100000 + a * 0x4000 + s, 0)
  | .shri d a s => (0x18001000 + d * 0x100000 + a * 0x4000 + s, 0)
  | .sari d a s => (0x18002000 + d * 0x100000 + a * 0x4000 + s, 0)
  | .slti d a i => (0x1C000000 + d * 0x100000 + a * 0x4000 + i, 0)
  | .sltin d a i => (0x20000000 + d * 0x100000 + a * 0x4000 + i, 0)
  | .lui d i => (0x24000000 + d * 0x100000 + i, 0)
  | .adrp d i => (0x28000000 + d * 0x100000 + i, 0)
  | .beq a b o => (0x2C000000 + a * 0x100000 + b * 0x4000 + o, 0)
  | .bne a b o => (0x30000000 + a * 0x100000 + b * 0x4000 + o, 0)
  | .blt a b o => (0x34000000 + a * 0x100000 + b * 0x4000 + o, 0)
  | .bge a b o => (0x38000000 + a * 0x100000 + b * 0x4000 + o, 0)
  | .bltn a b o => (0x3C000000 + a * 0x100000 + b * 0x4000 + o, 0)
  | .bgen a b o => (0x40000000 + a * 0x100000 + b * 0x4000 + o, 0)
  | .jal d o => (0x44000000 + d * 0x100000 + o, 0)
  | .jalr d a i => (0x48000000 + d * 0x100000 + a * 0x4000 + i, 0)
  | .nop => (0x4C000000, 0)
  | .yield => (0x4C000001, 0)
  | .exit => (0x4C000002, 0)
  | .wid d b => (0x4C000008 + d * 0x100000 + b * 0x100, 0)
  | .time d => (0x4C000009 + d * 0x100000, 0)
  | .ldb d a s o => (0x50000000 + d * 0x100000 + a * 0x4000 + s * 0x400 + o, 0)
  | .ldbn d a s o => (0x54000000 + d * 0x100000 + a * 0x4000 + s * 0x400 + o, 0)
  | .ldh d a s o => (0x58000000 + d * 0x100000 + a * 0x4000 + s * 0x400 + o, 0)
  | .ldhn d a s o => (0x5C000000 + d * 0x100000 + a * 0x4000 + s * 0x400 + o, 0)
  | .ldw d a s o => (0x60000000 + d * 0x100000 + a * 0x4000 + s * 0x400 + o, 0)
  | .ldwn d a s o => (0x64000000 + d * 0x100000 + a * 0x4000 + s * 0x400 + o, 0)
  | .ldd d a s o => (0x68000000 + d * 0x100000 + a * 0x4000 + s * 0x400 + o, 0)
  | .stb d a s o => (0x6C000000 + d * 0x100000 + a * 0x4000 + s * 0x400 + o, 0)
  | .sth d a s o => (0x70000000 + d * 0x100000 + a * 0x4000 + s * 0x400 + o, 0)
  | .stw d a s o => (0x74000000 + d * 0x100000 + a * 0x4000 + s * 0x400 + o, 0)
  | .std d a s o => (0x78000000 + d * 0x100000 + a * 0x4000 + s * 0x400 + o, 0)
  | .ladd d a b s => (0x7C000000 + d * 0x100000 + a * 0x4000 + b * 0x100 + s * 0x8, 0)
  | .lmin d a b s => (0x7C000001 + d * 0x100000 + a * 0x4000 + b * 0x100 + s * 0x8, 0)
  | .lmax d a b s => (0x7C000002 + d * 0x100000 + a * 0x4000 + b * 0x100 + s * 0x8, 0)
  | .land d a b s => (0x7C000003 + d * 0x100000 + a * 0x4000 + b * 0x100 + s * 0x8, 0)
  | .lor d a b s => (0x7C000004 + d * 0x100000 + a * 0x4000 + b * 0x100 + s * 0x8, 0)
  | .lxor d a b s => (0x7C000005 + d * 0x100000 + a * 0x4000 + b * 0x100 + s * 0x8, 0)
  | .lswp d a b s => (0x7C000006 + d * 0x100000 + a * 0x4000 + b * 0x100 + s * 0x8, 0)
  | .lcas d a b s => (0x7C000007 + d * 0x100000 + a * 0x4000 + b * 0x100 + s * 0x8, 0)
  | .fence m k => (0x7C000080 + m * 0x400 + k, 0)
  | .fpop d a => (0x7C000088 + d * 0x100000 + a * 0x4000, 0)
  | .vld d a s o => (0x80000000 + d * 0x100000 + a * 0x4000 + s * 0x400 + o, 0)
  | .vst d a s o => (0x84000000 + d * 0x100000 + a * 0x4000 + s * 0x400 + o, 0)
  | .fpopv d a => (0x88000000 + d * 0x100000 + a * 0x4000, 0)
  | .vgath d a b w s => (0x88000040 + d * 0x100000 + a * 0x4000 + b * 0x100 + w * 0x10 + s, 0)
  | .vscat d a b w s => (0x88000080 + d * 0x100000 + a * 0x4000 + b * 0x100 + w * 0x10 + s, 0)
  | .vadd d a b t => (0x8C000000 + d * 0x100000 + a * 0x4000 + b * 0x100 + t, 0)
  | .vsub d a b t => (0x8C000010 + d * 0x100000 + a * 0x4000 + b * 0x100 + t, 0)
  | .vmul d a b t => (0x8C000020 + d * 0x100000 + a * 0x4000 + b * 0x100 + t, 0)
  | .vmin d a b t => (0x8C000030 + d * 0x100000 + a * 0x4000 + b * 0x100 + t, 0)
  | .vmax d a b t => (0x8C000040 + d * 0x100000 + a * 0x4000 + b * 0x100 + t, 0)
  | .vfma d a b t => (0x8C000050 + d * 0x100000 + a * 0x4000 + b * 0x100 + t, 0)
  | .vshl d a b t => (0x8C000060 + d * 0x100000 + a * 0x4000 + b * 0x100 + t, 0)
  | .vshr d a b t => (0x8C000070 + d * 0x100000 + a * 0x4000 + b * 0x100 + t, 0)
  | .vcmpEq d a b t => (0x8C000080 + d * 0x100000 + a * 0x4000 + b * 0x100 + t, 0)
  | .vcmpLt d a b t => (0x8C000090 + d * 0x100000 + a * 0x4000 + b * 0x100 + t, 0)
  | .vcmpLe d a b t => (0x8C0000A0 + d * 0x100000 + a * 0x4000 + b * 0x100 + t, 0)
  | .vabs d a t => (0x8C0000B0 + d * 0x100000 + a * 0x4000 + t, 0)
  | .vneg d a t => (0x8C0001B0 + d * 0x100000 + a * 0x4000 + t, 0)
  | .vrcp d a t => (0x8C0002B0 + d * 0x100000 + a * 0x4000 + t, 0)
  | .vrsq d a t => (0x8C0003B0 + d * 0x100000 + a * 0x4000 + t, 0)
  | .vexp2 d a t => (0x8C0004B0 + d * 0x100000 + a * 0x4000 + t, 0)
  | .vlog2 d a t => (0x8C0005B0 + d * 0x100000 + a * 0x4000 + t, 0)
  | .vtanh d a t => (0x8C0006B0 + d * 0x100000 + a * 0x4000 + t, 0)
  | .vsum d a t => (0x8C0000C0 + d * 0x100000 + a * 0x4000 + t, 0)
  | .vrmax d a t => (0x8C0001C0 + d * 0x100000 + a * 0x4000 + t, 0)
  | .vand d a b => (0x8C0000D0 + d * 0x100000 + a * 0x4000 + b * 0x100, 0)
  | .vor d a b => (0x8C0000D1 + d * 0x100000 + a * 0x4000 + b * 0x100, 0)
  | .vxor d a b => (0x8C0000D2 + d * 0x100000 + a * 0x4000 + b * 0x100, 0)
  | .vsel d a b w => (0x8C0000E0 + d * 0x100000 + a * 0x4000 + b * 0x100 + w * 0x4, 0)
  | .vperm d a b w => (0x8C0000E1 + d * 0x100000 + a * 0x4000 + b * 0x100 + w * 0x4, 0)
  | .vext d a b w => (0x8C0000E2 + d * 0x100000 + a * 0x4000 + b * 0x100 + w * 0x4, 0)
  | .vins d a b w => (0x8C0000E3 + d * 0x100000 + a * 0x4000 + b * 0x100 + w * 0x4, 0)
  | .vbcast d a w => (0x8C0000F0 + d * 0x100000 + a * 0x4000 + w * 0x4, 0)
  | .vcvt d a f s p => (0x90000000 + d * 0x100000 + a * 0x4000 + f * 0x200 + s * 0x10 + p * 0x4, 0)
  | .vqnt d a f s p => (0x90000001 + d * 0x100000 + a * 0x4000 + f * 0x200 + s * 0x10 + p * 0x4, 0)
  | .vdqnt d a f s p => (0x90000002 + d * 0x100000 + a * 0x4000 + f * 0x200 + s * 0x10 + p * 0x4, 0)
  | .vcvtLane d a f s p => (0x90000003 + d * 0x100000 + a * 0x4000 + f * 0x200 + s * 0x10 + p * 0x4, 0)
  | .tmma d a b s => (0x94000000 + d * 0x100000 + a * 0x4000 + b * 0x100 + s, 0)
  | .tzero d => (0x94000010 + d * 0x100000, 0)
  | .tstat d a => (0x94000020 + d * 0x100000 + a * 0x4000, 0)
  | .claim a => (0x98000000 + a * 0x4000, 0)
  | .acqB d a => (0x98000010 + d * 0x100000 + a * 0x4000, 0)
  | .acqL d a => (0x98000011 + d * 0x100000 + a * 0x4000, 0)
  | .acqT d a => (0x98000012 + d * 0x100000 + a * 0x4000, 0)
  | .acqC d a => (0x98000013 + d * 0x100000 + a * 0x4000, 0)
  | .tacqB d a => (0x98000020 + d * 0x100000 + a * 0x4000, 0)
  | .tacqL d a => (0x98000021 + d * 0x100000 + a * 0x4000, 0)
  | .tacqT d a => (0x98000022 + d * 0x100000 + a * 0x4000, 0)
  | .tacqC d a => (0x98000023 + d * 0x100000 + a * 0x4000, 0)
  | .relB a => (0x98000030 + a * 0x4000, 0)
  | .relL a b => (0x98000031 + a * 0x4000 + b * 0x100, 0)
  | .relT a => (0x98000032 + a * 0x4000, 0)
  | .relC a => (0x98000033 + a * 0x4000, 0)
  | .relall => (0x98000040, 0)
  | .qres d b => (0x98000050 + d * 0x100000 + b * 0x100, 0)
  | .send a => (0x9C000000 + a * 0x4000, 0)
  | .sendt d a => (0x9C000001 + d * 0x100000 + a * 0x4000, 0)
  | .sendl a b s => (0x9C000010 + a * 0x4000 + b * 0x100 + s, 0)
  | .invoke a b => (0x9C000020 + a * 0x4000 + b * 0x100, 0)
  | .invoket d a b => (0x9C000021 + d * 0x100000 + a * 0x4000 + b * 0x100, 0)
  | .invokep a b => (0x9C000022 + a * 0x4000 + b * 0x100, 0)
  | .recv d a => (0x9C000030 + d * 0x100000 + a * 0x4000, 0)
  | .recvt d a => (0x9C000031 + d * 0x100000 + a * 0x4000, 0)
  | .waitmsg a => (0x9C000032 + a * 0x4000, 0)
  | .reply a b => (0x9C000038 + a * 0x4000 + b * 0x100, 0)
  | .dset d a b => (0xA0000000 + d * 0x100000 + a * 0x4000 + b * 0x100, 0)
  | .ddec d a b => (0xA0000001 + d * 0x100000 + a * 0x4000 + b * 0x100, 0)
  | .dwait d => (0xA0000002 + d * 0x100000, 0)
  | .rld d a s c o z => (0xA4000000 + d * 0x100000 + a * 0x4000 + s * 0x400 + c * 0x80 + o * 0x20 + z * 0x8, 0)
  | .rst d a s c o z => (0xA4000002 + d * 0x100000 + a * 0x4000 + s * 0x400 + c * 0x80 + o * 0x20 + z * 0x8, 0)
  | .nst d a s c o z => (0xA4000004 + d * 0x100000 + a * 0x4000 + s * 0x400 + c * 0x80 + o * 0x20 + z * 0x8, 0)
  | .radd d a s c o z => (0xA8000000 + d * 0x100000 + a * 0x4000 + s * 0x400 + c * 0x80 + o * 0x20 + z * 0x10, 0)
  | .rmin d a s c o z => (0xA8000001 + d * 0x100000 + a * 0x4000 + s * 0x400 + c * 0x80 + o * 0x20 + z * 0x10, 0)
  | .rmax d a s c o z => (0xA8000002 + d * 0x100000 + a * 0x4000 + s * 0x400 + c * 0x80 + o * 0x20 + z * 0x10, 0)
  | .rand d a s c o z => (0xA8000003 + d * 0x100000 + a * 0x4000 + s * 0x400 + c * 0x80 + o * 0x20 + z * 0x10, 0)
  | .ror d a s c o z => (0xA8000004 + d * 0x100000 + a * 0x4000 + s * 0x400 + c * 0x80 + o * 0x20 + z * 0x10, 0)
  | .rxor d a s c o z => (0xA8000005 + d * 0x100000 + a * 0x4000 + s * 0x400 + c * 0x80 + o * 0x20 + z * 0x10, 0)
  | .rswp d a s c o z => (0xA8000006 + d * 0x100000 + a * 0x4000 + s * 0x400 + c * 0x80 + o * 0x20 + z * 0x10, 0)
  | .rcas d a s c o z => (0xA8000007 + d * 0x100000 + a * 0x4000 + s * 0x400 + c * 0x80 + o * 0x20 + z * 0x10, 0)
  | .hinit a b => (0xAC000000 + a * 0x4000 + b * 0x100, 0)
  | .harrive d a x c => (0xAC000010 + d * 0x100000 + a * 0x4000 + x * 0x8 + c, 0)
  | .harriveRemote d a x c => (0xAC000020 + d * 0x100000 + a * 0x4000 + x * 0x8 + c, 0)
  | .hwait a b => (0xAC000030 + a * 0x4000 + b * 0x100, 0)
  | .hwaitRemote a b => (0xAC000031 + a * 0x4000 + b * 0x100, 0)
  | .hexpect a b => (0xAC000040 + a * 0x4000 + b * 0x100, 0)
  | .htest d a b => (0xAC000050 + d * 0x100000 + a * 0x4000 + b * 0x100, 0)
  | .fred d a s => (0xB0000000 + d * 0x100000 + a * 0x4000 + s, 0)
  | .fbcast d a s => (0xB0000010 + d * 0x100000 + a * 0x4000 + s, 0)
  | .frwait d a => (0xB0000020 + d * 0x100000 + a * 0x4000, 0)
  | .sysr d n => (0xE0000000 + d * 0x100000 + n * 0x100, 0)
  | .sysw d n => (0xE0000001 + d * 0x100000 + n * 0x100, 0)
  | .sysset d n => (0xE0000002 + d * 0x100000 + n * 0x100, 0)
  | .sysclr d n => (0xE0000003 + d * 0x100000 + n * 0x100, 0)
  | .trap n => (0xE0000010 + n * 0x100, 0)
  | .brk n => (0xE0000011 + n * 0x100, 0)
  | .eret => (0xE4000000, 0)
  | .halt => (0xE4000001, 0)
  | .wfi => (0xE4000002, 0)
  | .tcfg d a b mm nn af bf acc =>
    (0xF0000000 + d * 0x100000 + a * 0x4000 + b * 0x100, mm + nn * 32 + af * 1024 + bf * 32768 + acc * 1048576)
  | .tcfgZ d a b mm nn af bf acc =>
    (0xF0000001 + d * 0x100000 + a * 0x4000 + b * 0x100, mm + nn * 32 + af * 1024 + bf * 32768 + acc * 1048576)
  | .tdrain d a b f raw s => (0xF0000010 + d * 0x100000 + a * 0x4000 + b * 0x100, f + raw * 32 + s * 64)
  | .tldacc d a b f raw s => (0xF0000011 + d * 0x100000 + a * 0x4000 + b * 0x100, f + raw * 32 + s * 64)
  | .tdrainF d a b f raw s => (0xF0000012 + d * 0x100000 + a * 0x4000 + b * 0x100, f + raw * 32 + s * 64)
  | .cpy d a b g ss ds s c =>
    (0xF4000000 + d * 0x100000 + a * 0x4000 + b * 0x100, g + ss * 64 + ds * 256 + s * 1024 + c * 16384)
  | .cpyr d a b g ss ds s c =>
    (0xF4000001 + d * 0x100000 + a * 0x4000 + b * 0x100, g + ss * 64 + ds * 256 + s * 1024 + c * 16384)
  | .cpym d a b g ss s c t =>
    (0xF4000002 + d * 0x100000 + a * 0x4000 + b * 0x100, g + ss * 64 + s * 1024 + c * 16384 + t * 131072)
  | .cpys e d a b g ss s c k =>
    (0xF4000004 + e + d * 0x100000 + a * 0x4000 + b * 0x100, g + ss * 64 + s * 1024 + c * 16384 + k * 131072)
  | .cpyw d a => (0xF4000008 + d * 0x100000 + a * 0x4000, 0)
  | .cpyq d a => (0xF4000009 + d * 0x100000 + a * 0x4000, 0)
  | .cpyx a => (0xF400000A + a * 0x4000, 0)
  | .halo d a b dirs s => (0xF400000C + d * 0x100000 + a * 0x4000 + b * 0x100, dirs + s * 16)
  | .invokei a b h len prio wsel wx f =>
    (0xF8000000 + a * 0x4000 + b * 0x100,
      h + len * 1024 + prio * 4096 + wsel * 16384 + wx * 131072 + f * 262144)
  | .invokeiT d a b h len prio wsel wx f =>
    (0xF8000001 + d * 0x100000 + a * 0x4000 + b * 0x100,
      h + len * 1024 + prio * 4096 + wsel * 16384 + wx * 131072 + f * 262144)
  | .invokeiP a b h len prio wsel wx f =>
    (0xF8000002 + a * 0x4000 + b * 0x100,
      h + len * 1024 + prio * 4096 + wsel * 16384 + wx * 131072 + f * 262144)
  | .mcst z d a b s c o => (0xF8000080 + z + d * 0x100000 + a * 0x4000 + b * 0x100, s + c * 16 + o * 128)
  | _ => (0, 0)

/-- The bytes of an encoded instruction, in memory order. -/
def encodeBytes (i : Instr) : List Byte :=
  let (w0, w1) := encode i
  bytesOfWord w0 ++ (if instrLen w0 = 8 then bytesOfWord w1 else [])

end Sys2Proof
end

