-- ==== Sys2Proof/Machine/State.lean ====
section
/-! DEFINITION. The state of a domain of Skachacor-2 modules as plain data: every register, queue, table
and memory the chapters give, for every site, router, management core, port, ingress queue, power
region and module, and the outcomes of a step that are not a next state. -/

namespace Sys2Proof.Machine

/-- Sparse data by number: a list of keys and values, the first entry of a key counting. -/
abbrev Tab (α : Type) := List (Nat × α)

/-- A memory: the listed bytes; an unlisted byte reads as zero. -/
-- DESIGN CHOICE: log 1.
abbrev Mem := List Host.Cell

/-- One 256-bit flit (R33). -/
abbrev Flit := BitVec 256

/-- What an MGMT packet is for (R68, R384, R391, R262, R404, R409): the manual gives no field for it. -/
-- DESIGN CHOICE: log 13.
inductive MgmtKind where
  | none | window | windowAnswer | guardDrop | coreHalt | stopDone | portOp | portOpAnswer
  deriving DecidableEq, Repr

/-- What a copy engine's packet says for which the manual gives no header field (R267 to R273): the bytes it
covers; for an ordered contribution the place of its first element, whether its last byte is filled out with zeros,
the exact values as (kind, mantissa, exponent) and the rounding mode; the counter of a multicast; and, in an answer,
the status it gives the copy, the flags its home raised, and what it had done before a refusal: the bytes written, as offsets and
lengths, and the elements updated; and in a tree packet whether it is the last of a raw broadcast, whether it is the first tile of a multicast, and whether it stands for an
absent input, of its block (1) or of every later one (2) (R363, R369). -/
-- DESIGN CHOICE: log 13.
structure Cargo where
  bytes : Nat := 0
  bit : Nat := 0
  tail : Bool := false
  vals : List (Nat × Nat × Int) := []
  rm : Nat := 0
  counter : Nat := 0
  status : Nat := 0
  flags : Nat := 0
  elems : Nat := 0
  parts : List (Nat × Nat) := []
  last : Bool := false
  first : Bool := false
  absent : Nat := 0
  deriving DecidableEq, Repr

/-- A packet: the header fields of R33, the travelling state of R56 and the payload flits. `origin`,
`tgt` and `ansTo` are sites: where it entered the fabric, where it is routed on its wafer, and, for an
answer, the ORIGIN of the packet it answers (R57); `hop1` is a first hop that is fixed (R64, R68); `tail` is when its last flit is
where its header is, and `trail` the links, by site and side, that its tail has not come over, each with the time at which it has (R24). -/
structure Packet where
  dest : Nat := 0
  src : Nat := 0
  kind : Nat := 0
  vc : Nat := 0
  prio : Nat := 0
  handler : Nat := 0
  counter : Nat := 0
  len : Nat := 0
  stream : Nat := 0
  scope : Nat := 0
  fmt : Nat := 0
  seq : Nat := 0
  park : Nat := 0
  ks : Nat := 0
  arg0 : Word := 0
  arg1 : Word := 0
  payload : List Flit := []
  origin : Nat := 0
  tgt : Option Nat := .none
  ansTo : Option Nat := .none
  fld : Bool := false
  ing : Bool := false
  prb : Bool := false
  hop1 : Option Nat := .none
  tail : Nat := 0
  trail : List (Nat × Nat × Nat) := []
  mgmt : MgmtKind := .none
  cargo : Cargo := {}
  late : Bool := false
  deriving DecidableEq, Repr

/-- A 32-byte fetch line (R76): its address, its bits, and the words of it that were uncorrectable
when it was filled (R169). -/
structure FetchLine where
  base : Nat
  data : Flit
  bad : List Nat := []
  deriving DecidableEq, Repr

/-- The registers of a strand slot, of the supervisor context (R380) or of a management core: general
registers by number (resident ones only), vectors, masks (q0 is hard-wired), build registers, feed
registers, floating-point registers, the pooled bank at each strand bank number (R121), the fetch lines,
and the registers whose parity is bad as (file, number) (R388). -/
-- DESIGN CHOICE: log 2.
structure Ctx where
  pc : Word := 0
  g : Tab Word := []
  v : Tab Vec := []
  q : Tab Mask := []
  m : Tab Word := []
  f : Tab Word := []
  fpflags : Word := 0
  fpctl : Word := 0
  lfsr : Word := 0
  banks : Tab Nat := []
  lines : List FetchLine := []
  abandoned : Option Nat := none
  parity : List (Nat × Nat) := []
  deriving DecidableEq, Repr

/-- Which registers a result in flight is for. -/
inductive RegRef where
  | g (n : Nat) | v (n : Nat) | q (n : Nat)
  deriving DecidableEq, Repr

/-- One single-copy atomic unit of a local access (R331). Addresses are local addresses of the core, or
store addresses of a management core. -/
inductive AUnit where
  /-- read n bytes at a into byte offset o of the access's result -/
  | read (a n o : Nat)
  /-- write n bytes of x at a -/
  | write (a n x : Nat)
  /-- a local atomic (R173): operation, operand, expected value -/
  | rmw (a op : Nat) (b c : Word)
  /-- lanes of a gather in one line: (lane, address, bytes) -/
  | gather (lanes : List (Nat × Nat × Nat))
  /-- lanes of a scatter in one line: (lane, address, bytes, value), lowest lane first -/
  | scatter (lanes : List (Nat × Nat × Nat × Nat))
  deriving DecidableEq, Repr

/-- What is done with the result of an access once every unit has performed. -/
inductive AFin where
  | none
  /-- a scalar load: bytes, whether signed, destination -/
  | load (n : Nat) (signed : Bool) (d : Option Nat)
  /-- a local atomic: destination, and whether it is written -/
  | atomic (d : Option Nat)
  /-- a vector load or gather -/
  | vec (d : Option Nat)
  /-- the payload of a SENDL packet with this serial number -/
  | sendl (id : Nat)
  /-- the list of the MCST that its strand waits in -/
  | list
  /-- an access of the tensor engine: operands or steering bytes, or the rows of a drain (R237) -/
  | engine
  deriving DecidableEq, Repr

/-- A local access that has issued and not wholly performed (R165). `key` is its strand (16 × group
number + strand index, 256 for the supervisor context), `pc` its instruction, `counts` whether it
counts towards the limit of R167, `via` the physical pages of virtual pages mapped anew since it issued (R164). -/
structure Access where
  id : Nat
  key : Nat
  stream : Nat
  rd : Bool
  wr : Bool
  counts : Bool := true
  pc : Word := 0
  ea : Nat := 0
  units : List AUnit := []
  acc : Nat := 0
  fin : AFin := .none
  via : Tab Nat := []
  ready : Nat := 0
  deriving DecidableEq, Repr

/-- A multiply or divide result in flight (R139). -/
structure Pending where
  key : Nat
  d : Option Nat
  val : Word
  div : Bool
  ready : Nat := 0
  deriving DecidableEq, Repr

/-- A vector result in flight (R206): its registers, the flags it raises, the lowest element that
raised each flag, its instruction and whether it traps (R201). -/
structure VPending where
  key : Nat
  pc : Word
  gd : Option (Nat × Word) := none
  vd : Option (Nat × Vec) := none
  qd : Option (Nat × Mask) := none
  flags : Nat := 0
  traps : Bool := false
  info : Word := 0
  lfsr : Option Word := none
  trans : Bool := false
  tables : Bool := false
  canRaise : Bool := false
  ready : Nat := 0
  deriving DecidableEq, Repr

/-- Why a strand or the supervisor context waits (R104). `again r` waits until its instruction can
issue again, with reason r; the others are completed by the event they wait for. -/
inductive Wait where
  | none
  /-- 9: places for flits in the injection buffer -/
  | allowance (flits : Nat)
  /-- 10: the release half before an instruction: stream mask of local accesses (all) and home class -/
  | release (cls : Nat)
  /-- 10: an arrival at a local hasp after its release half, applied in the cycle `due` (R343, R349); its token's register -/
  | arriving (due d h : Nat) (drop : Bool)
  /-- 7: a channel of the group, for the copy kept with the strand; its handle's register -/
  | channel (d : Nat)
  /-- 8: fewer than 4 operations of a tree outstanding, for the operation kept with the strand; its ticket's register -/
  | treeSlot (tree d : Nat)
  /-- 10: FENCE -/
  | fence (mask kinds : Nat)
  /-- 2: DWAIT -/
  | counter (k : Nat)
  /-- 3: RECV with its destination, or WAITMSG -/
  | recv (mask d order : Nat)
  | waitmsg (mask : Nat)
  /-- 4: HWAIT -/
  | hasp (h token : Nat)
  /-- 5: the Tumbler, or the zeroing of granted pages with the result to write -/
  | tumbler
  | zeroing (d : Nat) (v : Word)
  /-- 9: local completion of packet id; then the instruction completes with an optional result, or
  waits for its answer -/
  | localDone (id : Nat) (d : Option (Nat × Word)) (reply : Bool)
  /-- 6 (or 4 for a remote hasp wait): the answer to sequence number seq -/
  | reply (reason seq : Nat)
  /-- 9: MCST's list is being read -/
  | list
  /-- MCST: the remote addresses of the entries left to send (9), after its release half of a class (10) -/
  | mcst (left : List Nat) (rel : Option Nat)
  /-- 7: CPYW -/
  | copyEnd (h d : Nat)
  /-- 8: FRWAIT -/
  | reduction (ticket d : Nat)
  /-- 1: FPOP (false) and FPOPV (true) of feed register k into d -/
  | feed (vec : Bool) (k d : Nat)
  /-- 11: WFI -/
  | wfi
  /-- a wait of the supervisor context that has ended in this cycle -/
  | over
  deriving DecidableEq, Repr

/-- The reason numbers of R104. -/
def Wait.reason : Wait → Nat
  | .none => 0 | .allowance _ => 9 | .release _ => 10 | .arriving _ _ _ _ => 10 | .channel _ => 7 | .treeSlot _ _ => 8
  | .fence _ _ => 10 | .counter _ => 2 | .recv _ _ _ => 3 | .waitmsg _ => 3 | .hasp _ _ => 4
  | .tumbler => 5 | .zeroing _ _ => 5 | .localDone _ _ _ => 9 | .reply r _ => r
  | .list => 9
  | .mcst _ r => if r.isSome then 10 else 9
  | .copyEnd _ _ => 7 | .reduction _ _ => 8 | .feed _ _ _ => 1
  | .wfi => 11
  | .over => 0

/-- Whether a wait is for the cycle of an arrival at a hasp. -/
def Wait.isArrival : Wait → Bool
  | .arriving _ _ _ _ => true
  | _ => false

/-- The states of a strand slot (R97). -/
inductive SlotState where
  | free | ready | waiting | trapped | saving | restoring
  deriving DecidableEq, Repr

/-- A strand slot: its state, the strand in it (group number and strand index), its registers, its age
counter and the classes it has been promoted by (R101), and the first cycle in which it may issue again after YIELD (R103). -/
structure Slot where
  st : SlotState := .free
  grp : Nat := 0
  idx : Nat := 0
  ctx : Ctx := {}
  age : Nat := 0
  boost : Nat := 0
  yieldTo : Nat := 0
  deriving DecidableEq, Repr

/-- A trap to be delivered or held: cause, address, detail (R381). -/
structure TrapVal where
  cause : Nat
  pc : Word
  info : Word
  deferred : Bool := false
  deriving DecidableEq, Repr

/-- A resource vector (R116). -/
structure RVec where
  b : Nat := 0
  l : Nat := 0
  t : Nat := 0
  c : Nat := 0
  deriving DecidableEq, Repr

/-- The fields of a handler entry (R29); `firm` is the index of the firmware collective it starts, else 0 (R367). -/
structure Entry where
  pc : Nat := 0
  nstr : Nat := 0
  prio : Nat := 0
  en : Bool := false
  senders : Nat := 0
  park : Nat := 0
  claim : RVec := {}
  grant : RVec := {}
  wshape : Nat := 0
  reserved : Bool := false
  firm : Nat := 0
  deriving DecidableEq, Repr

/-- A queued launch (R32, R36): the entry copy, the work identifier and widths, the start values of
R42 and the mailbox copies it keeps until it exits (R41), with whether the last of them is that of a packet that launched it
(R301). -/
structure QEntry where
  entry : Entry
  wid : Word := 0
  wshape : Nat := 0
  g1 : Word := 0
  g4 : Word := 0
  g5 : Word := 0
  g6 : Word := 0
  copies : List Nat := []
  launched : Bool := true
  deriving DecidableEq, Repr

/-- The states of a group that has a number (R98). -/
inductive GroupState where
  | running | preempted | draining
  deriving DecidableEq, Repr

/-- A firmware collective that a group runs: its handler index, the address of its descriptor, whether that has been found valid, and
its STATUS with what its DST is to hold once it has ended (R367), and the cycle from which on it can know of its end (R354). -/
structure Coll where
  index : Nat
  desc : Nat
  checked : Bool := false
  result : Option (Nat × Nat) := none
  due : Nat := 0
  deriving DecidableEq, Repr

/-- A group: `uid` tells it from other groups that get its number, `live` the indices of its strands
that have not exited, `slotsT` the accumulator slots and `chans` the channel count it holds, `start` whether its strands
wait for their pages to be zeroed (R106), `since` when it was pre-empted, `victim` whether it is being
saved (R109), `coll` the firmware collective it runs in place of instructions (R367). -/
structure Group where
  uid : Nat
  st : GroupState := .running
  prio : Nat := 0
  n : Nat := 1
  live : List Nat := []
  wid : Word := 0
  wshape : Nat := 0
  claim : RVec := {}
  slotsT : List Nat := []
  chans : Nat := 0
  copies : List Nat := []
  launched : Bool := false
  g1 : Word := 0
  since : Nat := 0
  start : Bool := false
  victim : Bool := false
  coll : Option Coll := none
  deriving DecidableEq, Repr

/-- A request the Tumbler tests (R119): of class k for n, by the waiting context `key` for the strand `who`
(another one in S, R130), blocking or not, with its result register, its group's PRIO and its place in
time; or the admission of the head of a class. -/
inductive TReq where
  | acq (key who k n : Nat) (blocking : Bool) (d prio order : Nat)
  | queueHead (cls order : Nat)
  deriving DecidableEq, Repr

/-- A safety test in progress with its snapshot (R120): held and need vectors of the groups counted, what is
available, whether a run of pages exists, the commit, page-map and release counts, and the first cycle in
which it may end. -/
structure TTest where
  req : TReq
  vecs : List (Nat × RVec × RVec)
  avail : RVec
  run : Bool
  commits : Nat
  maps : Nat
  events : Nat
  ready : Nat
  deriving DecidableEq, Repr

/-- A release that has been issued and not yet applied (R128): banks of a strand, pages of a group as
(virtual, physical) with the accesses it waits for, an accumulator slot, or channels. -/
inductive Release where
  | banks (key mask : Nat)
  | pages (grp : Nat) (pages : List (Nat × Nat)) (behind : List Nat)
  | slot (grp slot : Nat)
  | chan (grp n : Nat)
  deriving DecidableEq, Repr

/-- Zeroing of granted physical pages (R122), with the 32-byte lines left to zero (R331), and the context or group that waits for it. -/
structure Zeroing where
  pages : List Nat
  lines : List Nat := []
  forKey : Option Nat := none
  forGrp : Option Nat := none
  ready : Nat := 0
  deriving DecidableEq, Repr

/-- The Tumbler (R116 to R136): requests whose test has not begun, tests, the first cycle in which the next
may begin, tests to be restarted on a fresh snapshot, the waiter queue, whether a re-evaluation is due or will be from the
next cycle on (`raised`), the waiters its pass has left (by order), whether an admission evaluation is due, or will be from the
next cycle on (`freed`) (R105), whether the class-3 head waits for the victims of an
urgent pre-emption with its grant found safe (R108), and the counts of R120. -/
structure Tumbler where
  asked : List TReq := []
  tests : List TTest := []
  nextStart : Nat := 0
  restarts : List TReq := []
  waiters : List TReq := []
  reeval : Bool := false
  raised : Bool := false
  pass : List Nat := []
  evaluate : Bool := false
  freed : Bool := false
  urgent : Bool := false
  commits : Nat := 0
  maps : Nat := 0
  events : Nat := 0
  order : Nat := 0
  releases : List Release := []
  zeroing : List Zeroing := []
  deriving DecidableEq, Repr

/-- A copy in the mailbox ring (R286, R287). -/
structure Copy where
  start : Nat
  n : Nat
  deriving DecidableEq, Repr

/-- An entry of the message queue (R288). -/
structure MqEntry where
  copy : Nat
  kind : Nat
  owner : Option Nat := none
  deriving DecidableEq, Repr

/-- A bound dependency counter (R294). -/
structure Counter where
  handler : Nat := 0
  count : Nat := 0
  list : Bool := false
  buf : Nat := 0
  pidx : Nat := 0
  wid : Word := 0
  wshape : Nat := 0
  copies : List Nat := []
  deriving DecidableEq, Repr

/-- A hasp (R341): STATE 0 UNSET, 1 OPEN, 2 CLOSED. -/
structure Hasp where
  st : Nat := 0
  remote : Bool := false
  phase : Nat := 0
  expect : Nat := 0
  left : Nat := 0
  deriving DecidableEq, Repr

/-- The configuration of an accumulator slot (R230, R245). -/
structure TConf where
  m : Nat := 1
  n : Nat := 1
  k : Nat := 0
  af : Nat := 0
  bf : Nat := 0
  int : Bool := false
  astride : Nat := 0
  bstride : Nat := 0
  deriving DecidableEq, Repr

/-- An accumulator slot: its words by 32 × row + column, and the state of R230. -/
structure TSlot where
  words : Tab (BitVec 32) := []
  conf : Option TConf := none
  live : Bool := false
  poison : Bool := false
  sf : Nat := 0
  deriving DecidableEq, Repr

/-- The tensor operations that enter the queue (R232). -/
inductive TKind where
  | tcfg | tmma | tzero | tdrain | tldacc | tdrainF
  deriving DecidableEq, Repr

/-- A tensor operation queued or executing: its slot, issuing context and group, configuration at issue (`fresh`
where the slot was not LIVE), addresses, row stride, format, stream, rounding mode, LFSR state and tag; the access
it holds in its strand's stream and what that has read, with whether it met an uncorrectable word; the row, way and
the pieces of the row left, the tables copied at its start, the last packet it sent, and the flags raised (R232 to
R251). -/
structure TOp where
  kind : TKind
  slot : Nat
  key : Nat
  grp : Nat
  conf : TConf := {}
  fresh : Bool := false
  aAddr : Nat := 0
  stride : Nat := 0
  fmt : Nat := 0
  raw : Bool := false
  stream : Nat := 0
  rm : Nat := 0
  lfsr : Nat := 0
  tag : Word := 0
  acc : Option Nat := none
  data : Option Nat := none
  bad : Bool := false
  row : Nat := 0
  way : Nat := 0
  left : Option (List (Nat × Nat)) := none
  table : Tab Word := []
  tdec : Tab Nat := []
  sent : Option Nat := none
  flags : Nat := 0
  deriving DecidableEq, Repr

/-- The tensor engine (R226 to R234): its queue, the operation at hand, and before it the TMMAs of the same slot whose
passes have all been fired and whose results are still to be written. -/
structure Tensor where
  queue : List TOp := []
  fired : List TOp := []
  cur : Option TOp := none
  active : Nat := 0
  slots : Tab TSlot := []
  deriving DecidableEq, Repr

/-- The conversion and completion fields of a shape block or descriptor as read at issue (R263, R274). -/
structure Shape where
  sf : Nat := 0
  df : Nat := 0
  rm : Nat := 0
  cells : Bool := false
  rop : Nat := 0
  ackcnt : Nat := 0
  ord : Nat := 0
  tag : Nat := 0
  deriving DecidableEq, Repr

/-- What a copy channel runs. -/
inductive CKind where
  | cpy | cpyr | cpym | cpys | halo
  deriving DecidableEq, Repr

/-- One array that a copy moves: a copy's own, or a slab of a HALO. Its base addresses, the names of REMOTE ends (a
host port's number for HOST), its dimensions as (extent, source stride, destination stride), innermost first, and the
counter of its destination. -/
structure Leg where
  sbase : Nat := 0
  dbase : Nat := 0
  sname : Nat := 0
  dname : Nat := 0
  dims : List (Nat × Int × Int) := []
  dcnt : Nat := 0
  deriving DecidableEq, Repr

/-- A place in a copy: its array, the run of it, and the byte of the run. -/
structure Place where
  leg : Nat := 0
  run : Nat := 0
  off : Nat := 0
  deriving DecidableEq, Repr

/-- Source bytes that have been asked for, with what has come. -/
structure CPiece where
  id : Nat
  src : Place
  n : Nat
  data : Option Nat := none
  deriving DecidableEq, Repr

/-- A copy channel (R257, R258): its job, its progress, and the result of its last copy. `pc` is the instruction,
`startAcc` the first access of the core issued after it, `rd` and `wr` the next places to read and to write, `owed`
the arrays whose counter packet is due, `runs` the elements of the runs performed whole and `spans` the bytes performed
of the others; `worst` is the highest status that the credits of a multicast have brought. `leaves` marks one whose channel its group gives
back when the copy ends (R128, R129). -/
structure Chan where
  busy : Bool := false
  leaves : Bool := false
  ended : Bool := true
  started : Bool := false
  uid : Nat := 0
  grp : Nat := 0
  key : Nat := 0
  pc : Word := 0
  kind : CKind := .cpy
  shape : Shape := {}
  legs : List Leg := []
  sspace : Nat := 0
  dspace : Nat := 0
  stream : Nat := 0
  scope : Nat := 0
  tree : Nat := 0
  esize : Nat := 0
  feed : Option Nat := none
  lfsr : Nat := 0
  startAcc : Nat := 0
  tdec : Tab Nat := []
  rd : Place := {}
  wr : Place := {}
  pieces : List CPiece := []
  ids : Nat := 0
  owed : List Nat := []
  runs : Nat := 0
  spans : List (Place × Nat) := []
  status : Nat := 0
  worst : Nat := 0
  flags : Nat := 0
  failAddr : Nat := 0
  firstSeq : Option Nat := none
  cntref : Bool := false
  deriving DecidableEq, Repr

/-- What an outstanding operation of a core waits for (R282, R291). -/
inductive OKind where
  /-- INVOKE, INVOKET (destination), INVOKEP -/
  | invoke | invoket (d : Nat) | invokep
  /-- RLD or an atomic: destination and bytes -/
  | rld (d : Option Nat) (n : Nat)
  /-- RST, NST or an MCST replica -/
  | rst
  /-- HARRIVE.remote (destination) and HWAIT.remote -/
  | harrive (d : Option Nat)
  | hwait
  /-- a packet of copy channel ch: the read of a piece, a write of n bytes from a place of a run, the last one of its
  array or not, a counter packet, or a multicast tile -/
  | copyRead (ch id : Nat) | copyWrite (ch : Nat) (dst : Place) (n : Nat) (last : Bool) | copyCount (ch : Nat)
  | copyTile (ch : Nat) (dst : Place) (n : Nat)
  deriving DecidableEq, Repr

/-- An outstanding operation: its sequence number, its context, its group, its packet, retries made (all, and those
after NACK-FULL), and when the next retry is due (R293). `acq` marks a write whose strand waits for its answer, `born` is the cycle in which its
instruction issued, `dead` marks one whose strand or group was terminated: its answer is discarded. -/
structure Outst where
  seq : Nat
  key : Nat := 0
  grp : Nat := 0
  uid : Nat := 0
  kind : OKind
  pkt : Packet
  pc : Word := 0
  acq : Bool := false
  born : Nat := 0
  tries : Nat := 0
  full : Nat := 0
  due : Option Nat := none
  dead : Bool := false
  deriving DecidableEq, Repr

/-- A packet in the injection buffer (R283): its serial number, whether it is locally complete, the
payload reads it waits for (R297), and its strand. -/
structure Inj where
  id : Nat
  pkt : Packet
  done : Bool := false
  reads : Bool := false
  key : Option Nat := none
  ready : Nat := 0
  deriving DecidableEq, Repr

/-- A trap record of a slot (R381), the slot 15 + 1 standing for STOP; `fatal` when TRAP_VEC.EN was 0
when it was taken (R383), `fresh` in the cycle in which it was taken (R381). -/
structure TrapRec where
  slot : Nat
  grp : Nat := 0
  idx : Nat := 0
  val : TrapVal
  fatal : Bool := false
  fresh : Bool := true
  deriving DecidableEq, Repr

/-- The states of the supervisor context (R380). -/
inductive SupState where
  | idle | running | halted
  deriving DecidableEq, Repr

/-- The supervisor context (R380) with the presented record and a double trap not yet taken (R384). -/
structure Sup where
  st : SupState := .idle
  ctx : Ctx := {}
  yieldTo : Nat := 0
  present : Option TrapRec := none
  double : Option TrapVal := none
  deriving DecidableEq, Repr

/-- The states of a core for switching (R405). -/
inductive EvState where
  | run | stopping | stopped | saving | idle | restoring
  deriving DecidableEq, Repr

/-- Eviction (R403 to R414): the state, the management core's rim site that commanded it, the image
area, when STOPPED began, the cycle in which the STOP reached the core and the time that its site read then, the answers lost, and the image transfers left. -/
structure Evict where
  st : EvState := .run
  mgr : Nat := 0
  area : Word := 0
  since : Nat := 0
  stopAt : Option Nat := none
  arrived : Nat := 0
  lost : List Outst := []
  lostAns : Nat := 0
  failed : Bool := false
  deriving DecidableEq, Repr

/-- An operation of a reduction tree at a core (R368 to R370): `count` is how many the core had issued on the tree
with it (its epoch modulo 256), `sent` the blocks or bytes sent, `delivered` whether its delivery is complete. -/
structure RedOp where
  tree : Nat
  count : Nat
  key : Nat := 0
  grp : Nat := 0
  uid : Nat := 0
  bcast : Bool := false
  src : Nat := 0
  dst : Nat := 0
  sf : Nat := 0
  df : Nat := 0
  rop : Nat := 0
  all : Bool := false
  elems : Nat := 0
  cnt : Nat := 0
  stream : Nat := 0
  startAcc : Nat := 0
  sent : Nat := 0
  sentAll : Bool := false
  flags : Nat := 0
  mismatch : Bool := false
  access : Bool := false
  cntref : Bool := false
  receives : Bool := false
  delivered : Bool := false
  deriving DecidableEq, Repr

/-- A packet that an instruction has built at issue (R279, R297): what the core keeps for it until its answer, the register
and value written when it is locally complete, whether its strand then waits for the answer, the stream and address of the
local read that gives its payload, and the strand's group and instruction. -/
-- DEDUCED: log 20.
structure PendSend where
  pkt : Packet
  out : Option OKind := none
  dst : Option (Nat × Word) := none
  rep : Bool := false
  reads : Option (Nat × Nat) := none
  grp : Nat := 0
  uid : Nat := 0
  pc : Word := 0
  born : Nat := 0
  deriving DecidableEq, Repr

/-- What a strand does when the wait before it is over: it sends a packet (R283), it arrives at a local hasp with its token
register (R349), or it checks and sends the replicas of an MCST: the packet, the bytes of the value, the entries of the list, the class of
its release half, and the list once it has been read (R327). -/
-- DEDUCED: log 20.
inductive Pend where
  | send (p : PendSend)
  | arrive (d h : Nat) (drop : Bool)
  | mcst (p : PendSend) (size n : Nat) (rel : Option Nat) (v : Option Nat)
  deriving DecidableEq, Repr

/-- What the core keeps for a strand by group number and strand index (R104), wherever its registers
are: what it waits for, the state a frame restores (R111), the received message it holds (R289), the
deferred remote fault (R320) with the writes it covers as (stream, home, cycle in which the instruction issued), an undelivered machine check
(R169), a trap that its wait has ended with or that came while it was being saved, its
registers of bad parity in a frame (R388), the length of the instruction that waits, and what it does
once its wait is over; the address of the instruction whose acquire half has delivered a deferred fault, which repeats only its wait
(R320), and the cycle in which that instruction issued; the copy (R257) or the reduction (R368) it has read and waits to start; and, by feed register, the copies it is bound to whose
channels others have taken since (R175). -/
structure Strand where
  wait : Wait := .none
  saved : Option Nat := none
  heldCopy : Option Nat := none
  deferred : Option TrapVal := none
  deferredOf : List (Nat × Nat × Nat) := []
  mcheck : Option TrapVal := none
  trapOnResume : Option TrapVal := none
  parity : List (Nat × Nat) := []
  wlen : Nat := 4
  pend : Option Pend := none
  acqAt : Option Word := none
  acqBorn : Nat := 0
  job : Option Chan := none
  pastFeeds : Tab Chan := []
  redJob : Option RedOp := none
  deriving DecidableEq, Repr

/-- An ordered contribution held for its turn (R272), with its copy in the mailbox. -/
structure HeldOrd where
  pkt : Packet
  copy : Nat
  deriving DecidableEq, Repr

/-- A packet whose lines a core is writing or reading, or whose flits it is depositing, one by one in no fixed order (R331): those
left, what has been read or the flags raised, the elements updated, the copy that the flits are placed in, and the entry of what it
launches. -/
structure Landing where
  pkt : Packet
  left : List Nat := []
  acc : Nat := 0
  elems : Nat := 0
  copy : Option Nat := none
  entry : Option Entry := none
  deriving DecidableEq, Repr

/-- A core (R18): the local store with its uncorrectable and correctable words by physical offset (R169),
the page map (`found` are correctable words a read has met), the cycle of the last issue and the slot that issued then (16 for the supervisor), the decode, steering and handler state, strands, groups, queues, mailbox, counters, hasps,
engines, outstanding operations and buffers, the hasps and counters that this cycle has acted on and whether the router has made
an arrival in it (R294, R343), the lines of frames that the hardware has written in this cycle, and those
that stores have written in it, as they were (R111), and the uncorrectable words that reads of frames have met, still to be counted (R169). Registers that R393 numbers stand in `Site.regs`. -/
structure Core where
  mem : Mem := []
  bad : List Nat := []
  correctable : List Nat := []
  found : List Nat := []
  scrub : Nat := 0
  pmap : Tab Word := []
  pmapNext : List (Nat × Word × Nat) := []
  tdec : Tab Nat := []
  tdecNext : List (Nat × Nat) := []
  steer : Tab Word := []
  slots : Tab Slot := []
  rr : Tab Nat := []
  lastIssue : Nat := 0
  issued : Nat := 16
  sup : Sup := {}
  strands : Tab Strand := []
  groups : Tab Group := []
  pool : Tab Word := []
  bankOf : Tab Nat := []
  uids : Nat := 0
  invq : Tab (List QEntry) := []
  mboxPages : List Nat := []
  mboxPtr : Nat := 0
  copies : Tab Copy := []
  copyIds : Nat := 0
  mq : List MqEntry := []
  recvOrder : Nat := 0
  tum : Tumbler := {}
  restores : List (Nat × Nat) := []
  counters : Tab Counter := []
  hasps : Tab Hasp := []
  rwaits : List (Packet × Nat × Nat) := []
  tensor : Tensor := {}
  chans : Tab Chan := []
  ordHeld : List HeldOrd := []
  ordReady : List Packet := []
  landing : Option Landing := none
  redOps : List RedOp := []
  epochs : Tab Nat := []
  seq : Nat := 0
  outs : List Outst := []
  inj0 : List Inj := []
  inj1 : List Packet := []
  injIds : Nat := 0
  allowQ : List Nat := []
  arrivals : List Packet := []
  accesses : List Access := []
  accIds : Nat := 0
  scalars : List Pending := []
  vectors : List VPending := []
  traps : List TrapRec := []
  haspAt : Tab Nat := []
  routed : Bool := false
  collTold : List (Nat × Nat × Nat × Nat) := []
  countedBy : List Nat := []
  ueLate : List Nat := []
  frameLines : List Nat := []
  stored : List FetchLine := []
  evict : Evict := {}
  deriving DecidableEq, Repr

/-- An entry of a path record (R64): a name and the path of its last packet, a target with a first hop,
or flooded when `path` is none. -/
structure PathEntry where
  dest : Nat
  path : Option (Nat × Nat)
  deriving DecidableEq, Repr

/-- The path record of a port and virtual channel: most recently used first, the probe outstanding with the
DEST whose entry it is about and its serial number, and the packets it holds (R64). -/
structure PathRec where
  entries : List PathEntry := []
  probe : Option (Nat × Nat) := none
  held : List Packet := []
  deriving DecidableEq, Repr

/-- A reduction block with its header facts (R357, R362); `absent` marks one that carries no contribution. -/
structure RBlock where
  e : Nat := 0
  mu : Nat := 0
  m : List Int := []
  flags : Nat := 0
  mismatch : Bool := false
  absent : Bool := false
  blk : Nat := 0
  nblk : Nat := 0
  epoch : Nat := 0
  fmt : Nat := 0
  rop : Nat := 0
  all : Bool := false
  deriving DecidableEq, Repr

/-- A reduction tree at a router (R356, R360 to R363): the blocks received by input (0 local, 1 north, 2 east, 3
south, 4 west, 5 edge) and those still owed by inputs that did not match, the reduction in progress by the
header of its first input with its block, the next input and the fold so far, the inputs that do not match, the
exponents RENORM recorded by epoch and block, the epochs sent, the results awaited from above, the inputs that supply nothing any
more and whether the parent has been told that none does (R363), and whether a raw broadcast is passing. -/
structure TreeNode where
  ins : Tab (List RBlock) := []
  owe : Tab Nat := []
  head : Option RBlock := none
  blk : Nat := 0
  pos : Nat := 0
  acc : Option RBlock := none
  mism : List Nat := []
  renorm : List (Nat × Nat × Nat) := []
  sentOps : List Nat := []
  waits : Nat := 0
  mute : List Nat := []
  muted : Bool := false
  raw : Bool := false
  deriving DecidableEq, Repr

/-- A multicast tile at a member that waits for credits (R273): its tree, sequence number and channel's packet, the
lines still to be written here (R331), the children still to credit it, the highest status found, whether this is the root, and the counter still to be
decremented here with its attempts and the cycle of the next one. -/
structure TileWait where
  tree : Nat
  pkt : Packet
  lines : List Nat := []
  left : Nat
  status : Nat := 0
  root : Bool := false
  counter : Nat := 0
  tries : Nat := 0
  due : Nat := 0
  deriving DecidableEq, Repr

/-- A router (R12, R56 to R74): packets that have entered it and not yet been handled, with the port each
enters (0 north, 1 east, 2 south, 3 west, 4 local, 5 edge, 6 the router itself) and the first cycle in which its header can be there (R24), the name table by 8 × set + way, its path
records by 4 × port + virtual channel, its part of the reduction trees the multicast tiles that wait there and the copies of which it has refused a tile (R268), its probe serials, and the name and park it holds for
an evicted core (R406). Of the cycle at hand: the name-table entries that it has changed, as they stood at its start and by the
rank of what changed them (R63), whether a tick falls in it, and the ports, plus one, up to which guards have dropped
packets (R415); `ticked` stands for a tick of the cycle before. -/
structure Router where
  inq : List (Nat × Nat × Packet) := []
  nt : Tab Word := []
  rtree : Tab Word := []
  paths : Tab PathRec := []
  trees : Tab TreeNode := []
  tiles : List TileWait := []
  tileBad : List (Nat × Nat) := []
  probes : Nat := 0
  hold : Option (Nat × Nat) := none
  ntOld : Tab Word := []
  ntRank : Tab Nat := []
  ticking : Bool := false
  ticked : Bool := false
  dropped : Nat := 0
  deriving DecidableEq, Repr

/-- Whether a site has joined, and as what (R13, R438). -/
inductive Life where
  | unjoined | live | transit | hole
  deriving DecidableEq, Repr

/-- A site: a core and its router, with the system registers of R393 by number, each at its reset value
while it is not listed. -/
structure Site where
  id : Nat := 0
  life : Life := .unjoined
  dead : Bool := false
  regs : Tab Word := []
  core : Core := {}
  router : Router := {}
  deriving DecidableEq, Repr

/-- What a management core is doing (R390, R398, R444). -/
inductive MgmtState where
  | stopped | running | halted
  deriving DecidableEq, Repr

/-- What a management core waits for: nothing, an interrupt, its accesses (FENCE), or the answer to a
window or port operation with the register to write (R391, R262); or its wait has ended in this cycle. -/
inductive MWait where
  | none | wfi | fence (mask kinds : Nat) | window (d : Option Nat) | port (d : Option Nat) | over
  deriving DecidableEq, Repr

/-- A management core (R390 to R392): its context, private store, registers by number (the trap registers
of R389 and the registers of the 0x700 group that each has alone) and accesses. -/
-- DESIGN CHOICE: log 2.
structure Mgmt where
  st : MgmtState := .stopped
  ctx : Ctx := {}
  wait : MWait := .none
  store : Mem := []
  bad : List Nat := []
  correctable : List Nat := []
  found : List Nat := []
  mcheck : Option TrapVal := none
  regs : Tab Word := []
  lastIssue : Nat := 0
  yieldTo : Nat := 0
  accesses : List Access := []
  accIds : Nat := 0
  scalars : List Pending := []
  vectors : List VPending := []
  arrivals : List Packet := []
  echoes : Nat := 0
  deriving DecidableEq, Repr

/-- A power region (R420 to R429): PWR_CTL, its measurements, levels and state, with the level in force
(R421), the armed release step, the samples of the current step, and the steps since a low sample. -/
-- DESIGN CHOICE: log 126.
structure Region where
  ctl : Word := 0
  imeas : Nat := 0
  volt : Nat := 0
  stepT : Nat := 0
  droopT : Nat := 0
  trip : Bool := false
  armed : Option Nat := none
  fail : Bool := false
  dead : Bool := false
  level : Nat := 0
  ceiling : Nat := 128
  samples : List Nat := []
  dip : Bool := false
  clean : Nat := 0
  deriving DecidableEq, Repr

/-- A cached translation (R261, R262): park, level of the leaf, virtual page at that level, page, and
permissions. -/
structure Cached where
  park : Nat
  level : Nat
  vpn : Nat
  ppn : Nat
  r : Bool
  w : Bool
  deriving DecidableEq, Repr

/-- A request a port has translated and not yet answered (R261): its address, the aligned words left to perform (R331) with what those
before them have read and whether one was uncorrectable, and whether an invalidation waits for it. -/
structure PortReq where
  pkt : Packet
  phys : Nat
  left : List Nat := []
  acc : Nat := 0
  bad : Bool := false
  old : Bool := false
  deriving DecidableEq, Repr

/-- A memory or host port (R260 to R262): whether it is present, its name, the memory behind it, the roots
of the parks, the translations it holds, its requests, invalidations that wait for their users, and
the packets that have reached it. -/
-- DESIGN CHOICE: log 105.
structure Port where
  present : Bool := false
  name : Nat := 0
  mem : Mem := []
  bad : List Nat := []
  roots : Tab Word := []
  cache : List Cached := []
  reqs : List PortReq := []
  invals : List (Nat × Packet) := []
  arrivals : List Packet := []
  deriving DecidableEq, Repr

/-- A packet of an ingress queue that has been sent or is to be sent (R49). -/
structure IngOut where
  pkt : Packet
  sent : Bool := false
  tries : Nat := 0
  full : Nat := 0
  due : Option Nat := none
  deriving DecidableEq, Repr

/-- A host-port ingress queue (R43 to R51): its binding, interrupt enable, status, held lines by sequence
number, the bytes of the open record, the delta-coded fields, its packet counter and packets, the cycle in which
the timer of each held FINAL line expires, and the answers that have reached it. -/
structure Ingress where
  bind : Word := 0x10003E8020000000
  irqEn : Bool := true
  nextLseq : Nat := 0
  halted : Bool := false
  cause : Nat := 0
  records : Nat := 0
  held : Tab (BitVec 512) := []
  isOpen : Bool := false
  bytes : List Byte := []
  fields : Tab Nat := []
  seq : Nat := 0
  outs : List IngOut := []
  timers : Tab Nat := []
  arrivals : List Packet := []
  deriving DecidableEq, Repr

/-- A bridge unit of one side of a bridge link (R73, R74): packets going out, and packets come in with the first cycle in which each
can have crossed. -/
structure Bridge where
  present : Bool := false
  out : List Packet := []
  inn : List (Nat × Packet) := []
  deriving DecidableEq, Repr

/-- A core image saved by an eviction (R410): the unit state for which the image's bytes stand, under the serial number
that fixes them. -/
structure Image where
  serial : Nat
  core : Core
  regs : Tab Word
  deriving DecidableEq, Repr

/-- The tests of a site as SITE_JOIN gives them (R438): its outcome (0 live, 1 transit-only, 2 a hole), the links and the attachment that
pass, the spare wires of its links, and the ACTION that failures are logged with. -/
structure SiteTest where
  sid : Nat
  outcome : Nat := 0
  links : Nat := 0
  attach : Bool := false
  spares : List Nat := []
  action : Nat := 0
  deriving DecidableEq, Repr

/-- A module: what its flash keeps (BOOT_CFG, the boot log, life counters, which firmware slot is active and the two images),
the BOOT_CFG of the last start and the log as that start read it, the tests of a region that is to join, the events not yet added to the life counters, the progress of bring-up (R438 to R447), the
registers all four management cores share (R422, R442) by number, sensor readings by field, the unit states that eviction
images stand for, and the ingress interrupts (by port) and SPDM answers that its host ports have given. -/
-- DESIGN CHOICE: log 133.
structure Module where
  present : Bool := false
  started : Bool := false
  regs : Tab Word := []
  bootCfg : Word := 0
  cfg : Word := 0
  log : List Word := []
  startLog : List Word := []
  tests : List SiteTest := []
  lives : Tab Nat := []
  pending : Tab Nat := []
  slotActive : Nat := 0
  images : Tab Mem := []
  temps : Tab Nat := []
  alerts : List Nat := []
  cores : List Image := []
  serials : Nat := 0
  irqs : List Nat := []
  spdm : List Nat := []
  joined : Nat := 0
  settled : Nat := 0
  logged : Nat := 0
  full : Bool := false
  deriving DecidableEq, Repr

/-- An operation or event with the event's arguments. -/
structure Op where
  instr : Instr
  arg : List Nat := []
  deriving DecidableEq, Repr

/-- What the outside world does next: an event that it causes, an error in a stored word (site, physical
offset, whether correctable), a parity error of a register (site, context, file, number), a write of
host memory (port, address, byte), or a value of INGRESS_BIND that management firmware gives a queue (R43, R51). -/
-- DESIGN CHOICE: log 6.
-- DESIGN CHOICE: log 105.
inductive Input where
  | op (o : Op)
  | upset (sid phys : Nat) (correctable : Bool)
  | upsetMgmt (k addr : Nat) (correctable : Bool)
  | upsetPort (p addr : Nat)
  | parity (sid ctx file n : Nat)
  | hostWrite (p addr v : Nat)
  | bindQueue (q : Nat) (v : Word)
  deriving DecidableEq, Repr

/-- Whose instruction is at hand: a strand of a site by slot, a site's supervisor context, or a
management core (R379). -/
inductive Agent where
  | strand (sid slot : Nat)
  | sup (sid : Nat)
  | mgmt (k : Nat)
  deriving DecidableEq, Repr

/-- Why the machine stops. -/
inductive Fault where
  /-- RESTORE_COMPLETE reads an image whose unit-state region is not one that a save wrote: the manual
  does not define the restored behaviour (R410). Raised by restoreComplete only. Safe. -/
  | imageChanged
  deriving DecidableEq, Repr

/-- Why an operation is refused. -/
inductive Refusal where
  /-- the operation has no meaning in this model yet; raised by the dispatch only. Safe. -/
  | notModelled (mnemonic : String)
  deriving DecidableEq, Repr

/-- What may come next: an event, the issue of an agent's next instruction, the start of a safety test
(R120) or of a frame save (R109) on a core, the end of a wait whose condition holds (R104), or a step of a firmware collective that
a group of a core runs (R367). -/
inductive Due where
  | op (o : Op)
  | issue (a : Agent)
  | test (sid : Nat)
  | save (sid : Nat)
  | wake (sid key : Nat)
  | collective (sid g : Nat)
  deriving DecidableEq, Repr

/-- The whole machine: wafer time (R353), the agent or the event arguments of the operation at hand, the
model's counter of free choices, the events due in this cycle, what the outside world does next, and
every unit of the domain. -/
structure State where
  time : Nat := 0
  cur : Agent := .mgmt 0
  arg : List Nat := []
  picks : Nat := 0
  agenda : List Due := []
  inputs : List Input := []
  sites : Tab Site := []
  mgmts : Tab Mgmt := []
  regions : Tab Region := []
  ports : Tab Port := []
  ingress : Tab Ingress := []
  bridges : Tab Bridge := []
  modules : Tab Module := []
  deriving DecidableEq, Repr

/-- The machine right after reset, before bring-up: no site has joined, the management cores stand still,
every register has its reset value, no memory lists a byte, and nothing has been asked of it. -/
def State.reset : State := {}

end Sys2Proof.Machine
end

