-- ==== Sys2Proof/Config.lean ====
section
/-! DEFINITION. What the manual leaves open, as constants without a body: nothing can be proved of their
values. Each is named in a row of notes/assumptions. -/

namespace Sys2Proof.Config

open Sys2Proof.Machine (Mem)

/-- A free choice among the events that may happen next, by the number of choices made before: the manual
fixes no relative speed of cores, banks, engines and links (R165, R261). -/
opaque pick : Nat → Nat

/-- The mean current, in amperes, that the regulator of a region samples at a wafer time (R424). -/
opaque amps : Nat → Nat → Nat

/-- The core-rail voltage, in millivolts, of a region at a wafer time (R426). -/
opaque millivolts : Nat → Nat → Nat

/-- The sample of a module's field sensor at a wafer time (R427). -/
opaque temperature : Nat → Nat → Nat → Nat

/-- Whether a firmware image's signature verifies against the fused key (R444). -/
-- DESIGN CHOICE: log 138.
opaque signatureVerifies : Mem → Bool

/-- The signed answer of a module to an SPDM request on a host port, from what it measures: the firmware slots, the reserved pages of
each live core with the core's park, and the boot log (R445). -/
-- DESIGN CHOICE: log 138.
opaque spdmAnswer : Nat → Nat → Nat → List (Nat × Mem) → List (Nat × Mem) → List (BitVec 64) → Nat

/-- The version and the measurement digest of a firmware image (R447). -/
opaque firmwareVersion : Mem → Nat
opaque firmwareDigest : Mem → Nat

/-- The unit-state VERSION of eviction images (R410, R447). -/
opaque unitVersion : Nat

/-- The bytes of the unit-state region of the image with a serial number (R410). -/
opaque unitStateByte : Nat → Nat → BitVec 8

/-- The core parts of the names that management firmware gives the memory and host ports (R260, R447). -/
opaque portName : Nat
opaque hostName : Nat

/-- Whether a wafer's module was sold under the ordering code KSM-2B, and the live cores that its code guarantees (R2). -/
-- DESIGN CHOICE: log 106.
opaque isKsm2B : Nat → Bool
-- DESIGN CHOICE: log 106.
def guaranteedLive (w : Nat) : Nat := if isKsm2B w then 34560 else 35840

/-- How far the wafer time read in a field runs ahead on its wafer, and on a wafer in its domain (R353):
used modulo 5 and modulo 61. -/
-- DESIGN CHOICE: log 11.
opaque fieldSkew : Nat → Nat
opaque waferSkew : Nat → Nat

/-- The data a packet carries for an uncorrectable word that SENDL read (R169, R297), by time and access. -/
-- DESIGN CHOICE: log 51.
-- DESIGN CHOICE: log 90.
opaque badData : Nat → Nat → Nat

/-- The entry an encoding into T8 or T4 takes between two neighbours that the rule does not tell apart: two
entries of one magnitude, or a NaN or infinite neighbour (R193). -/
-- DESIGN CHOICE: log 28.
opaque tableTie : Nat → Nat → Bool

/-- The version field of a capability-list entry (R447), the entry address of a firmware collective in units of 4 bytes (R367), and
the boot-log entry that records a shortfall of a number of live cores on a wafer (R3). -/
opaque capVersion : Nat → BitVec 16
opaque firmwarePc : Nat → BitVec 19
-- DESIGN CHOICE: log 156.
opaque shortfallEntry : Nat → Nat → BitVec 28

/-- The sign of the NaN of a chunk's sum whose terms hold NaNs of both signs, listed with the accumulator's first (R182,
R203). -/
-- DESIGN CHOICE: log 154.
opaque mixedNan : List Bool → Bool

/-- What a reduction block holds whose every input is absent (R363), by router, epoch and block. -/
opaque absentBlock : Nat → Nat → Nat → Nat

/-- What TDEC_DATA reads for an index above 15 of the T4 table, which has no such entry (R192). -/
-- DESIGN CHOICE: log 29.
opaque tdecBeyond : Nat → BitVec 19

end Sys2Proof.Config
end

