-- ==== Sys2Proof/Machine/Tab.lean ====
section
/-! DEFINITION. Sparse tables and memories: lookup, update and erasure. -/

namespace Sys2Proof.Machine

/-- The value a table lists for a key. -/
def tget? {α : Type} : Tab α → Nat → Option α
  | [], _ => none
  | (k, v) :: t, n => if n = k then some v else tget? t n

/-- The value of a key, d when the table lists none. -/
def tget {α : Type} (d : α) (t : Tab α) (n : Nat) : α := (tget? t n).getD d

/-- A table with the value of a key replaced, keys kept in rising order. -/
def tset {α : Type} : Tab α → Nat → α → Tab α
  | [], n, x => [(n, x)]
  | (k, v) :: t, n, x =>
    if n < k then (n, x) :: (k, v) :: t
    else if n = k then (k, x) :: t
    else (k, v) :: tset t n x

/-- A table without a key. -/
def terase {α : Type} (t : Tab α) (n : Nat) : Tab α := t.filter fun e => e.1 != n

/-- A table with a key's value, or d, changed by f. -/
def tmod {α : Type} (d : α) (t : Tab α) (n : Nat) (f : α → α) : Tab α := tset t n (f (tget d t n))

/-- The byte at an address; an unlisted byte reads as zero. -/
-- DESIGN CHOICE: log 1.
def mget (m : Mem) (a : Nat) : Byte := tget 0 m a

/-- A memory with one byte written; a zero is not listed. -/
def mset (m : Mem) (a : Nat) (v : Byte) : Mem := if v = 0 then terase m a else tset m a v

/-- n bytes from an address as a number (R6). -/
def mread (m : Mem) : Nat → Nat → Nat
  | _, 0 => 0
  | a, n + 1 => (mget m a).toNat + 256 * mread m (a + 1) n

/-- n bytes of x written from an address (R6). -/
def mwrite (m : Mem) : Nat → Nat → Nat → Mem
  | _, 0, _ => m
  | a, n + 1, x => mwrite (mset m a (BitVec.ofNat 8 x)) (a + 1) n (x / 256)

/-- A memory with the bytes from a to a + n - 1 zero. -/
def mzero (m : Mem) (a n : Nat) : Mem := m.filter fun c => !(decide (a ≤ c.1) && decide (c.1 < a + n))

/-- Addresses strictly rising from a lower bound and no zero byte listed. -/
def wfFrom : Nat → Mem → Bool
  | _, [] => true
  | lo, (a, v) :: m => decide (lo ≤ a) && (v != 0) && wfFrom (a + 1) m

/-- The canonical form of a memory: addresses strictly rising, no entry equal to what an unlisted
address reads as. -/
def memWf (m : Mem) : Bool := wfFrom 0 m

end Sys2Proof.Machine
end

