-- ==== Sys2Proof/Machine/SysMap.lean ====
section
/-! DEFINITION. The system register map (R393): numbers, access by level, RW and W1C bits, reset values. -/

namespace Sys2Proof.Machine

/-- Sites of one wafer (R12). -/
def sitesPerWafer : Nat := 36864
/-- Coordinates and wafer of a site number. -/
def siteX (sid : Nat) : Nat := sid % sitesPerWafer % 192
def siteY (sid : Nat) : Nat := sid % sitesPerWafer / 192
def siteW (sid : Nat) : Nat := sid / sitesPerWafer
/-- The site number of a position. -/
def siteAt (w x y : Nat) : Nat := w * sitesPerWafer + y * 192 + x
/-- Reticle field, cluster and power region of a site on its wafer (R15). -/
def fieldOf (sid : Nat) : Nat := siteY sid / 16 * 12 + siteX sid / 16
def clusterOf (sid : Nat) : Nat := siteY sid / 8 * 24 + siteX sid / 8
def regionOf (sid : Nat) : Nat := siteY sid / 48 * 4 + siteX sid / 48

/-- SITE_ID (R14). -/
def siteIdReg (sid : Nat) : Nat :=
  siteX sid + siteY sid * 2 ^ 8 + fieldOf sid * 2 ^ 16 + regionOf sid * 2 ^ 24 +
    clusterOf sid * 2 ^ 28 + siteW sid % 4 * 2 ^ 38

/-- The null name's core part (R52). -/
def nullCore : Nat := 0x3FFFF

/-- Whether a name is null (R52). -/
def isNull (name : Nat) : Bool := name % 2 ^ 18 == nullCore

/-- Access of a level to a register: none (PRIVILEGE), read, or read and write (R393). -/
inductive Access3 where
  | no | ro | rw
  deriving DecidableEq, Repr

/-- Access of U, S and M to a site's register numbers; none for a number that is not in the map (R393). -/
def siteRegAccess (n : Nat) : Option (Access3 × Access3 × Access3) :=
  if n == 0x001 || n == 0x002 || n == 0x003 then some (.rw, .rw, .rw)
  else if 0x010 ≤ n && n ≤ 0x019 then some (.rw, .rw, .no)
  else if 0x020 ≤ n && n ≤ 0x024 then some (.no, .rw, .rw)
  else if n == 0x040 || n == 0x048 then some (.ro, .ro, .ro)
  else if n == 0x042 || n == 0x043 || n == 0x076 then some (.no, .ro, .ro)
  else if n == 0x060 || n == 0x073 || n == 0x074 then some (.no, .ro, .rw)
  else if n == 0x064 then some (.ro, .rw, .rw)
  else if n == 0x041 || (0x044 ≤ n && n ≤ 0x047) then some (.no, .rw, .rw)
  else if 0x050 ≤ n && n ≤ 0x055 then some (.no, .rw, .rw)
  else if 0x058 ≤ n && n ≤ 0x05B then some (.no, .rw, .rw)
  else if n == 0x061 || n == 0x062 || n == 0x063 || n == 0x065 || n == 0x066 then some (.no, .rw, .rw)
  else if n == 0x070 || n == 0x071 || n == 0x072 || n == 0x075 then some (.no, .rw, .rw)
  else if 0x077 ≤ n && n ≤ 0x082 then some (.no, .rw, .rw)
  else if n == 0x090 || n == 0x091 then some (.no, .no, .rw)
  else if 0x100 ≤ n && n ≤ 0x13F then some (.no, .rw, .no)
  else if n == 0x148 || n == 0x149 || n == 0x14A then some (.no, .rw, .no)
  else if 0x150 ≤ n && n ≤ 0x159 then some (.no, .rw, .no)
  else none

/-- Numbers a management core has beside the remote window (R393). -/
def mgmtRegExists (n : Nat) : Bool :=
  (decide (0x001 ≤ n) && decide (n ≤ 0x003)) || (decide (0x020 ≤ n) && decide (n ≤ 0x024)) ||
  (decide (0x700 ≤ n) && decide (n ≤ 0x703)) || (decide (0x710 ≤ n) && decide (n ≤ 0x719)) ||
  (decide (0x720 ≤ n) && decide (n ≤ 0x723)) || (decide (0x730 ≤ n) && decide (n ≤ 0x732)) ||
  (decide (0x7E0 ≤ n) && decide (n ≤ 0x7E2)) || n == 0x7E8

/-- The RW bits of a register that a write replaces (R7): registers whose own rules treat a write apart list
the bits that SYSSET and SYSCLR act on. -/
def rwMask (n : Nat) : Nat :=
  match n with
  | 0x001 => maskN 5 0
  | 0x002 => maskN 2 0 + maskN 9 4
  | 0x003 => maskN 31 0
  | 0x020 => maskN 23 23
  | 0x021 => maskN 63 0
  | 0x023 => maskN 22 2
  | 0x024 => maskN 63 0
  | 0x041 => maskN 17 0
  | 0x044 => maskN 13 0
  | 0x045 => maskN 8 0
  | 0x046 => maskN 20 0
  | 0x047 => maskN 31 0
  | 0x050 => maskN 8 0
  | 0x051 => maskN 19 0
  | 0x052 => maskN 47 0
  | 0x054 => maskN 15 0
  | 0x055 => maskN 14 0
  | 0x058 => maskN 8 0
  | 0x059 => maskN 18 0
  | 0x05A => maskN 5 0
  | 0x05B => maskN 31 0
  | 0x060 => maskN 5 0
  | 0x061 => maskN 19 0
  | 0x062 => maskN 47 0
  | 0x063 => maskN 55 0
  | 0x064 => maskN 63 0
  | 0x065 => maskN 5 0
  | 0x070 => maskN 8 0
  | 0x071 => maskN 42 0
  | 0x072 => maskN 16 0
  | 0x073 => maskN 45 0
  | 0x074 => maskN 47 0
  | 0x075 => maskN 31 0
  | 0x077 => maskN 5 0 + maskN 13 8 + maskN 21 16 + maskN 29 24
  | 0x078 => maskN 19 0
  | 0x079 => maskN 19 0
  | 0x07A => maskN 19 0
  | 0x07B => maskN 19 0
  | 0x07C => maskN 17 0
  | 0x07D => maskN 17 0
  | 0x07E => maskN 17 0
  | 0x07F => maskN 17 0
  | 0x080 => maskN 15 0
  | 0x081 => maskN 2 0
  | 0x082 => maskN 8 0
  | 0x090 => maskN 20 3
  | 0x091 => maskN 63 0
  | 0x700 => maskN 15 0 + maskN 19 18
  | 0x701 => maskN 5 0
  | 0x710 => maskN 3 0
  | 0x711 => maskN 26 0
  | 0x714 => maskN 7 0
  | 0x716 => maskN 11 0
  | 0x718 => maskN 15 0
  | 0x720 => maskN 3 0
  | 0x722 => maskN 11 0
  | 0x730 => maskN 15 0
  | 0x731 => maskN 0 0 + maskN 51 12
  | 0x7E1 => maskN 6 0 + maskN 19 8 + maskN 51 21
  | _ => if 0x010 ≤ n ∧ n ≤ 0x019 then maskN 63 0
         else if 0x100 ≤ n ∧ n ≤ 0x13F then maskN 63 0
         else if 0x150 ≤ n ∧ n ≤ 0x159 then maskN 63 0
         else if n = 0x148 then maskN 5 0
         else if n = 0x149 then maskN 2 0 + maskN 9 4
         else if n = 0x14A then maskN 31 0 else 0

/-- The W1C bits of a register (R7). -/
def w1cMask (n : Nat) : Nat :=
  match n with
  | 0x702 => maskN 5 0
  | 0x715 => maskN 12 12
  | 0x719 => maskN 47 0
  | 0x7E8 => maskN 53 52
  | _ => 0

/-- Reset value of a site's register (the maps of each chapter). -/
-- DESIGN CHOICE: log 57.
def siteReset (sid n : Nat) : Nat :=
  match n with
  | 0x040 => siteIdReg sid
  | 0x041 => nullCore + siteW sid % 4 * 2 ^ 18
  | 0x045 => 32
  | 0x047 => 1
  | 0x048 => 0x7000
  | 0x054 => 1024
  | 0x055 => 16 * 2 ^ 9
  | 0x060 => 63
  | 0x061 => 16 + 64 * 2 ^ 8
  | 0x063 => 128 * 2 ^ 7 + 12 * 2 ^ 15 + Config.portName % 2 ^ 18 * 2 ^ 20 + Config.hostName % 2 ^ 18 * 2 ^ 38
  | 0x065 => 1
  | 0x072 => 64 + 2 ^ 16
  | 0x073 => 3 * 2 ^ 40
  | 0x077 => siteX sid / 4 + siteY sid / 4 * 2 ^ 8 + siteX sid / 4 * 2 ^ 16 + siteY sid / 4 * 2 ^ 24
  | 0x078 => nullCore
  | 0x079 => nullCore
  | 0x07A => nullCore
  | 0x07B => nullCore
  | _ => 0

/-- Reset value of a management core's own register, or of a module's register. -/
def mgmtReset (n : Nat) : Nat :=
  match n with
  | 0x716 => 760 + 920 * 2 ^ 12
  | 0x718 => 650 + 1 * 2 ^ 12
  | 0x7E1 => 64 * 2 ^ 8
  | _ => 0

/-- Reset value of PWR_CTL (R422). -/
def pwrCtlReset : Nat := 128 + 4 * 2 ^ 20

/-- Reset value of the TF19 entry of a code (R192): the integer c - 128, or c - 8 of the T4 table, whose
entries stand at 256 and above. -/
def tdecReset (c : Nat) : Nat :=
  let z : Int := if c < 256 then (c : Int) - 128 else ((c - 256 : Nat) : Int) - 8
  let a := z.natAbs
  if a = 0 then 0
  else
    let e := Nat.log2 a
    (if z < 0 then 2 ^ 18 else 0) + (127 + e) * 2 ^ 10 + (a * 2 ^ 10 / 2 ^ e - 2 ^ 10)

/-- The registers of a site that belong to its router and keep their values when its core is cleared
(R409). -/
def isRouterReg (n : Nat) : Bool :=
  n == 0x040 || n == 0x041 || (decide (0x070 ≤ n) && decide (n ≤ 0x077)) || n == 0x081 || n == 0x082

/-- The registers of a context, which the remote window refuses (R391). -/
def isContextReg (n : Nat) : Bool :=
  (decide (0x001 ≤ n) && decide (n ≤ 0x01F)) || (decide (0x100 ≤ n) && decide (n ≤ 0x15F))

end Sys2Proof.Machine
end

