-- ==== Sys2Proof/Machine/Ops.lean ====
section
/-! DEFINITION. The named operations over sites, registers, contexts, the page map and waits, and taking a
trap. -/

namespace Sys2Proof.Machine

/-- What a meaning answers. -/
abbrev Res := Host.Outcome State Fault Refusal

/-! ### Sites and their registers -/

/-- A site by number. -/
def getSite (s : State) (sid : Nat) : Site := (tget? s.sites sid).getD { id := sid }
/-- The machine with a site replaced. -/
def setSite (s : State) (sid : Nat) (x : Site) : State := { s with sites := tset s.sites sid x }
/-- The machine with a site changed. -/
def modSite (s : State) (sid : Nat) (f : Site → Site) : State := setSite s sid (f (getSite s sid))
/-- A site with its core changed. -/
def onCore (f : Core → Core) (x : Site) : Site := { x with core := f x.core }
/-- A site with its router changed. -/
def onRouter (f : Router → Router) (x : Site) : Site := { x with router := f x.router }
/-- A management core by number, and the machine with one changed. -/
def getMgmt (s : State) (k : Nat) : Mgmt := tget {} s.mgmts k
def modMgmt (s : State) (k : Nat) (f : Mgmt → Mgmt) : State := { s with mgmts := tmod {} s.mgmts k f }
/-- A module by wafer. -/
def getModule (s : State) (w : Nat) : Module := tget {} s.modules w
def modModule (s : State) (w : Nat) (f : Module → Module) : State :=
  { s with modules := tmod {} s.modules w f }
/-- A power region by number 16 × wafer + region. -/
def getRegion (s : State) (r : Nat) : Region := tget { ctl := wordN pwrCtlReset } s.regions r
def modRegion (s : State) (r : Nat) (f : Region → Region) : State :=
  { s with regions := tset s.regions r (f (getRegion s r)) }
/-- A port by number 132 × wafer + unit. -/
def getPort (s : State) (p : Nat) : Port := tget {} s.ports p
def modPort (s : State) (p : Nat) (f : Port → Port) : State := { s with ports := tmod {} s.ports p f }

/-- A site's stored system register (R393), at its reset value until it is written. -/
def reg (x : Site) (n : Nat) : Nat :=
  match tget? x.regs n with
  | some w => w.toNat
  | none => siteReset x.id n
/-- A field of a site's register. -/
def regF (x : Site) (n hi lo : Nat) : Nat := bitsN (reg x n) hi lo
/-- A site with a stored register replaced, and with one field of it replaced. -/
def setReg (x : Site) (n v : Nat) : Site := { x with regs := tset x.regs n (wordN v) }
def setRegF (x : Site) (n hi lo v : Nat) : Site := setReg x n (setBitsN (reg x n) hi lo v)

/-- A management core's own stored register. -/
def mreg (x : Mgmt) (n : Nat) : Nat :=
  match tget? x.regs n with
  | some w => w.toNat
  | none => mgmtReset n
def setMreg (x : Mgmt) (n v : Nat) : Mgmt := { x with regs := tset x.regs n (wordN v) }

/-- CORE_NAME (R53): the name the site's core bears. -/
def coreName (x : Site) : Nat := reg x 0x041 % 2 ^ 20
/-- The park of the site's core (R67). -/
def localPark (x : Site) : Nat := regF x 0x074 39 32
/-- TUMBLER_CFG.RESV_L (R118). -/
def resvL (x : Site) : Nat := regF x 0x045 8 0
/-- MSGLEN_MAX.LEN (R285). -/
def msgMax (x : Site) : Nat := regF x 0x060 5 0

/-- The wafer time a site reads (R353): the skews within a wafer stay within 4 and those between wafers
within 64. -/
-- DESIGN CHOICE: log 11.
def siteTime (t sid : Nat) : Nat :=
  t + Config.fieldSkew (siteW sid * 144 + fieldOf sid) % 5 + Config.waferSkew (siteW sid) % 61

/-! ### Slots, strands and groups -/

/-- The key of the supervisor context among the strands. -/
def supKey : Nat := 256
def slotOf (c : Core) (k : Nat) : Slot := tget {} c.slots k
def modSlot (c : Core) (k : Nat) (f : Slot → Slot) : Core := { c with slots := tmod {} c.slots k f }
def strandOf (c : Core) (key : Nat) : Strand := tget {} c.strands key
def modStrand (c : Core) (key : Nat) (f : Strand → Strand) : Core :=
  { c with strands := tmod {} c.strands key f }
def slotKey (sl : Slot) : Nat := 16 * sl.grp + sl.idx
/-- The slot a strand stands in. -/
def findSlot (c : Core) (key : Nat) : Option Nat :=
  (c.slots.find? fun e => e.2.st != .free && slotKey e.2 == key).map fun e => e.1
def groupOf (c : Core) (g : Nat) : Option Group := tget? c.groups g
def modGroup (c : Core) (g : Nat) (f : Group → Group) : Core :=
  match tget? c.groups g with
  | some x => { c with groups := tset c.groups g (f x) }
  | none => c
/-- The free slots, lowest first. -/
def freeSlots (c : Core) : List Nat := (upto 16).filter fun k => (slotOf c k).st == .free

/-! ### Registers of a context (R81, R121) -/

/-- A general register of a context: g0 reads zero, a register of an unmapped bank reads 0. -/
def gGet (c : Core) (x : Ctx) (r : Nat) : Word :=
  if r = 0 then 0
  else if r < 16 then tget 0 x.g r
  else match tget? x.banks (r / 8) with
    | some b => tget 0 c.pool (8 * b + r % 8)
    | none => 0
/-- Whether a general register lies in a mapped bank. -/
-- DEDUCED: log 165.
def gMapped (x : Ctx) (r : Nat) : Bool := decide (r < 16) || (tget? x.banks (r / 8)).isSome
/-- A resident general register written; a write to g0 is discarded. -/
def setResident (x : Ctx) (r : Nat) (v : Word) : Ctx :=
  if r = 0 then x
  else { x with g := tset x.g r v, parity := x.parity.filter fun e => e != (0, r) }
def vGet (x : Ctx) (r : Nat) : Vec := tget 0 x.v r
def vSet (x : Ctx) (r : Nat) (v : Vec) : Ctx :=
  { x with v := tset x.v r v, parity := x.parity.filter fun e => e != (1, r) }
/-- A mask: q0 reads as all ones (R205). -/
def qGet (x : Ctx) (r : Nat) : Mask := if r = 0 then BitVec.ofNat 128 (2 ^ 128 - 1) else tget 0 x.q r
def qSet (x : Ctx) (r : Nat) (v : Mask) : Ctx :=
  if r = 0 then x else { x with q := tset x.q r v, parity := x.parity.filter fun e => e != (2, r) }
def mGet (x : Ctx) (r : Nat) : Word := tget 0 x.m r
def mSet (x : Ctx) (r : Nat) (v : Word) : Ctx :=
  { x with m := tset x.m r v, parity := x.parity.filter fun e => e != (3, r) }

/-- The pooled register a context's general register stands in. -/
def poolIdx (x : Ctx) (r : Nat) : Option Nat := (tget? x.banks (r / 8)).map fun b => 8 * b + r % 8

/-- A slot's general register written, in its resident registers or in the pool. -/
def slotSetG (c : Core) (k r : Nat) (v : Word) : Core :=
  if r < 16 then modSlot c k fun sl => { sl with ctx := setResident sl.ctx r v }
  else match poolIdx (slotOf c k).ctx r with
    | some i =>
      modSlot { c with pool := tset c.pool i v } k fun sl =>
        { sl with ctx := { sl.ctx with parity := sl.ctx.parity.filter fun e => e != (0, r) } }
    | none => c

/-! ### Reading and writing a core's local store -/

/-- The physical offset of the first byte of the word that holds an offset. -/
def wordBase (p : Nat) : Nat := p - p % 8
/-- The uncorrectable words that a run of n bytes at a physical offset touches. -/
def badIn (bad : List Nat) (p n : Nat) : Option Nat := bad.find? fun b => decide (b < p + n) && decide (p < b + 8)
/-- Every uncorrectable word that physical runs touch, in ascending order (R169). -/
def badWords (bad : List Nat) (rs : List (Nat × Nat)) : List Nat :=
  if bad = [] then []
  else (rs.flatMap fun r => if r.2 = 0 then [] else
    ((upto ((r.1 + r.2 + 7) / 8 - r.1 / 8)).map fun i => 8 * (r.1 / 8 + i)).filter bad.contains).eraseDups
/-- The words that a write of n bytes covers only in part, and so reads (R169). -/
def partialRuns (p n : Nat) : List (Nat × Nat) :=
  if n = 0 then []
  else (([8 * (p / 8), 8 * ((p + n - 1) / 8)].eraseDups).filter fun w => !(decide (p ≤ w) && decide (w + 8 ≤ p + n))).map fun w => (w, 8)
/-- A write at a physical offset; a wholly written aligned word gets fresh check bits (R169). -/
-- DESIGN CHOICE: log 173.
def writePhys (c : Core) (p n v : Nat) : Core :=
  let fresh (b : Nat) : Bool := decide (p ≤ b) && decide (b + 8 ≤ p + n)
  { c with mem := mwrite c.mem p n v
           bad := c.bad.filter fun b => !fresh b
           correctable := c.correctable.filter fun b => !fresh b
           found := c.found.filter fun b => !fresh b }
/-- The correctable words a read of n bytes at a physical offset meets. -/
def ceIn (l : List Nat) (p n : Nat) : List Nat := l.filter fun b => decide (b < p + n) && decide (p < b + 8)
/-- A read of n bytes at a physical offset: the correctable words it meets are to be rewritten (R169). -/
def noteRead (c : Core) (p n : Nat) : Core :=
  match (ceIn c.correctable p n).filter fun b => !c.found.contains b with
  | [] => c
  | l => { c with found := c.found ++ l }
/-- The words that a write covers in part are read for it (R169). -/
def notePartial (c : Core) (p n : Nat) : Core := (partialRuns p n).foldl (fun c r => noteRead c r.1 r.2) c
/-- The hardware's read of n bytes of a frame: correctable words are to be rewritten, uncorrectable ones are counted at the end of
the cycle (R169). -/
def frameSeen (c : Core) (p n : Nat) : Core :=
  match badWords c.bad [(p, n)] with
  | [] => noteRead c p n
  | ws => { noteRead c p n with ueLate := c.ueLate ++ ws }
/-- n bytes of a frame, of which nothing is stated where a word is uncorrectable (R169). -/
def frameWord (c : Core) (p n : Nat) : Nat :=
  if (badIn c.bad p n).isSome then Config.badData c.accIds p % 256 ^ n else mread c.mem p n
/-- The lines of 32 bytes, by number, that n > 0 bytes at a physical offset touch. -/
def linesAt (p n : Nat) : List Nat := (upto ((p + n - 1) / 32 + 1 - p / 32)).map fun k => p / 32 + k
/-- A line of the local store with its uncorrectable words, to be put back. -/
def lineCopy (c : Core) (l : Nat) : FetchLine :=
  { base := 32 * l, data := BitVec.ofNat 256 (mread c.mem (32 * l) 32), bad := c.bad.filter fun b => b / 32 == l }
/-- A line put back as it was. -/
def putBack (c : Core) (l : FetchLine) : Core :=
  { c with mem := mwrite c.mem l.base 32 l.data.toNat, bad := (c.bad.filter fun b => b / 32 != l.base / 32) ++ l.bad }
/-- The hardware's write into a frame: stores into the same lines in the same cycle lose to it (R111). Words covered in part are read
for it, and nothing is written where one of them is uncorrectable (R169). -/
-- DESIGN CHOICE: log 169.
def frameWrite (c : Core) (p n v : Nat) : Core :=
  let parts := partialRuns p n
  let c := parts.foldl (fun c r => frameSeen c r.1 r.2) c
  if badWords c.bad parts != [] then c else
  let ls := linesAt p n
  let mine (l : FetchLine) : Bool := ls.contains (l.base / 32)
  let c := (c.stored.filter mine).foldl putBack c
  writePhys { c with stored := c.stored.filter fun l => !mine l, frameLines := ls ++ c.frameLines } p n v
/-- Whether a physical page is the frame of a SAVED strand. -/
def isFrame (c : Core) (page : Nat) : Bool := c.strands.any fun e => e.2.saved == some page
/-- A store at a physical offset, in one line: it is lost where the hardware writes that line of a frame in the same cycle (R111). -/
def storePhys (c : Core) (p n v : Nat) : Core :=
  if c.frameLines.contains (p / 32) then c
  else if isFrame c (p / 4096) && !(c.stored.any fun l => l.base / 32 == p / 32) then
    writePhys { c with stored := lineCopy c (p / 32) :: c.stored } p n v
  else writePhys c p n v

/-! ### Frames (R111) -/

/-- Byte offset of a general register in a frame page. -/
def frameG (page r : Nat) : Nat := page * 4096 + 0x20 + 8 * (r - 1)
/-- The pooled bank a frame maps at a strand bank number. -/
def frameBank (m : Mem) (page k : Nat) : Option Nat :=
  let b := mread m (page * 4096 + 0x98 + (k - 2)) 1
  if b = 0xFF then none else some b
/-- A general register written into a SAVED strand's frame. -/
def frameSetG (c : Core) (page r : Nat) (v : Word) : Core :=
  if r = 0 then c
  else if r < 16 then frameWrite c (frameG page r) 8 v.toNat
  else
    let p := page * 4096 + 0x98 + (r / 8 - 2)
    let c := frameSeen c p 1
    if (badIn c.bad p 1).isSome then c
    else match frameBank c.mem page (r / 8) with
      | some b => { c with pool := tset c.pool (8 * b + r % 8) v }
      | none => c

/-! ### Results delivered to a strand wherever it is (R109) -/

/-- The frame a strand's registers stand in; the supervisor context has none. -/
def savedOf (c : Core) (key : Nat) : Option Nat := if key = supKey then none else (strandOf c key).saved

/-- The parity marks of a SAVED strand's registers that have been written since: they are good again (R388). -/
def clearMark (c : Core) (key : Nat) (f : Nat × Nat → Bool) : Core :=
  modStrand c key fun st => { st with parity := st.parity.filter fun e => !f e }
/-- A general register of a strand or of the supervisor context written. -/
def deliverG (c : Core) (key r : Nat) (v : Word) : Core :=
  if key = supKey then
    if r < 16 then { c with sup := { c.sup with ctx := setResident c.sup.ctx r v } } else c
  else match (strandOf c key).saved with
    | some page => clearMark (frameSetG c page r v) key (fun e => e == (0, r))
    | none => match findSlot c key with
      | some k => slotSetG c k r v
      | none => c
/-- An optional general register written. -/
def deliverG? (c : Core) (key : Nat) (r : Option Nat) (v : Word) : Core :=
  match r with
  | some r => deliverG c key r v
  | none => c
/-- A context of a strand changed where it stands in a slot, or of the supervisor. -/
def modCtxOf (c : Core) (key : Nat) (f : Ctx → Ctx) : Core :=
  if key = supKey then { c with sup := { c.sup with ctx := f c.sup.ctx } }
  else match findSlot c key with
    | some k => modSlot c k fun sl => { sl with ctx := f sl.ctx }
    | none => c
/-- The context of a strand in a slot, or of the supervisor. -/
def ctxOf (c : Core) (key : Nat) : Ctx :=
  if key = supKey then c.sup.ctx
  else match findSlot c key with
    | some k => (slotOf c k).ctx
    | none => {}
/-- A vector register of a strand written, into its frame when it is SAVED. -/
def deliverV (c : Core) (key r : Nat) (v : Vec) : Core :=
  match savedOf c key with
  | some page => clearMark (frameWrite c (page * 4096 + 0x200 + 128 * r) 128 v.toNat) key fun e => e == (1, r)
  | none => modCtxOf c key fun x => vSet x r v
/-- Flags merged into FPFLAGS of a strand, of its frame, or dropped when it has exited (R239, R265). -/
def deliverFlags (c : Core) (key fl : Nat) : Core :=
  if fl = 0 then c else
  match savedOf c key with
  | some page =>
    let a := page * 4096 + 0x10
    frameWrite c a 4 (frameWord c a 4 ||| fl)
  | none => modCtxOf c key fun x => { x with fpflags := x.fpflags ||| wordN fl }

/-! ### Waits (R104) -/

/-- A context that waits for nothing: what it was to do then, and its place in the order of sends, are dropped. -/
def noWait (c : Core) (key : Nat) : Core :=
  modStrand { c with allowQ := c.allowQ.filter fun k => k != key } key fun st =>
    { st with wait := .none, pend := none, job := none, redJob := none }

/-- A READY strand put in WAITING; the program counter stays at its instruction. -/
def setWait (c : Core) (key : Nat) (w : Wait) (len : Nat) : Core :=
  let c := modStrand c key fun st => { st with wait := w, wlen := len }
  if key = supKey then c
  else match findSlot c key with
    | some k => if (slotOf c k).st = .ready then modSlot c k fun sl => { sl with st := .waiting, age := 0, boost := 0 } else c
    | none => c

/-- The program counter of a strand moved by n bytes, in its frame when it is SAVED and its word there is
correctable (R169). -/
-- DESIGN CHOICE: log 169.
def bumpPc (c : Core) (key n : Nat) : Core :=
  if n = 0 then c else
  match savedOf c key with
  | some page =>
    let p := page * 4096
    let c := frameSeen c p 8
    if (badIn c.bad p 8).isSome then c else frameWrite c p 8 (mread c.mem p 8 + n)
  | none => modCtxOf c key fun x => { x with pc := x.pc + wordN n }

/-- A wait ended, its instruction complete when `adv` and about to issue again otherwise. The strand is READY from the next
cycle on (R104): `readyNow` makes it so. -/
def endWait (c : Core) (key : Nat) (adv : Bool) : Core :=
  let n := if adv then (strandOf c key).wlen else 0
  modStrand (bumpPc c key n) key fun st => { st with wait := if key = supKey then .over else .none }

/-- A context whose wait ended in an earlier cycle goes on: its strand is READY. -/
def readyNow (c : Core) (key : Nat) : Core :=
  match (strandOf c key).wait with
  | .over => modStrand c key fun st => { st with wait := .none }
  | .none => match findSlot c key with
    | some k => if (slotOf c k).st = .waiting then modSlot c k fun sl => { sl with st := .ready, age := 0, boost := 0 } else c
    | none => c
  | _ => c

/-- The program counter of a strand, in its frame when it is SAVED, or of the supervisor. -/
def pcOf (c : Core) (key : Nat) : Word :=
  match savedOf c key with
  | some page => wordN (frameWord c (page * 4096) 8)
  | none => (ctxOf c key).pc
/-- The hardware's read of n bytes at an offset of a SAVED strand's frame. -/
def seeFrame (c : Core) (key off n : Nat) : Core :=
  match savedOf c key with
  | some page => frameSeen c (page * 4096 + off) n
  | none => c

/-! ### Recording a trap of a strand or of the supervisor context (R381, R383, R384) -/

/-- Whether the strand in a slot is of a group that is being saved (R109). -/
def isVictim (c : Core) (sl : Slot) : Bool := match groupOf c sl.grp with | some g => g.victim | none => false
/-- The status of a SAVED strand's frame made TRAPPED, with no wait (R111). -/
def frameTrapped (c : Core) (page : Nat) : Core :=
  frameWrite c (page * 4096 + 9) 1 (bitsN (mread c.mem (page * 4096 + 9) 1) 5 4 * 2 ^ 4 + 2 * 2 ^ 6)
/-- The trap record made and the strand stopped. A trap in S is a double trap, taken by its own event. A strand whose wait
the trap ends keeps it until it is READY (R97, R104), and one that is SAVED, or being saved, until it is restored. `fatal`
marks a record taken while TRAP_VEC.EN was 0 and the context not HALTED. -/
-- DEDUCED: log 145.
def recordTrap (x : Site) (key : Nat) (v : TrapVal) : Site :=
  let c := noWait x.core key
  if key = supKey then { x with core := { c with sup := { c.sup with double := some v } } }
  else match (strandOf c key).saved, findSlot c key with
    | none, some k =>
      let sl := slotOf c k
      if sl.st = .saving || sl.st = .waiting || isVictim c sl then
        { x with core := modStrand c key fun st => { st with trapOnResume := some v } }
      else
        let fatal := regF x 0x023 21 21 == 0 && c.sup.st != .halted
        let c := modSlot c k fun sl => { sl with st := .trapped, age := 0, boost := 0 }
        { x with core := { c with traps := c.traps ++ [{ slot := k, grp := sl.grp, idx := sl.idx, val := v, fatal := fatal }] } }
    | some page, _ => { x with core := modStrand (frameTrapped c page) key fun st => { st with trapOnResume := some v } }
    | none, none => { x with core := c }

/-- A trap that a strand has kept and may now take: the strand is READY. -/
def trapKept (c : Core) (key : Nat) : Option TrapVal :=
  match (strandOf c key).saved, findSlot c key with
  | none, some k => if (slotOf c k).st = .ready && !isVictim c (slotOf c k) then (strandOf c key).trapOnResume else none
  | _, _ => none
/-- A kept trap taken. -/
def takeKept (x : Site) (key : Nat) : Site :=
  match trapKept x.core key with
  | some v => recordTrap { x with core := modStrand x.core key fun st => { st with trapOnResume := none } } key v
  | none => x

/-! ### The agent at hand -/

/-- Privilege levels (R379). -/
inductive Level where
  | u | s | m
  deriving DecidableEq, Repr

def levelOf : Agent → Level
  | .strand _ _ => .u
  | .sup _ => .s
  | .mgmt _ => .m
def curLevel (s : State) : Level := levelOf s.cur
/-- The site of the agent at hand; a management core has none. -/
def curSid (s : State) : Nat :=
  match s.cur with
  | .strand sid _ => sid
  | .sup sid => sid
  | .mgmt _ => 0
def curSite (s : State) : Site := getSite s (curSid s)
/-- The context of the agent at hand. -/
def curCtx (s : State) : Ctx :=
  match s.cur with
  | .strand sid k => (slotOf (getSite s sid).core k).ctx
  | .sup sid => (getSite s sid).core.sup.ctx
  | .mgmt k => (getMgmt s k).ctx
def modCurCtx (s : State) (f : Ctx → Ctx) : State :=
  match s.cur with
  | .strand sid k => modSite s sid (onCore fun c => modSlot c k fun sl => { sl with ctx := f sl.ctx })
  | .sup sid => modSite s sid (onCore fun c => { c with sup := { c.sup with ctx := f c.sup.ctx } })
  | .mgmt k => modMgmt s k fun m => { m with ctx := f m.ctx }
def curPc (s : State) : Word := (curCtx s).pc
/-- The key of the strand at hand, or of the supervisor context. -/
def curKey (s : State) : Nat :=
  match s.cur with
  | .strand sid k => slotKey (slotOf (getSite s sid).core k)
  | _ => supKey
/-- The slot whose strand the agent acts on: its own, or the presented strand's in S (R130). -/
def actSlot (s : State) : Option Nat :=
  match s.cur with
  | .strand _ k => some k
  | .sup sid => match (getSite s sid).core.sup.present with
    | some r => if r.slot < 16 then some r.slot else none
    | none => none
  | .mgmt _ => none
/-- The group number the agent acts for: its own, or the presented strand's in S (R130). -/
def actGroup (s : State) : Option Nat := (actSlot s).map fun k => (slotOf (curSite s).core k).grp
/-- The group itself. -/
def actGroupVal (s : State) : Group := ((actGroup s).bind fun g => groupOf (curSite s).core g).getD { uid := 0 }

/-- A general register of the agent at hand. -/
def readG (s : State) (r : Nat) : Word :=
  match s.cur with
  | .mgmt k => gGet {} (getMgmt s k).ctx r
  | _ => gGet (curSite s).core (curCtx s) r
/-- A general register of the agent at hand written (R81). -/
def writeG (s : State) (r : Nat) (v : Word) : State :=
  match s.cur with
  | .strand sid k => modSite s sid (onCore fun c => slotSetG c k r v)
  | _ => if r < 16 then modCurCtx s fun x => setResident x r v else s

/-- The program counter moved past an instruction of n bytes (R75). -/
def advance (s : State) (n : Nat) : State := modCurCtx s fun x => { x with pc := x.pc + wordN n }
/-- A taken branch or jump: the held fetch lines are dropped (R76). -/
def jumpTo (s : State) (t : Word) : State :=
  modCurCtx s fun x => { x with pc := t, lines := [], abandoned := none }
/-- An instruction of n bytes complete. -/
def done (n : Nat) (s : State) : Res := .next (advance s n)

/-! ### Taking a trap -/

/-- A trap or interrupt taken on a management core (R390): the cause, address and detail are written, IN_TRAP is
set, and execution continues at TRAP_VEC.BASE; a trap while IN_TRAP is set halts the core (R384). -/
def mgmtTrap (m : Mgmt) (v : TrapVal) : Mgmt :=
  if bitsN (mreg m 0x703) 0 0 = 1 then { m with st := .halted, wait := .none }
  else
    let m := setMreg m 0x020 (setBitsN (mreg m 0x020) 20 0 (v.cause + (if v.deferred then 2 ^ 20 else 0)))
    let m := setMreg m 0x021 v.pc.toNat
    let m := setMreg m 0x022 v.info.toNat
    let m := setMreg m 0x703 1
    { m with wait := .none
             ctx := { m.ctx with pc := wordN (bitsN (mreg m 0x023) 20 0), lines := [], abandoned := none } }

/-- A trap of the agent at hand (R381, R384, R390). -/
def takeTrap (s : State) (v : TrapVal) : State :=
  match s.cur with
  | .strand sid k => modSite s sid fun x => recordTrap x (slotKey (slotOf x.core k)) v
  | .sup sid => modSite s sid fun x => recordTrap x supKey v
  | .mgmt k => modMgmt s k fun m => mgmtTrap m v
/-- A precise trap of the instruction at hand. -/
def trapHere (s : State) (cause : Nat) (info : Nat) : Res :=
  .next (takeTrap s { cause := cause, pc := curPc s, info := wordN info })

/-- The words of an instruction as TRAP_INFO holds them (R83). -/
def wordsInfo (i : Instr) : Nat :=
  let e := encode i
  e.1 + (if instrLen e.1 = 8 then e.2 * 2 ^ 32 else 0)
/-- ILLEGAL_INSTRUCTION and PRIVILEGE of an instruction (R83). -/
def illegal (i : Instr) (s : State) : Res := trapHere s 0x01 (wordsInfo i)
def privilege (i : Instr) (s : State) : Res := trapHere s 0x02 (wordsInfo i)

/-! ### The page map and the checks of local accesses (R161 to R163) -/

/-- The page-map entry of a virtual page, and its fields. -/
def pmapAt (c : Core) (v : Nat) : Nat := (tget 0 c.pmap v).toNat
def ePhys (e : Nat) : Nat := bitsN e 8 0
def eOwner (e : Nat) : Nat := bitsN e 12 9
def eR (e : Nat) : Bool := bitN e 13
def eW (e : Nat) : Bool := bitN e 14
def eX (e : Nat) : Bool := bitN e 15
def eL (e : Nat) : Bool := bitN e 16
def eE (e : Nat) : Bool := bitN e 17
def eS (e : Nat) : Bool := bitN e 18
def eValid (e : Nat) : Bool := bitN e 19
/-- Whether an entry names a pool page (R118). -/
def ePool (x : Site) (e : Nat) : Bool := eValid e && decide (resvL x ≤ ePhys e) && decide (ePhys e ≤ 383)
/-- The entry of a page as the writes issued so far leave it, which every later access to PMAP_DATA sees (R164, R396). -/
-- DESIGN CHOICE: log 33.
def pmapLatest (c : Core) (v : Nat) : Nat :=
  match (c.pmapNext.filter fun e => e.1 == v).getLast? with
  | some e => e.2.1.toNat
  | none => pmapAt c v
/-- Whether a mapped page is owned by a group (R162); none stands for S and M. -/
def eOwned (x : Site) (e : Nat) (grp : Option Nat) : Bool :=
  match grp with
  | none => true
  | some g => decide (ePhys e < resvL x) || eOwner e == g
/-- The physical byte offset of a local address (R160). -/
def physOf (c : Core) (a : Nat) : Nat := ePhys (pmapAt c (a / 4096)) * 4096 + a % 4096
/-- The same for an access: through the entry as it stood at issue where the page has been mapped anew (R164). -/
-- DESIGN CHOICE: log 33.
def physVia (c : Core) (via : Tab Nat) (a : Nat) : Nat :=
  match tget? via (a / 4096) with
  | some p => p * 4096 + a % 4096
  | none => physOf c a

/-- The first failing check of R163 on one page: 1 not VALID, 2 not owned, 3 not permitted. -/
def pageFault (x : Site) (grp : Option Nat) (rd wr : Bool) (v : Nat) : Option Nat :=
  let e := pmapAt x.core v
  if !eValid e then some 1
  else if !eOwned x e grp then some 2
  else if (rd && !eR e) || (wr && !eW e) || (grp.isSome && eS e) then some 3
  else none

/-- The pages a run of n > 0 bytes touches. -/
def pagesOf (a n : Nat) : List Nat := (upto ((a + n - 1) / 4096 + 1 - a / 4096)).map fun k => a / 4096 + k

/-- A failed access check: LOCAL_ACCESS with its subcode, or MISALIGNED. -/
inductive AccFault where
  | access (sub : Nat)
  | misaligned
  deriving DecidableEq, Repr

/-- Whether a range of local addresses touches the bytes that hold the firmware's handler entries, the last 768 of the
handler table's last page, by whatever page they are reached (R31). -/
-- DEDUCED: log 73.
def inFirmwareEntries (x : Site) (a n : Nat) : Bool :=
  let e := pmapAt x.core (regF x 0x046 20 0 / 4096 + 7)
  eValid e && (pagesOf a n).any fun v =>
    let o := pmapAt x.core v
    eValid o && ePhys o == ePhys e && decide (4096 * v + 3328 < a + n) && decide (a < 4096 * v + 4096)

/-- The checks of R163 on an access of n bytes with an alignment, by a group in U or by S (none). A store into the
firmware's handler entries fails as not permitted (R31). -/
-- DEDUCED: log 73.
-- DESIGN CHOICE: log 179.
def checkLocal (x : Site) (grp : Option Nat) (a n al : Nat) (rd wr : Bool) : Option AccFault :=
  if 0x200000 < a + n ∨ 0x200000 ≤ a then some (.access 4)
  else if a % al ≠ 0 then some .misaligned
  else if n = 0 then none
  else match (pagesOf a n).findSome? (pageFault x grp rd wr) with
    | some k => some (.access k)
    | none => if wr && inFirmwareEntries x a n then some (.access 3) else none

/-- The checks on a management core's store (R392). -/
def checkStore (a n al : Nat) : Option AccFault :=
  if 0x40000 < a + n ∨ 0x40000 ≤ a then some (.access 4)
  else if a % al ≠ 0 then some .misaligned else none

/-- The trap of a failed access check (R163): stream, lane, write bit, address. -/
def accTrap (f : AccFault) (wr : Bool) (stream lane ea : Nat) (pc : Word) : TrapVal :=
  let info := (match f with | .access k => k | .misaligned => 0) + b2n wr * 16 + stream * 256 +
    lane * 65536 + ea % 2 ^ 32 * 2 ^ 32
  { cause := (match f with | .access _ => 0x04 | .misaligned => 0x05), pc := pc, info := wordN info }

/-- The group whose ownership and permissions the agent at hand is checked against: none in S. -/
def checkGrp (s : State) : Option Nat :=
  match s.cur with
  | .strand sid k => some (slotOf (getSite s sid).core k).grp
  | _ => none

/-- The access check of the agent at hand. -/
def checkHere (s : State) (a n al : Nat) (rd wr : Bool) : Option AccFault :=
  match s.cur with
  | .mgmt _ => checkStore a n al
  | _ => checkLocal (curSite s) (checkGrp s) a n al rd wr

/-! ### Reading and writing a core's local store at local addresses -/

/-- n bytes of the local store at a local address that lies in one page. -/
def readLocal (c : Core) (a n : Nat) : Nat := mread c.mem (physOf c a) n
/-- Whether an uncorrectable word meets n bytes at a local address in one page. -/
def badLocal (c : Core) (a n : Nat) : Option Nat := badIn c.bad (physOf c a) n
/-- n bytes written at a local address in one page. -/
def writeLocal (c : Core) (a n v : Nat) : Core := storePhys c (physOf c a) n v

/-- Every uncorrectable word that a write of n bytes covers only in part. -/
def partialBads (c : Core) (a n : Nat) : List Nat := badWords c.bad (partialRuns (physOf c a) n)
/-- LS_ECC.UE_COUNT and LS_ECC_ADDR updated for an uncorrectable word found by an agent (R169, R170). -/
def countUe (x : Site) (word agent : Nat) : Site :=
  let u := regF x 0x052 47 32
  let x := setRegF x 0x052 47 32 (min (u + 1) 0xFFFF)
  setReg x 0x053 (word % 2 ^ 21 + agent * 2 ^ 21)
/-- Every uncorrectable word of a read counted (R169). -/
def countUes (x : Site) (ws : List Nat) (agent : Nat) : Site := ws.foldl (fun x w => countUe x w agent) x
/-- The uncorrectable words that the hardware has met in frames counted. -/
def settleErrors (x : Site) : Site :=
  if x.core.ueLate = [] then x
  else { countUes x x.core.ueLate 0 with core := { x.core with ueLate := [] } }
/-- The same for a management core's own counts (R392). -/
-- DESIGN CHOICE: log 114.
def mgmtCountUe (m : Mgmt) (word agent : Nat) : Mgmt :=
  let u := bitsN (mreg m 0x052) 47 32
  let m := setMreg m 0x052 (setBitsN (mreg m 0x052) 47 32 (min (u + 1) 0xFFFF))
  setMreg m 0x053 (word % 2 ^ 21 + agent * 2 ^ 21)
-- DESIGN CHOICE: log 114.
def mgmtNoteRead (m : Mgmt) (p n : Nat) : Mgmt :=
  match (ceIn m.correctable p n).filter fun b => !m.found.contains b with
  | [] => m
  | l => { m with found := m.found ++ l }

/-- A reserved saturating count of reports that find no place (R288). -/
def countLost (x : Site) (n : Nat) : Site :=
  setRegF x 0x062 47 32 (min (regF x 0x062 47 32 + n) 0xFFFF)
/-- A malformed packet counted (R35). -/
def countDrop (x : Site) : Site := setRegF x 0x062 31 0 ((regF x 0x062 31 0 + 1) % 2 ^ 32)

end Sys2Proof.Machine
end

