-- ==== Sys2Proof/Machine/Operands.lean ====
section
/-! DEFINITION. Operand forms: the registers an instruction names, the levels it is legal at, and the
checks of R83 made on every instruction before its own. -/

namespace Sys2Proof.Machine

/-- A register an instruction names, read (r) or written (w), of the files g, v, q and m. -/
inductive Use where
  | rg (n : Nat) | wg (n : Nat) | rv (n : Nat) | wv (n : Nat) | rq (n : Nat) | wq (n : Nat) | rm (n : Nat)
  deriving DecidableEq, Repr

/-- The build register that a register number reads (R279). -/
def buildUse (n : Nat) : List Use := if 0x010 ≤ n ∧ n ≤ 0x019 then [.rm (n - 0x010)] else []

/-- The registers an instruction names, in the order a, b, d (R138), then registers of EXT. A narrowing
conversion and VQNT read the register they write a part of (R222, R224). -/
def uses : Instr → List Use
  | .add d a b => [.rg a, .rg b, .wg d]
  | .sub d a b => [.rg a, .rg b, .wg d]
  | .and d a b => [.rg a, .rg b, .wg d]
  | .or d a b => [.rg a, .rg b, .wg d]
  | .xor d a b => [.rg a, .rg b, .wg d]
  | .andn d a b => [.rg a, .rg b, .wg d]
  | .shl d a b => [.rg a, .rg b, .wg d]
  | .shr d a b => [.rg a, .rg b, .wg d]
  | .sar d a b => [.rg a, .rg b, .wg d]
  | .rol d a b => [.rg a, .rg b, .wg d]
  | .mul d a b => [.rg a, .rg b, .wg d]
  | .mulh d a b => [.rg a, .rg b, .wg d]
  | .mulhn d a b => [.rg a, .rg b, .wg d]
  | .div d a b => [.rg a, .rg b, .wg d]
  | .divn d a b => [.rg a, .rg b, .wg d]
  | .rem d a b => [.rg a, .rg b, .wg d]
  | .remn d a b => [.rg a, .rg b, .wg d]
  | .min d a b => [.rg a, .rg b, .wg d]
  | .max d a b => [.rg a, .rg b, .wg d]
  | .minn d a b => [.rg a, .rg b, .wg d]
  | .maxn d a b => [.rg a, .rg b, .wg d]
  | .slt d a b => [.rg a, .rg b, .wg d]
  | .sltn d a b => [.rg a, .rg b, .wg d]
  | .seq d a b => [.rg a, .rg b, .wg d]
  | .sel d a b => [.rg a, .rg b, .rg d, .wg d]
  | .clz d a => [.rg a, .wg d]
  | .ctz d a => [.rg a, .wg d]
  | .popc d a => [.rg a, .wg d]
  | .bfx d a b => [.rg a, .rg b, .wg d]
  | .bfi d a b => [.rg a, .rg b, .rg d, .wg d]
  | .addi d a _ => [.rg a, .wg d]
  | .andi d a _ => [.rg a, .wg d]
  | .ori d a _ => [.rg a, .wg d]
  | .xori d a _ => [.rg a, .wg d]
  | .shli d a _ => [.rg a, .wg d]
  | .shri d a _ => [.rg a, .wg d]
  | .sari d a _ => [.rg a, .wg d]
  | .slti d a _ => [.rg a, .wg d]
  | .sltin d a _ => [.rg a, .wg d]
  | .lui d _ => [.wg d]
  | .adrp d _ => [.wg d]
  | .beq a b _ => [.rg a, .rg b]
  | .bne a b _ => [.rg a, .rg b]
  | .blt a b _ => [.rg a, .rg b]
  | .bge a b _ => [.rg a, .rg b]
  | .bltn a b _ => [.rg a, .rg b]
  | .bgen a b _ => [.rg a, .rg b]
  | .jal d _ => [.wg d]
  | .jalr d a _ => [.rg a, .wg d]
  | .nop => []
  | .yield => []
  | .exit => []
  | .wid d _ => [.wg d]
  | .time d => [.wg d]
  | .ldb d a _ _ => [.rg a, .wg d]
  | .ldbn d a _ _ => [.rg a, .wg d]
  | .ldh d a _ _ => [.rg a, .wg d]
  | .ldhn d a _ _ => [.rg a, .wg d]
  | .ldw d a _ _ => [.rg a, .wg d]
  | .ldwn d a _ _ => [.rg a, .wg d]
  | .ldd d a _ _ => [.rg a, .wg d]
  | .stb d a _ _ => [.rg a, .rg d]
  | .sth d a _ _ => [.rg a, .rg d]
  | .stw d a _ _ => [.rg a, .rg d]
  | .std d a _ _ => [.rg a, .rg d]
  | .ladd d a b _ => [.rg a, .rg b, .wg d]
  | .lmin d a b _ => [.rg a, .rg b, .wg d]
  | .lmax d a b _ => [.rg a, .rg b, .wg d]
  | .land d a b _ => [.rg a, .rg b, .wg d]
  | .lor d a b _ => [.rg a, .rg b, .wg d]
  | .lxor d a b _ => [.rg a, .rg b, .wg d]
  | .lswp d a b _ => [.rg a, .rg b, .wg d]
  | .lcas d a b _ => [.rg a, .rg b, .rg d, .wg d]
  | .fence _ _ => []
  | .fpop d _ => [.wg d]
  | .vld d a _ _ => [.rg a, .wv d]
  | .vst d a _ _ => [.rg a, .rv d]
  | .fpopv d _ => [.wv d]
  | .vgath d a b _ _ => [.rq a, .rv b, .wv d]
  | .vscat d a b _ _ => [.rq a, .rv b, .rv d]
  | .vadd d a b _ => [.rv a, .rv b, .wv d]
  | .vsub d a b _ => [.rv a, .rv b, .wv d]
  | .vmul d a b _ => [.rv a, .rv b, .wv d]
  | .vmin d a b _ => [.rv a, .rv b, .wv d]
  | .vmax d a b _ => [.rv a, .rv b, .wv d]
  | .vfma d a b _ => [.rv a, .rv b, .rv d, .wv d]
  | .vshl d a b _ => [.rv a, .rv b, .wv d]
  | .vshr d a b _ => [.rv a, .rv b, .wv d]
  | .vcmpEq d a b _ => [.rv a, .rv b, .wq d]
  | .vcmpLt d a b _ => [.rv a, .rv b, .wq d]
  | .vcmpLe d a b _ => [.rv a, .rv b, .wq d]
  | .vabs d a _ => [.rv a, .wv d]
  | .vneg d a _ => [.rv a, .wv d]
  | .vrcp d a _ => [.rv a, .wv d]
  | .vrsq d a _ => [.rv a, .wv d]
  | .vexp2 d a _ => [.rv a, .wv d]
  | .vlog2 d a _ => [.rv a, .wv d]
  | .vtanh d a _ => [.rv a, .wv d]
  | .vsum d a _ => [.rv a, .wv d]
  | .vrmax d a _ => [.rv a, .wv d]
  | .vand d a b => [.rv a, .rv b, .wv d]
  | .vor d a b => [.rv a, .rv b, .wv d]
  | .vxor d a b => [.rv a, .rv b, .wv d]
  | .vsel d a b _ => [.rv a, .rq b, .rv d, .wv d]
  | .vperm d a b _ => [.rv a, .rv b, .wv d]
  | .vext d a b _ => [.rv a, .rg b, .wg d]
  | .vins d a b _ => [.rg a, .rg b, .rv d, .wv d]
  | .vbcast d a _ => [.rg a, .wv d]
  | .vcvt d a f s _ => .rv a :: (if capacity s < capacity f then [.rv d, .wv d] else [.wv d])
  | .vqnt d a _ _ _ => [.rv a, .rv d, .wv d]
  | .vdqnt d a _ _ _ => [.rv a, .wv d]
  | .vcvtLane d a f s _ => .rv a :: (if laneCount s < laneCount f then [.rv d, .wv d] else [.wv d])
  | .tmma _ a b _ => [.rg a, .rg b]
  | .tzero _ => []
  | .tstat d _ => [.wg d]
  | .tcfg _ a b _ _ _ _ _ => [.rg a, .rg b]
  | .tcfgZ _ a b _ _ _ _ _ => [.rg a, .rg b]
  | .tdrain _ a b _ _ _ => [.rg a, .rg b]
  | .tldacc _ a b _ _ _ => [.rg a, .rg b]
  | .tdrainF _ a b _ _ _ => [.rg a, .rg b]
  | .claim a => [.rg a]
  | .acqB d a => [.rg a, .wg d]
  | .acqL d a => [.rg a, .wg d]
  | .acqT d a => [.rg a, .wg d]
  | .acqC d a => [.rg a, .wg d]
  | .tacqB d a => [.rg a, .wg d]
  | .tacqL d a => [.rg a, .wg d]
  | .tacqT d a => [.rg a, .wg d]
  | .tacqC d a => [.rg a, .wg d]
  | .relB a => [.rg a]
  | .relL a b => [.rg a, .rg b]
  | .relT a => [.rg a]
  | .relC a => [.rg a]
  | .relall => []
  | .qres d _ => [.wg d]
  | .send a => [.rg a]
  | .sendt d a => [.rg a, .wg d]
  | .sendl a b _ => [.rg a, .rg b]
  | .invoke a b => [.rg a, .rg b]
  | .invoket d a b => [.rg a, .rg b, .wg d]
  | .invokep a b => [.rg a, .rg b]
  | .recv d a => [.rg a, .wg d]
  | .recvt d a => [.rg a, .wg d]
  | .waitmsg a => [.rg a]
  | .reply a b => [.rg a, .rg b]
  | .invokei a b _ _ _ _ _ _ => [.rg a, .rg b]
  | .invokeiT d a b _ _ _ _ _ _ => [.rg a, .rg b, .wg d]
  | .invokeiP a b _ _ _ _ _ _ => [.rg a, .rg b]
  | .dset _ a b => [.rg a, .rg b]
  | .ddec _ a b => [.rg a, .wg b]
  | .dwait _ => []
  | .rld d a _ _ _ _ => [.rg a, .wg d]
  | .rst d a _ _ _ _ => [.rg a, .rg d]
  | .nst d a _ _ _ _ => [.rg a, .rg d]
  | .radd d a _ _ _ _ => [.rg a, .rg d, .wg d]
  | .rmin d a _ _ _ _ => [.rg a, .rg d, .wg d]
  | .rmax d a _ _ _ _ => [.rg a, .rg d, .wg d]
  | .rand d a _ _ _ _ => [.rg a, .rg d, .wg d]
  | .ror d a _ _ _ _ => [.rg a, .rg d, .wg d]
  | .rxor d a _ _ _ _ => [.rg a, .rg d, .wg d]
  | .rswp d a _ _ _ _ => [.rg a, .rg d, .wg d]
  | .rcas d a _ _ _ _ => [.rg a, .rg d, .rg (d + 1), .wg d]
  | .mcst _ d a b _ _ _ => [.rg a, .rg b, .rg d]
  | .hinit _ b => [.rg b]
  | .harrive d _ _ _ => [.wg d]
  | .harriveRemote d a _ _ => [.rg a, .wg d]
  | .hwait _ b => [.rg b]
  | .hwaitRemote a b => [.rg a, .rg b]
  | .hexpect _ b => [.rg b]
  | .htest d _ b => [.rg b, .wg d]
  | .fred d a _ => [.rg a, .wg d]
  | .fbcast d a _ => [.rg a, .wg d]
  | .frwait d a => [.rg a, .wg d]
  | .cpy d a b g _ _ _ _ => [.rg a, .rg b, .rg g, .wg d]
  | .cpyr d a b g _ _ _ _ => [.rg a, .rg b, .rg g, .wg d]
  | .cpym d a b g _ _ _ _ => [.rg a, .rg b, .rg g, .wg d]
  | .cpys _ d a b g _ _ _ _ => [.rg a, .rg b, .rg g, .wg d]
  | .cpyw d a => [.rg a, .wg d]
  | .cpyq d a => [.rg a, .wg d]
  | .cpyx a => [.rg a]
  | .halo d a b _ _ => [.rg a, .rg b, .wg d]
  | .sysr d n => .wg d :: buildUse n
  | .sysw d _ => [.rg d]
  | .sysset d n => .rg d :: buildUse n
  | .sysclr d n => .rg d :: buildUse n
  | .trap _ => []
  | .brk _ => []
  | .eret => []
  | .halt => []
  | .wfi => []
  | _ => []

/-- The stream an instruction names, or the greatest of FENCE's mask (R83, R174). -/
def streamOf : Instr → Option Nat
  | .fence m _ => if bitN m 15 then some 15 else none
  | .ldb _ _ s _ => some s
  | .ldbn _ _ s _ => some s
  | .ldh _ _ s _ => some s
  | .ldhn _ _ s _ => some s
  | .ldw _ _ s _ => some s
  | .ldwn _ _ s _ => some s
  | .ldd _ _ s _ => some s
  | .stb _ _ s _ => some s
  | .sth _ _ s _ => some s
  | .stw _ _ s _ => some s
  | .std _ _ s _ => some s
  | .ladd _ _ _ s => some s
  | .lmin _ _ _ s => some s
  | .lmax _ _ _ s => some s
  | .land _ _ _ s => some s
  | .lor _ _ _ s => some s
  | .lxor _ _ _ s => some s
  | .lswp _ _ _ s => some s
  | .lcas _ _ _ s => some s
  | .vld _ _ s _ => some s
  | .vst _ _ s _ => some s
  | .vgath _ _ _ _ s => some s
  | .vscat _ _ _ _ s => some s
  | .tmma _ _ _ s => some s
  | .tdrain _ _ _ _ _ s => some s
  | .tldacc _ _ _ _ _ s => some s
  | .tdrainF _ _ _ _ _ s => some s
  | .sendl _ _ s => some s
  | .rld _ _ s _ _ _ => some s
  | .rst _ _ s _ _ _ => some s
  | .nst _ _ s _ _ _ => some s
  | .radd _ _ s _ _ _ => some s
  | .rmin _ _ s _ _ _ => some s
  | .rmax _ _ s _ _ _ => some s
  | .rand _ _ s _ _ _ => some s
  | .ror _ _ s _ _ _ => some s
  | .rxor _ _ s _ _ _ => some s
  | .rswp _ _ s _ _ _ => some s
  | .rcas _ _ s _ _ _ => some s
  | .mcst _ _ _ _ s _ _ => some s
  | .fred _ _ s => some s
  | .fbcast _ _ s => some s
  | .cpy _ _ _ _ _ _ s _ => some s
  | .cpyr _ _ _ _ _ _ s _ => some s
  | .cpym _ _ _ _ _ s _ _ => some s
  | .cpys _ _ _ _ _ _ s _ _ => some s
  | .halo _ _ _ _ s => some s
  | _ => none

/-- How an instruction stands to the privilege levels (R154, R379 and the reference rule of each chapter). -/
inductive Legality where
  /-- legal in U, S and M -/
  | every
  /-- legal in U only -/
  | uOnly
  /-- legal in U and M -/
  | um
  /-- legal in S and M; in U it traps PRIVILEGE (R395) -/
  | priv
  /-- legal in U and S -/
  | us
  /-- legal in U, and in S for the group of the presented strand (R130) -/
  | group
  deriving DecidableEq, Repr

def legality : Instr → Legality
  | .exit => .uOnly
  | .trap _ => .um
  | .brk _ => .um
  | .eret => .priv
  | .halt => .priv
  | .wfi => .priv
  | .wid _ _ => .group
  | .fpop _ _ => .us
  | .vld _ _ _ _ => .us
  | .vst _ _ _ _ => .us
  | .fpopv _ _ => .us
  | .vgath _ _ _ _ _ => .us
  | .vscat _ _ _ _ _ => .us
  | .dset _ _ _ => .us
  | .ddec _ _ _ => .us
  | .dwait _ => .us
  | .tmma _ _ _ _ => .group
  | .tzero _ => .group
  | .tstat _ _ => .group
  | .tcfg _ _ _ _ _ _ _ _ => .group
  | .tcfgZ _ _ _ _ _ _ _ _ => .group
  | .tdrain _ _ _ _ _ _ => .group
  | .tldacc _ _ _ _ _ _ => .group
  | .tdrainF _ _ _ _ _ _ => .group
  | .claim _ => .group
  | .acqB _ _ => .group
  | .acqL _ _ => .group
  | .acqT _ _ => .group
  | .acqC _ _ => .group
  | .tacqB _ _ => .group
  | .tacqL _ _ => .group
  | .tacqT _ _ => .group
  | .tacqC _ _ => .group
  | .relB _ => .group
  | .relL _ _ => .group
  | .relT _ => .group
  | .relC _ => .group
  | .relall => .group
  | .qres _ _ => .group
  | .send _ => .group
  | .sendt _ _ => .group
  | .sendl _ _ _ => .group
  | .invoke _ _ => .group
  | .invoket _ _ _ => .group
  | .invokep _ _ => .group
  | .recv _ _ => .group
  | .recvt _ _ => .group
  | .waitmsg _ => .group
  | .reply _ _ => .group
  | .invokei _ _ _ _ _ _ _ _ => .group
  | .invokeiT _ _ _ _ _ _ _ _ _ => .group
  | .invokeiP _ _ _ _ _ _ _ _ => .group
  | .rld _ _ _ _ _ _ => .group
  | .rst _ _ _ _ _ _ => .group
  | .nst _ _ _ _ _ _ => .group
  | .radd _ _ _ _ _ _ => .group
  | .rmin _ _ _ _ _ _ => .group
  | .rmax _ _ _ _ _ _ => .group
  | .rand _ _ _ _ _ _ => .group
  | .ror _ _ _ _ _ _ => .group
  | .rxor _ _ _ _ _ _ => .group
  | .rswp _ _ _ _ _ _ => .group
  | .rcas _ _ _ _ _ _ => .group
  | .mcst _ _ _ _ _ _ _ => .group
  | .hinit _ _ => .group
  | .harrive _ _ _ _ => .group
  | .harriveRemote _ _ _ _ => .group
  | .hwait _ _ => .group
  | .hwaitRemote _ _ => .group
  | .hexpect _ _ => .group
  | .htest _ _ _ => .group
  | .fred _ _ _ => .group
  | .fbcast _ _ _ => .group
  | .frwait _ _ => .group
  | .cpy _ _ _ _ _ _ _ _ => .group
  | .cpyr _ _ _ _ _ _ _ _ => .group
  | .cpym _ _ _ _ _ _ _ _ => .group
  | .cpys _ _ _ _ _ _ _ _ _ => .group
  | .cpyw _ _ => .group
  | .cpyq _ _ => .group
  | .cpyx _ => .group
  | .halo _ _ _ _ _ => .group
  | _ => .every

/-- Whether a strand's record is presented to the supervisor context at hand (R130). -/
def presented (s : State) : Bool := (actSlot s).isSome

/-- Whether an instruction is legal at the level of the agent at hand. -/
def levelOk (i : Instr) (s : State) : Bool :=
  match legality i, curLevel s with
  | .every, _ => true
  | .uOnly, .u => true
  | .uOnly, _ => false
  | .um, .s => false
  | .um, _ => true
  | .priv, _ => true
  | .us, .m => false
  | .us, _ => true
  | .group, .u => true
  | .group, .s => presented s
  | .group, .m => false

/-- The system register an instruction names, and whether it writes it. -/
def sysNumber : Instr → Option (Nat × Bool)
  | .sysr _ n => some (n, false)
  | .sysw _ n => some (n, true)
  | .sysset _ n => some (n, true)
  | .sysclr _ n => some (n, true)
  | _ => none

/-- What R393 says of a register access at the level at hand: some true is ILLEGAL_INSTRUCTION, some false
PRIVILEGE. MSGLEN_MAX, PARK_CFG and PORT_PARK are not written in S, nor CPYR_ORD in U (R285, R393, R272). -/
-- DEDUCED: log 108.
def sysFault (n : Nat) (wr : Bool) (s : State) : Option Bool :=
  match curLevel s with
  | .m => if mgmtRegExists n || (decide (0x800 ≤ n) && decide (n < 0x1000)) then none else some true
  | l => match siteRegAccess n with
    | none => some true
    | some (u, p, _) =>
      let x := if l = .u then u else p
      if x = .no then some false
      else if wr && (n == 0x060 || n == 0x073 || n == 0x074 || (n == 0x064 && l == .u)) then some false
      else none

/-- The bad register of a context that an instruction reads (R388): file and number. -/
-- DEDUCED: log 16.
def parityOf (x : Ctx) : Use → Option (Nat × Nat)
  | .rg n => if x.parity.contains (0, n) then some (0, n) else none
  | .rv n => if x.parity.contains (1, n) then some (1, n) else none
  | .rq n => if x.parity.contains (2, n) then some (2, n) else none
  | .rm n => if x.parity.contains (3, n) then some (3, n) else none
  | _ => none

/-- The general register a use names. -/
def Use.gOf : Use → Option Nat
  | .rg n => some n
  | .wg n => some n
  | _ => none

/-- A value of TRAP_INFO at the instruction at hand. -/
def trapVal (s : State) (cause info : Nat) : TrapVal := { cause := cause, pc := curPc s, info := wordN info }

/-- The trap of a bad register, whose value is then lost (R388). -/
-- DEDUCED: log 15.
def parityTrap (s : State) (f n : Nat) : TrapVal := trapVal s 0x13 (4 + n * 2 ^ 8 + f * 2 ^ 14)

/-- Whether an instruction traps PRIVILEGE before its registers are checked (R83, R393). -/
def privilegeFails (i : Instr) (s : State) : Bool :=
  decide (curLevel s = .u) && (decide (legality i = .priv) || streamOf i == some 15)

/-- The first general register an instruction names in an unmapped bank (R138). -/
def unmappedOf (i : Instr) (s : State) : Option Nat :=
  (uses i).findSome? fun u => u.gOf.bind fun n => if gMapped (curCtx s) n then none else some n

/-- Whether a write in S is of PMAP_DATA over an entry that names a pool page: PRIVILEGE whatever its value (R118). -/
def poolEntryWrite (i : Instr) (s : State) : Bool :=
  sysNumber i == some (0x051, true) && decide (curLevel s = .s) &&
    ePool (curSite s) (pmapLatest (curSite s).core (regF (curSite s) 0x050 8 0))
/-- The checks of R83 made on every instruction, in order: ILLEGAL_INSTRUCTION, PRIVILEGE, REGISTER_BANK
(R136), and a parity error of a register that is read (R388). -/
-- DEDUCED: log 15.
def guardTrap (i : Instr) (s : State) : Option TrapVal :=
  if !levelOk i s then some (trapVal s 0x01 (wordsInfo i))
  else if privilegeFails i s then some (trapVal s 0x02 (wordsInfo i))
  else match (sysNumber i).bind fun x => sysFault x.1 x.2 s with
  | some true => some (trapVal s 0x01 (wordsInfo i))
  | some false => some (trapVal s 0x02 (wordsInfo i))
  | none =>
    if poolEntryWrite i s then some (trapVal s 0x02 (wordsInfo i))
    else match unmappedOf i s with
    | some n => some (trapVal s 0x06 (1 + n * 2 ^ 8))
    | none =>
      match (uses i).findSome? (parityOf (curCtx s)) with
      | some (f, n) => some (parityTrap s f n)
      | none => none

/-- The mark of a bad register gone once its trap is taken: it then reads zero (R388). -/
def spendParity (s : State) (v : TrapVal) : State :=
  if v.cause = 0x13 then
    modCurCtx s fun x => { x with parity := x.parity.filter fun e => e != (bits v.info 15 14, bits v.info 13 8) }
  else s

/-- An instruction issued by the agent at hand: the checks of R83, then its own meaning. -/
def issue (i : Instr) (s : State) (body : State → Res) : Res :=
  match guardTrap i s with
  | some v => .next (takeTrap (spendParity s v) v)
  | none => body s

end Sys2Proof.Machine
end

