-- ==== Sys2Proof/Machine/Fetch.lean ====
section
/-! DEFINITION. Fetch (R75 to R77, R392): the checks on a fetched word, the two fetch lines of a context,
their fills, and the words at a program counter. -/

namespace Sys2Proof.Machine

/-! ### Contexts by number: 0 to 15 a slot, 16 the supervisor, 17 the management core -/

/-- The agent whose context a number names at a site, or management core. -/
def agentOf (sid n : Nat) : Agent := if n < 16 then .strand sid n else if n = 16 then .sup sid else .mgmt sid

/-- An operand of the event at hand. -/
def argAt (s : State) (k : Nat) : Nat := s.arg.getD k 0

/-- Whether an agent's context may issue: its site's core runs, and the strand is READY, the supervisor is
RUNNING without a wait, or the management core runs without a wait. -/
def runs (a : Agent) (s : State) : Bool :=
  match a with
  | .strand sid k =>
    let x := getSite s sid
    let sl := slotOf x.core k
    x.life == .live && !x.dead && x.core.evict.st == .run && sl.st == .ready &&
      (match groupOf x.core sl.grp with | some g => !g.start && !g.victim && g.coll.isNone | none => true)
  | .sup sid =>
    let x := getSite s sid
    x.life == .live && !x.dead && x.core.evict.st == .run && x.core.sup.st == .running &&
      (strandOf x.core supKey).wait == .none && x.core.sup.double.isNone
  | .mgmt k => (getMgmt s k).st == .running && (getMgmt s k).wait == .none

/-! ### Checks -/

/-- The checks 1 to 4 of R75 on the page that holds a word, by subcode, of a group in U or of S (none). -/
def fetchPage (x : Site) (grp : Option Nat) (a : Nat) : Option Nat :=
  if 0x200000 ≤ a then some 4
  else
    let e := pmapAt x.core (a / 4096)
    if !eValid e || !eOwned x e grp then some 1
    else if !eX e || (grp.isSome && eS e) then some 2
    else none

/-- The checks on a word at an address of the agent at hand; alignment is that of the first word. -/
def fetchCheck (s : State) (a : Nat) (second : Bool) : Option Nat :=
  match s.cur with
  | .mgmt _ => if 0x40000 ≤ a then some 4 else if !second && a % 4 != 0 then some 3 else none
  | _ =>
    if 0x200000 ≤ a then some 4
    else if !second && a % 4 != 0 then some 3
    else fetchPage (curSite s) (checkGrp s) a

/-- FETCH_FAULT of the agent at hand (R75). -/
def fetchTrap (s : State) (sub a : Nat) (second : Bool) : State :=
  takeTrap s (trapVal s 0x03 (sub + b2n second * 16 + a % 2 ^ 32 * 2 ^ 32))

/-! ### Fetch lines -/

/-- The line of a context that holds an address. -/
def lineAt (x : Ctx) (a : Nat) : Option FetchLine := x.lines.find? fun l => l.base == a - a % 32
/-- The 32-bit word at an address of a line. -/
def lineWord (l : FetchLine) (a : Nat) : Nat := bitsN l.data.toNat (a % 32 / 4 * 32 + 31) (a % 32 / 4 * 32)
/-- Whether the word at an address was uncorrectable when its line was filled. -/
def lineBad (l : FetchLine) (a : Nat) : Bool := l.bad.contains (a % 32 / 8)

/-- What stands at the program counter of a context. -/
inductive Fetched where
  /-- a line that holds it has not been filled -/
  | absent
  /-- the word at an address was uncorrectable -/
  | bad (a : Nat)
  /-- the first and second word, and the length -/
  | word (w0 w1 len : Nat)
  deriving DecidableEq, Repr

/-- The instruction words at the program counter, read from the fetch lines. -/
def fetched (x : Ctx) : Fetched :=
  let a := x.pc.toNat
  match lineAt x a with
  | none => .absent
  | some l =>
    if lineBad l a then .bad a
    else
      let w0 := lineWord l a
      if instrLen w0 = 4 then .word w0 0 4
      else match lineAt x (a + 4) with
        | none => .absent
        | some l2 => if lineBad l2 (a + 4) then .bad (a + 4) else .word w0 (lineWord l2 (a + 4)) 8

/-- The line at a physical offset of a core's store, and the same of a management core's store. -/
def lineOf (m : Mem) (bad : List Nat) (p base : Nat) : FetchLine :=
  { base := base, data := BitVec.ofNat 256 (mread m p 32)
    bad := (upto 4).filter fun k => bad.contains (p + 8 * k) }

/-- The line that holds a local address read for the agent at hand: the machine with the errors met noted
(R169) and the line. -/
def readLine (s : State) (a : Nat) : State × FetchLine :=
  let base := a - a % 32
  match s.cur with
  | .mgmt k =>
    let m := getMgmt s k
    let l := lineOf m.store m.bad base base
    let m := mgmtNoteRead (l.bad.foldl (fun m b => mgmtCountUe m (base + 8 * b) 5) m) base 32
    (modMgmt s k fun _ => m, l)
  | _ =>
    let x := curSite s
    let p := physOf x.core base
    let l := lineOf x.core.mem x.core.bad p base
    let x := onCore (fun c => noteRead c p 32) (l.bad.foldl (fun x b => countUe x (p + 8 * b) 5) x)
    (setSite s (curSid s) x, l)

/-- A line filled into the context at hand, beside the line kept. -/
-- DESIGN CHOICE: log 24.
def fillLine (s : State) (a keep : Nat) : State :=
  let (s, l) := readLine s a
  modCurCtx s fun x => { x with lines := (x.lines.filter fun e => e.base == keep) ++ [l], abandoned := none }

/-- The fetch work of the agent at hand: its current line, then the next sequential line. A check that
fails on the current word traps, and one that fails on the next line abandons the prefetch until the word
there is fetched (R75, R76). -/
-- DESIGN CHOICE: log 24.
def fetchWork (s : State) : State :=
  let x := curCtx s
  let a := x.pc.toNat
  let cur := a - a % 32
  let next := cur + 32
  match lineAt x a with
  | none =>
    match fetchCheck s a false with
    | some sub => fetchTrap s sub a false
    | none => fillLine s a next
  | some l =>
    if (lineAt x next).isSome then s
    else
      let needed := !lineBad l a && instrLen (lineWord l a) == 8 && decide (a + 4 = next)
      match fetchCheck s next true with
      | some sub =>
        if needed then fetchTrap s sub next true
        else modCurCtx s fun x => { x with abandoned := some next }
      | none => fillLine s next cur

/-- Whether the agent at hand has fetch work to do: a line to fill that was not abandoned, or a word in an
abandoned line that it has come to fetch. -/
def fetchWanted (s : State) : Bool :=
  let x := curCtx s
  let a := x.pc.toNat
  let next := a - a % 32 + 32
  match lineAt x a with
  | none => true
  | some l => (lineAt x next).isNone &&
      (x.abandoned != some next ||
        (!lineBad l a && instrLen (lineWord l a) == 8 && decide (a + 4 = next)))

/-- MACHINE_CHECK of an uncorrectable word in a fetch line (R169, R388). -/
def fetchBadTrap (s : State) (a : Nat) : State :=
  takeTrap s (trapVal s 0x13 (2 + a % 2 ^ 32 * 2 ^ 32))

/-! ### Issue (R100, R101) -/

/-- What the issue of an instruction does to the scheduler: the core has issued in this cycle, the strand's age
is cleared and its slot becomes the pointer of its effective class. -/
def noteIssue (s : State) (cls : Nat) : State :=
  match s.cur with
  | .strand sid k => modSite s sid (onCore fun c =>
      { modSlot c k (fun sl => { sl with age := 0, boost := 0 }) with
          lastIssue := s.time, issued := k, rr := tset c.rr cls k })
  | .sup sid => modSite s sid (onCore fun c => { c with lastIssue := s.time, issued := 16 })
  | .mgmt k => modMgmt s k fun m => { m with lastIssue := s.time }

/-- The effective class of a slot (R100, R101). -/
def effClass (c : Core) (k : Nat) : Nat :=
  let sl := slotOf c k
  let p := match groupOf c sl.grp with | some g => g.prio | none => 0
  min 3 (p + sl.boost)

/-- A machine check of a strand or management core that is to be delivered before it issues again (R169). -/
-- DEDUCED: log 17.
def dueCheck (s : State) : Option TrapVal :=
  match s.cur with
  | .mgmt k => (getMgmt s k).mcheck
  | _ => (strandOf (curSite s).core (curKey s)).mcheck
/-- That machine check delivered. -/
-- DEDUCED: log 17.
-- DEDUCED: log 42.
def deliverCheck (s : State) (v : TrapVal) : State :=
  let s := match s.cur with
    | .mgmt k => modMgmt s k fun m => { m with mcheck := none }
    | _ => modSite s (curSid s) (onCore fun c => modStrand c (curKey s) fun st => { st with mcheck := none })
  takeTrap s v

/-- What the issue of an agent comes to: nothing, a state after a trap of the fetch, or words to decode. -/
inductive Ready where
  | idle
  | trapped (s : State)
  | words (w0 w1 len : Nat) (s : State)
  deriving DecidableEq, Repr

/-- The issue of an agent's next instruction up to its decoding. -/
def readyOf (a : Agent) (s : State) : Ready :=
  let s := { s with cur := a }
  if !runs a s then .idle
  else match dueCheck s with
  | some v => .trapped (deliverCheck s v)
  | none =>
    let cls := match a with | .strand sid k => effClass (getSite s sid).core k | _ => 0
    match fetched (curCtx s) with
    | .absent => .idle
    | .bad w => .trapped (fetchBadTrap (noteIssue s cls) w)
    | .word w0 w1 len => .words w0 w1 len (noteIssue s cls)

/-- FETCH_LINE_FILL (R76): a fetch-line fill of a context completes. -/
def execFetchLineFill (s : State) : Res :=
  let t := { s with cur := agentOf (argAt s 0) (argAt s 1) }
  if runs t.cur t && fetchWanted t then .next (fetchWork t) else .next s

/-! ### An instruction placed where the machine fetches next -/

/-- Site 0 with group 0 running one strand in slot 0 at 0x4000, in an executable reserved page, and the instruction's words in that page and in the strand's fetch lines. -/
-- DESIGN CHOICE: log 3.
def placeWord (x : Site) (w : Nat) : Site :=
  let c := x.core
  let c := writePhys c 0 8 w
  let line (a p : Nat) : FetchLine := { base := a, data := BitVec.ofNat 256 (mread c.mem p 32) }
  let sl := slotOf c 0
  let ctx := { sl.ctx with pc := 0x4000, lines := [line 0x4000 0, line 0x4020 32], abandoned := none }
  let g : Group := (groupOf c 0).getD { uid := c.uids }
  let g := { g with st := .running, start := false, live := if g.live.contains 0 then g.live else 0 :: g.live }
  { x with life := .live, dead := false
           core := { c with pmap := tset c.pmap 4 (wordN (2 ^ 15 + 2 ^ 19))
                            slots := tset c.slots 0 { sl with st := .ready, grp := 0, idx := 0, ctx := ctx }
                            groups := tset c.groups 0 g
                            strands := terase c.strands 0
                            evict := { c.evict with st := .run } } }

end Sys2Proof.Machine
end

