-- ==== Sys2Proof/Machine/Scalar.lean ====
section
/-! DEFINITION. Scalar register and immediate operations (R137 to R149). -/

namespace Sys2Proof.Machine

/-- A result written to gd and the program counter moved past the instruction. -/
def retG (d : Nat) (v : Word) (s : State) : Res := done 4 (writeG s d v)

/-- A multiply or divide result of the agent at hand put in flight (R139): readable 3 or 18 cycles after it
issues. -/
def lateG (d : Nat) (v : Word) (div : Bool) (s : State) : State :=
  let p : Pending := { key := curKey s, d := if d = 0 then none else some d, val := v, div := div,
                       ready := s.time + (if div then 18 else 3) }
  match s.cur with
  | .mgmt k => modMgmt s k fun m => { m with scalars := m.scalars ++ [p] }
  | _ => modSite s (curSid s) (onCore fun c => { c with scalars := c.scalars ++ [p] })

/-- 1 for true, 0 for false. -/
def flagW (b : Bool) : Word := if b then 1 else 0
/-- The shifts of R142 by a whole amount. -/
def shlW (a : Word) (n : Nat) : Word := if n < 64 then a <<< n else 0
def shrW (a : Word) (n : Nat) : Word := if n < 64 then a >>> n else 0
def sarW (a : Word) (n : Nat) : Word := a.sshiftRight (Nat.min n 63)
/-- The rotation of R142. -/
def rolW (a : Word) (n : Nat) : Word := if n % 64 = 0 then a else (a <<< (n % 64)) ||| (a >>> (64 - n % 64))
/-- The high halves of the products (R141). -/
def mulhW (a b : Word) : Word := wordI (a.toInt * b.toInt / (2 ^ 64 : Nat))
def mulhnW (a b : Word) : Word := wordN (a.toNat * b.toNat / 2 ^ 64)
/-- The division family (R143). -/
def divW (a b : Word) : Word := if b = 0 then wordN (2 ^ 64 - 1) else wordI (a.toInt.tdiv b.toInt)
def divnW (a b : Word) : Word := if b = 0 then wordN (2 ^ 64 - 1) else wordN (a.toNat / b.toNat)
def remW (a b : Word) : Word := if b = 0 then a else wordI (a.toInt - a.toInt.tdiv b.toInt * b.toInt)
def remnW (a b : Word) : Word := if b = 0 then a else wordN (a.toNat % b.toNat)
/-- The position and width of a bit field (R145). -/
def bfPos (b : Nat) : Nat := b % 64
def bfWid (b : Nat) : Nat := Nat.min (b / 256 % 128) (64 - bfPos b)
def bfxW (a : Word) (b : Nat) : Word := wordN (a.toNat / 2 ^ bfPos b % 2 ^ bfWid b)
def bfiW (d a : Word) (b : Nat) : Word :=
  wordN (d.toNat - d.toNat / 2 ^ bfPos b % 2 ^ bfWid b * 2 ^ bfPos b + a.toNat % 2 ^ bfWid b * 2 ^ bfPos b)
/-- A 14-bit signed immediate as a word (R146). -/
def immW (i : Nat) : Word := wordI (sext i 14)
/-- The target of a 20-bit field: the instruction's own address plus four times the field (R80, R149). -/
def farTarget (s : State) (o : Nat) : Word := curPc s + wordI (4 * sext o 20)
/-- The target of a branch (R80). -/
def nearTarget (s : State) (o : Nat) : Word := curPc s + wordI (4 * sext o 14)

/-- ADD: the sum (R141). -/
def execAdd (d a b : Nat) (s : State) : Res :=
  issue (.add d a b) s fun s => retG d (readG s a + readG s b) s

/-- SUB: the difference (R141). -/
def execSub (d a b : Nat) (s : State) : Res :=
  issue (.sub d a b) s fun s => retG d (readG s a - readG s b) s

/-- AND, bit by bit (R141). -/
def execAnd (d a b : Nat) (s : State) : Res :=
  issue (.and d a b) s fun s => retG d (readG s a &&& readG s b) s

/-- OR, bit by bit (R141). -/
def execOr (d a b : Nat) (s : State) : Res :=
  issue (.or d a b) s fun s => retG d (readG s a ||| readG s b) s

/-- XOR, bit by bit (R141). -/
def execXor (d a b : Nat) (s : State) : Res :=
  issue (.xor d a b) s fun s => retG d (readG s a ^^^ readG s b) s

/-- ANDN: A AND NOT B (R141). -/
def execAndn (d a b : Nat) (s : State) : Res :=
  issue (.andn d a b) s fun s => retG d (readG s a &&& ~~~(readG s b)) s

/-- SHL: left by the whole of B (R142). -/
def execShl (d a b : Nat) (s : State) : Res :=
  issue (.shl d a b) s fun s => retG d (shlW (readG s a) (readG s b).toNat) s

/-- SHR: logically right by the whole of B (R142). -/
def execShr (d a b : Nat) (s : State) : Res :=
  issue (.shr d a b) s fun s => retG d (shrW (readG s a) (readG s b).toNat) s

/-- SAR: arithmetically right by the whole of B (R142). -/
def execSar (d a b : Nat) (s : State) : Res :=
  issue (.sar d a b) s fun s => retG d (sarW (readG s a) (readG s b).toNat) s

/-- ROL: left rotation by B modulo 64 (R142). -/
def execRol (d a b : Nat) (s : State) : Res :=
  issue (.rol d a b) s fun s => retG d (rolW (readG s a) (readG s b).toNat) s

/-- MUL: the low half of the product (R141). -/
def execMul (d a b : Nat) (s : State) : Res :=
  issue (.mul d a b) s fun s => done 4 (lateG d (readG s a * readG s b) false s)

/-- MULH: the high half of the signed product (R141). -/
def execMulh (d a b : Nat) (s : State) : Res :=
  issue (.mulh d a b) s fun s => done 4 (lateG d (mulhW (readG s a) (readG s b)) false s)

/-- MULHN: the high half of the unsigned product (R141). -/
def execMulhn (d a b : Nat) (s : State) : Res :=
  issue (.mulhn d a b) s fun s => done 4 (lateG d (mulhnW (readG s a) (readG s b)) false s)

/-- DIV: the signed quotient, rounded toward zero (R143). -/
def execDiv (d a b : Nat) (s : State) : Res :=
  issue (.div d a b) s fun s => done 4 (lateG d (divW (readG s a) (readG s b)) true s)

/-- DIVN: the unsigned quotient (R143). -/
def execDivn (d a b : Nat) (s : State) : Res :=
  issue (.divn d a b) s fun s => done 4 (lateG d (divnW (readG s a) (readG s b)) true s)

/-- REM: the signed remainder (R143). -/
def execRem (d a b : Nat) (s : State) : Res :=
  issue (.rem d a b) s fun s => done 4 (lateG d (remW (readG s a) (readG s b)) true s)

/-- REMN: the unsigned remainder (R143). -/
def execRemn (d a b : Nat) (s : State) : Res :=
  issue (.remn d a b) s fun s => done 4 (lateG d (remnW (readG s a) (readG s b)) true s)

/-- MIN: the smaller as signed (R141). -/
def execMin (d a b : Nat) (s : State) : Res :=
  issue (.min d a b) s fun s => retG d (if (readG s a).slt (readG s b) then readG s a else readG s b) s

/-- MAX: the larger as signed (R141). -/
def execMax (d a b : Nat) (s : State) : Res :=
  issue (.max d a b) s fun s => retG d (if (readG s a).slt (readG s b) then readG s b else readG s a) s

/-- MINN: the smaller as unsigned (R141). -/
def execMinn (d a b : Nat) (s : State) : Res :=
  issue (.minn d a b) s fun s => retG d (if (readG s a).ult (readG s b) then readG s a else readG s b) s

/-- MAXN: the larger as unsigned (R141). -/
def execMaxn (d a b : Nat) (s : State) : Res :=
  issue (.maxn d a b) s fun s => retG d (if (readG s a).ult (readG s b) then readG s b else readG s a) s

/-- SLT: 1 if A is less as signed (R141). -/
def execSlt (d a b : Nat) (s : State) : Res :=
  issue (.slt d a b) s fun s => retG d (flagW ((readG s a).slt (readG s b))) s

/-- SLTN: 1 if A is less as unsigned (R141). -/
def execSltn (d a b : Nat) (s : State) : Res :=
  issue (.sltn d a b) s fun s => retG d (flagW ((readG s a).ult (readG s b))) s

/-- SEQ: 1 if equal (R141). -/
def execSeq (d a b : Nat) (s : State) : Res :=
  issue (.seq d a b) s fun s => retG d (flagW (readG s a == readG s b)) s

/-- SEL: A where gd is not zero, else B (R144). -/
def execSel (d a b : Nat) (s : State) : Res :=
  issue (.sel d a b) s fun s => retG d (if readG s d ≠ 0 then readG s a else readG s b) s

/-- CLZ: leading zero bits (R141). -/
def execClz (d a : Nat) (s : State) : Res :=
  issue (.clz d a) s fun s => retG d (wordN (64 - bitLen (readG s a).toNat)) s

/-- CTZ: trailing zero bits (R141). -/
def execCtz (d a : Nat) (s : State) : Res :=
  issue (.ctz d a) s fun s => retG d (wordN (ctzN 64 (readG s a).toNat)) s

/-- POPC: one bits (R141). -/
def execPopc (d a : Nat) (s : State) : Res :=
  issue (.popc d a) s fun s => retG d (wordN (popN 64 (readG s a).toNat)) s

/-- BFX: a field extracted (R145). -/
def execBfx (d a b : Nat) (s : State) : Res :=
  issue (.bfx d a b) s fun s => retG d (bfxW (readG s a) (readG s b).toNat) s

/-- BFI: a field inserted (R145). -/
def execBfi (d a b : Nat) (s : State) : Res :=
  issue (.bfi d a b) s fun s => retG d (bfiW (readG s d) (readG s a) (readG s b).toNat) s

/-- ADDI, with a sign-extended immediate (R146). -/
def execAddi (d a i : Nat) (s : State) : Res :=
  issue (.addi d a i) s fun s => retG d (readG s a + immW i) s

/-- ANDI, with a sign-extended immediate (R146). -/
def execAndi (d a i : Nat) (s : State) : Res :=
  issue (.andi d a i) s fun s => retG d (readG s a &&& immW i) s

/-- ORI, with a sign-extended immediate (R146). -/
def execOri (d a i : Nat) (s : State) : Res :=
  issue (.ori d a i) s fun s => retG d (readG s a ||| immW i) s

/-- XORI, with a sign-extended immediate (R146). -/
def execXori (d a i : Nat) (s : State) : Res :=
  issue (.xori d a i) s fun s => retG d (readG s a ^^^ immW i) s

/-- SHLI: a shift by an immediate (R147). -/
def execShli (d a sh : Nat) (s : State) : Res :=
  issue (.shli d a sh) s fun s => retG d (shlW (readG s a) sh) s

/-- SHRI: a shift by an immediate (R147). -/
def execShri (d a sh : Nat) (s : State) : Res :=
  issue (.shri d a sh) s fun s => retG d (shrW (readG s a) sh) s

/-- SARI: a shift by an immediate (R147). -/
def execSari (d a sh : Nat) (s : State) : Res :=
  issue (.sari d a sh) s fun s => retG d (sarW (readG s a) sh) s

/-- SLTI: 1 if A is below the immediate as signed (R146). -/
def execSlti (d a i : Nat) (s : State) : Res :=
  issue (.slti d a i) s fun s => retG d (flagW ((readG s a).slt (immW i))) s

/-- SLTIN: 1 if A is below the immediate as unsigned (R146). -/
def execSltin (d a i : Nat) (s : State) : Res :=
  issue (.sltin d a i) s fun s => retG d (flagW ((readG s a).ult (immW i))) s

/-- LUI: the sign-extended immediate shifted left by 14 (R148). -/
def execLui (d i : Nat) (s : State) : Res :=
  issue (.lui d i) s fun s => retG d (wordI (sext i 20 * 16384)) s

/-- ADRP: its own address plus four times the immediate (R149). -/
def execAdrp (d i : Nat) (s : State) : Res :=
  issue (.adrp d i) s fun s => retG d (farTarget s i) s

end Sys2Proof.Machine
end

