-- ==== Sys2Proof/Machine/Control.lean ====
section
/-! DEFINITION. Branches, jumps and control (R150 to R159), but for EXIT, and the events of issue: results
in flight, ages and the end of a YIELD. -/

namespace Sys2Proof.Machine

/-- A branch: to its target when taken, else past it (R150). -/
def branch (taken : Bool) (o : Nat) (s : State) : Res :=
  if taken then .next (jumpTo s (nearTarget s o)) else done 4 s

/-- BEQ: taken if equal (R150). -/
def execBeq (a b o : Nat) (s : State) : Res :=
  issue (.beq a b o) s fun s => branch (readG s a == readG s b) o s

/-- BNE: taken if not equal (R150). -/
def execBne (a b o : Nat) (s : State) : Res :=
  issue (.bne a b o) s fun s => branch (readG s a != readG s b) o s

/-- BLT: taken if less as signed (R150). -/
def execBlt (a b o : Nat) (s : State) : Res :=
  issue (.blt a b o) s fun s => branch ((readG s a).slt (readG s b)) o s

/-- BGE: taken if not less as signed (R150). -/
def execBge (a b o : Nat) (s : State) : Res :=
  issue (.bge a b o) s fun s => branch (!(readG s a).slt (readG s b)) o s

/-- BLTN: taken if less as unsigned (R150). -/
def execBltn (a b o : Nat) (s : State) : Res :=
  issue (.bltn a b o) s fun s => branch ((readG s a).ult (readG s b)) o s

/-- BGEN: taken if not less as unsigned (R150). -/
def execBgen (a b o : Nat) (s : State) : Res :=
  issue (.bgen a b o) s fun s => branch (!(readG s a).ult (readG s b)) o s

/-- JAL: the link written, then to the target (R151). -/
def execJal (d o : Nat) (s : State) : Res :=
  issue (.jal d o) s fun s => .next (jumpTo (writeG s d (curPc s + 4)) (farTarget s o))

/-- JALR: to A plus the immediate, A read before the link is written (R152). -/
def execJalr (d a i : Nat) (s : State) : Res :=
  issue (.jalr d a i) s fun s => .next (jumpTo (writeG s d (curPc s + 4)) (readG s a + immW i))

/-- NOP (R155). -/
def execNop (s : State) : Res := issue .nop s (done 4)

/-- YIELD: no candidate in the 16 cycles that follow (R103, R156). -/
def execYield (s : State) : Res :=
  issue .yield s fun s =>
    let t := s.time + 17
    done 4 (match s.cur with
      | .strand sid k => modSite s sid (onCore fun c => modSlot c k fun sl => { sl with yieldTo := t })
      | .sup sid => modSite s sid (onCore fun c => { c with sup := { c.sup with yieldTo := t } })
      | .mgmt k => modMgmt s k fun m => { m with yieldTo := t })

/-- The width of a level in a WSHAPE (R28), and the value of a level of an identifier (R27). -/
def levelWidth (wshape i : Nat) : Nat := wshape / 64 ^ i % 64
def levelLow (wshape i : Nat) : Nat := ((upto 6).filterMap fun j => if i < j then some (levelWidth wshape j) else none).sum
def levelValue (wid wshape i : Nat) : Nat := wid / 2 ^ levelLow wshape i % 2 ^ levelWidth wshape i
/-- Whether the widths of a WSHAPE sum to at most 64 (R28). -/
def wshapeOk (wshape : Nat) : Bool := decide (((upto 6).map fun j => levelWidth wshape j).sum ≤ 64)

/-- WID: a level of the work identifier, or the WSHAPE (R158). -/
def execWid (d b : Nat) (s : State) : Res :=
  issue (.wid d b) s fun s =>
    let g := actGroupVal s
    retG d (if b = 6 then wordN g.wshape else wordN (levelValue g.wid.toNat g.wshape b)) s

/-- The rim site of a management core (R17): the middle of its side. -/
def rimSite (k : Nat) : Nat :=
  let w := k / 4
  match k % 4 with
  | 0 => siteAt w 96 0
  | 1 => siteAt w 191 96
  | 2 => siteAt w 96 191
  | _ => siteAt w 0 96

/-- TIME: the wafer time in the cycle of issue (R159). -/
def execTime (d : Nat) (s : State) : Res :=
  issue (.time d) s fun s =>
    let sid := match s.cur with | .mgmt k => rimSite k | _ => curSid s
    retG d (wordN (siteTime s.time sid)) s

/-- SCALAR_RESULT_WRITE (R139): a multiply or divide result is written once its latency has passed. -/
def execScalarResultWrite (s : State) : Res :=
  let sid := argAt s 0
  if argAt s 2 = 1 then
    match (getMgmt s sid).scalars[argAt s 1]? with
    | some p =>
      if s.time < p.ready then .next s
      else .next (modMgmt s sid fun m =>
        { m with scalars := m.scalars.eraseIdx (argAt s 1)
                 ctx := match p.d with | some d => setResident m.ctx d p.val | none => m.ctx })
    | none => .next s
  else
    match (getSite s sid).core.scalars[argAt s 1]? with
    | some p =>
      if s.time < p.ready then .next s
      else .next (modSite s sid (onCore fun c =>
        deliverG? { c with scalars := c.scalars.eraseIdx (argAt s 1) } p.key p.d p.val))
    | none => .next s

end Sys2Proof.Machine
end

