-- ==== Sys2Proof/Machine/Local.lean ====
section
/-! DEFINITION. Local loads, stores, atomics and FENCE, and the performance of local accesses with error
correction (R163 to R178). -/

namespace Sys2Proof.Machine

/-! ### Issue of an access -/

/-- An access of the agent at hand put among those that have issued (R165). -/
def addAccess (s : State) (x : Access) : State :=
  let x := { x with key := curKey s, pc := curPc s, ready := s.time + 1 }
  match s.cur with
  | .mgmt k => modMgmt s k fun m => { m with accesses := m.accesses ++ [{ x with id := m.accIds }], accIds := m.accIds + 1 }
  | _ => modSite s (curSid s) (onCore fun c =>
      { c with accesses := c.accesses ++ [{ x with id := c.accIds }], accIds := c.accIds + 1 })

/-- A destination register, none for g0. -/
def destG (d : Nat) : Option Nat := if d = 0 then none else some d

/-- An instruction whose one local access is checked (R163) and issued when the checks pass. -/
def access (ea n al : Nat) (rd wr : Bool) (stream : Nat) (units : List AUnit) (fin : AFin) (s : State) : Res :=
  match checkHere s ea n al rd wr with
  | some f => .next (takeTrap s (accTrap f wr stream 0 ea (curPc s)))
  | none => done 4 (addAccess s { id := 0, key := 0, stream := stream, rd := rd, wr := wr, ea := ea,
                                  units := units, fin := fin })

/-- The effective address of the M format (R80, R171). -/
def effAddr (s : State) (a o n : Nat) : Nat := (readG s a).toNat + o * n

/-- A scalar load (R171). -/
def loadG (d a st o n : Nat) (signed : Bool) (s : State) : Res :=
  let ea := effAddr s a o n
  access ea n n true false st [.read ea n 0] (.load n signed (destG d)) s

/-- A scalar store (R171). -/
def storeG (d a st o n : Nat) (s : State) : Res :=
  let ea := effAddr s a o n
  access ea n n false true st [.write ea n ((readG s d).toNat % 256 ^ n)] .none s

/-- A local atomic (R173). -/
def atomicG (d a b st op : Nat) (s : State) : Res :=
  let ea := (readG s a).toNat
  access ea 8 8 true true st [.rmw ea op (readG s b) (readG s d)] (.atomic (destG d)) s

/-- LDB: a load of 1 byte, sign-extended (R171). -/
def execLdb (d a s o : Nat) (σ : State) : Res :=
  issue (.ldb d a s o) σ (loadG d a s o 1 true)

/-- LDBN: a load of 1 byte, zero-extended (R171). -/
def execLdbn (d a s o : Nat) (σ : State) : Res :=
  issue (.ldbn d a s o) σ (loadG d a s o 1 false)

/-- LDH: a load of 2 bytes, sign-extended (R171). -/
def execLdh (d a s o : Nat) (σ : State) : Res :=
  issue (.ldh d a s o) σ (loadG d a s o 2 true)

/-- LDHN: a load of 2 bytes, zero-extended (R171). -/
def execLdhn (d a s o : Nat) (σ : State) : Res :=
  issue (.ldhn d a s o) σ (loadG d a s o 2 false)

/-- LDW: a load of 4 bytes, sign-extended (R171). -/
def execLdw (d a s o : Nat) (σ : State) : Res :=
  issue (.ldw d a s o) σ (loadG d a s o 4 true)

/-- LDWN: a load of 4 bytes, zero-extended (R171). -/
def execLdwn (d a s o : Nat) (σ : State) : Res :=
  issue (.ldwn d a s o) σ (loadG d a s o 4 false)

/-- LDD: a load of 8 bytes, zero-extended (R171). -/
def execLdd (d a s o : Nat) (σ : State) : Res :=
  issue (.ldd d a s o) σ (loadG d a s o 8 false)

/-- STB: a store of 1 byte (R171). -/
def execStb (d a s o : Nat) (σ : State) : Res :=
  issue (.stb d a s o) σ (storeG d a s o 1)

/-- STH: a store of 2 bytes (R171). -/
def execSth (d a s o : Nat) (σ : State) : Res :=
  issue (.sth d a s o) σ (storeG d a s o 2)

/-- STW: a store of 4 bytes (R171). -/
def execStw (d a s o : Nat) (σ : State) : Res :=
  issue (.stw d a s o) σ (storeG d a s o 4)

/-- STD: a store of 8 bytes (R171). -/
def execStd (d a s o : Nat) (σ : State) : Res :=
  issue (.std d a s o) σ (storeG d a s o 8)

/-- LADD: a local atomic (R173). -/
def execLadd (d a b s : Nat) (σ : State) : Res :=
  issue (.ladd d a b s) σ (atomicG d a b s 0)

/-- LMIN: a local atomic (R173). -/
def execLmin (d a b s : Nat) (σ : State) : Res :=
  issue (.lmin d a b s) σ (atomicG d a b s 1)

/-- LMAX: a local atomic (R173). -/
def execLmax (d a b s : Nat) (σ : State) : Res :=
  issue (.lmax d a b s) σ (atomicG d a b s 2)

/-- LAND: a local atomic (R173). -/
def execLand (d a b s : Nat) (σ : State) : Res :=
  issue (.land d a b s) σ (atomicG d a b s 3)

/-- LOR: a local atomic (R173). -/
def execLor (d a b s : Nat) (σ : State) : Res :=
  issue (.lor d a b s) σ (atomicG d a b s 4)

/-- LXOR: a local atomic (R173). -/
def execLxor (d a b s : Nat) (σ : State) : Res :=
  issue (.lxor d a b s) σ (atomicG d a b s 5)

/-- LSWP: a local atomic (R173). -/
def execLswp (d a b s : Nat) (σ : State) : Res :=
  issue (.lswp d a b s) σ (atomicG d a b s 6)

/-- LCAS: a local atomic (R173). -/
def execLcas (d a b s : Nat) (σ : State) : Res :=
  issue (.lcas d a b s) σ (atomicG d a b s 7)

/-! ### Vector accesses -/

/-- The four lines of a vector access (R177). -/
def vecReads (ea : Nat) : List AUnit := (upto 4).map fun k => .read (ea + 32 * k) 32 (32 * k)
def vecWrites (ea v : Nat) : List AUnit := (upto 4).map fun k => .write (ea + 32 * k) 32 (v / 2 ^ (256 * k) % 2 ^ 256)

/-- VLD: 128 bytes into a vector register (R177). -/
def execVld (d a s o : Nat) (σ : State) : Res :=
  issue (.vld d a s o) σ fun σ =>
    let ea := effAddr σ a o 128
    access ea 128 128 true false s (vecReads ea) (.vec (some d)) σ

/-- VST: 128 bytes from a vector register (R177). -/
def execVst (d a s o : Nat) (σ : State) : Res :=
  issue (.vst d a s o) σ fun σ =>
    let ea := effAddr σ a o 128
    access ea 128 128 false true s (vecWrites ea (vGet (curCtx σ) d).toNat) .none σ

/-- Bytes of a width code (R178): .w, .h, .b. -/
def widthBytes (w : Nat) : Nat := if w = 0 then 4 else if w = 1 then 2 else 1

/-- The enabled lanes of a gather or scatter: lane and address (R178). -/
def lanesOf (s : State) (q b : Nat) : List (Nat × Nat) :=
  let m := (qGet (curCtx s) q).toNat
  let v := (vGet (curCtx s) b).toNat
  (upto 32).filterMap fun i => if bitN m (4 * i) then some (i, bitsN v (32 * i + 31) (32 * i)) else none

/-- The first lane whose check fails. -/
def laneFault (s : State) (w : Nat) (wr : Bool) : List (Nat × Nat) → Option (Nat × Nat × AccFault)
  | [] => none
  | (i, ea) :: l =>
    match checkHere s ea w w (!wr) wr with
    | some f => some (i, ea, f)
    | none => laneFault s w wr l

/-- The lines that lanes touch, in the order of their lowest lane. -/
def linesOf (l : List (Nat × Nat)) : List Nat :=
  l.foldl (fun acc e => if acc.contains (e.2 / 32) then acc else acc ++ [e.2 / 32]) []

/-- VGATH: masked lanes gathered, the lanes of one line together (R178). -/
def execVgath (d a b w s : Nat) (σ : State) : Res :=
  issue (.vgath d a b w s) σ fun σ =>
    let n := widthBytes w
    let lanes := lanesOf σ a b
    match laneFault σ n false lanes with
    | some (i, ea, f) => .next (takeTrap σ (accTrap f false s i ea (curPc σ)))
    | none =>
      let units := (linesOf lanes).map fun ln =>
        AUnit.gather ((lanes.filter fun e => e.2 / 32 == ln).map fun e => (e.1, e.2, n))
      if lanes = [] then done 4 (modCurCtx σ fun x => vSet x d 0)
      else done 4 (addAccess σ { id := 0, key := 0, stream := s, rd := true, wr := false, units := units,
                                 ea := (lanes.map fun e => e.2).headD 0, fin := .vec (some d) })

/-- VSCAT: masked lanes scattered, the lanes of one line together in ascending order (R178). -/
def execVscat (d a b w s : Nat) (σ : State) : Res :=
  issue (.vscat d a b w s) σ fun σ =>
    let n := widthBytes w
    let lanes := lanesOf σ a b
    let v := (vGet (curCtx σ) d).toNat
    match laneFault σ n true lanes with
    | some (i, ea, f) => .next (takeTrap σ (accTrap f true s i ea (curPc σ)))
    | none =>
      let units := (linesOf lanes).map fun ln =>
        AUnit.scatter ((lanes.filter fun e => e.2 / 32 == ln).map fun e =>
          (e.1, e.2, n, v / 2 ^ (32 * e.1) % 256 ^ n))
      if lanes = [] then done 4 σ
      else done 4 (addAccess σ { id := 0, key := 0, stream := s, rd := false, wr := true, units := units,
                                 ea := (lanes.map fun e => e.2).headD 0 })

/-! ### FENCE -/

/-- Whether an access is one that a FENCE joins: in a stream of the mask and of a kind of the kinds. -/
def joined (mask kinds : Nat) (x : Access) : Bool :=
  bitN mask x.stream && ((x.rd && bitN kinds 0) || (x.wr && bitN kinds 1))

/-- Whether an outstanding operation is a remote write (R318). -/
def isRemoteWrite (o : Outst) : Bool := o.kind == .rst

/-- Whether a strand's accesses leave a FENCE open (R174). -/
def fenceOpen (c : Core) (key mask kinds : Nat) : Bool :=
  (c.accesses.any fun x => x.key == key && joined mask kinds x) ||
  (bitN kinds 2 && c.outs.any fun o => o.key == key && !o.dead && isRemoteWrite o && bitN mask o.pkt.stream)

/-- Whether a deferred remote fault of a strand is due at a wait that covers the streams of a mask (R320). -/
def deferredDue (c : Core) (key : Nat) (covers : Nat × Nat × Nat → Bool) : Option TrapVal :=
  let st := strandOf c key
  match st.deferred with
  | some v => if st.deferredOf.any covers then some v else none
  | none => none

/-- A deferred fault delivered: the record is spent (R320). -/
def dropDeferred (c : Core) (key : Nat) : Core :=
  modStrand c key fun st => { st with deferred := none, deferredOf := [] }

/-- The deferred fault that a FENCE delivers (R320). -/
def fenceFault (c : Core) (key mask kinds : Nat) : Option TrapVal :=
  if bitN kinds 2 then deferredDue c key (fun e => bitN mask e.1) else none
/-- FENCE: completes once the accesses it joins have performed (R174); a deferred fault that it covers traps, whatever is
still outstanding (R320). -/
def execFence (m k : Nat) (s : State) : Res :=
  issue (.fence m k) s fun s =>
    match s.cur with
    | .mgmt c =>
      if (getMgmt s c).accesses.any (joined m k) then
        .next (modMgmt s c fun x => { x with wait := .fence m k })
      else done 4 s
    | _ =>
      let x := curSite s
      let key := curKey s
      match fenceFault x.core key m k with
      | some v => .next (takeTrap (modSite s (curSid s) (onCore fun c => dropDeferred c key)) { v with pc := curPc s })
      | none =>
        if fenceOpen x.core key m k then .next (modSite s (curSid s) (onCore fun c => setWait c key (.fence m k) 4))
        else done 4 s

/-! ### Performance -/

/-- What a unit does when its bank serves it: it meets an uncorrectable word, or it makes writes (physical
offset, bytes, value) and leaves a result. -/
inductive Did where
  | bad (word : Nat) (lane : Nat)
  | did (writes : List (Nat × Nat × Nat)) (acc : Nat)
  deriving DecidableEq, Repr

/-- The new value of a local or remote atomic, none where nothing is written (R173, R326): operation, width in
bits, old value, operand, expected value. -/
def rmwNew (op n old b c : Nat) : Option Nat :=
  match op with
  | 0 => some ((old + b) % 2 ^ n)
  | 1 => some (if sext old n < sext b n then old else b)
  | 2 => some (if sext old n > sext b n then old else b)
  | 3 => some (old &&& b)
  | 4 => some (old ||| b)
  | 5 => some (old ^^^ b)
  | 6 => some b
  | _ => if old = c then some b else none

/-- The unit of an access on a memory, addresses translated by tr (R165, R166, R169). -/
-- DESIGN CHOICE: log 32.
def doUnit (m : Mem) (bad : List Nat) (tr : Nat → Nat) (u : AUnit) (acc : Nat) : Did :=
  match u with
  | .read a n o =>
    match badIn bad (tr a) n with
    | some w => .bad w 0
    | none => .did [] (acc + mread m (tr a) n * 256 ^ o)
  | .write a n x =>
    let p := tr a
    if n < 8 then
      match badIn bad p n with
      | some w => .bad w 0
      | none => .did [(p, n, x)] acc
    else .did [(p, n, x)] acc
  | .rmw a op b c =>
    let p := tr a
    match badIn bad p 8 with
    | some w => .bad w 0
    | none =>
      let old := mread m p 8
      match rmwNew op 64 old b.toNat c.toNat with
      | some new => .did [(p, 8, new)] old
      | none => .did [] old
  | .gather lanes =>
    match lanes.findSome? fun e => (badIn bad (tr e.2.1) e.2.2).map fun w => (w, e.1) with
    | some (w, i) => .bad w i
    | none => .did [] (lanes.foldl (fun r e => r + mread m (tr e.2.1) e.2.2 * 2 ^ (32 * e.1)) acc)
  | .scatter lanes =>
    match lanes.findSome? fun e => (badIn bad (tr e.2.1) e.2.2.1).map fun w => (w, e.1) with
    | some (w, i) => .bad w i
    | none => .did (lanes.map fun e => (tr e.2.1, e.2.2.1, e.2.2.2)) acc

/-- The physical runs a unit reads, with their errors to be noted (R169). -/
def unitReads (tr : Nat → Nat) : AUnit → List (Nat × Nat)
  | .read a n _ => [(tr a, n)]
  | .write a n _ => if n < 8 then [(tr a, n)] else []
  | .rmw a _ _ _ => [(tr a, 8)]
  | .gather lanes => lanes.map fun e => (tr e.2.1, e.2.2)
  | .scatter lanes => lanes.map fun e => (tr e.2.1, e.2.2.1)

/-- Whether unit u of access i may perform: no earlier access of its strand and stream is left, its cycle has
come, the engine has begun the operation it is of, and the groups of a gather or scatter go in order (R165, R178). -/
def mayPerform (l : List Access) (time i u : Nat) (started : Access → Bool) : Option Access :=
  match l.find? fun x => x.id == i with
  | none => none
  | some x =>
    let earlier := l.takeWhile fun y => y.id != i
    let ordered := match x.units with | .gather _ :: _ => true | .scatter _ :: _ => true | _ => false
    if decide (time < x.ready) || (earlier.any fun y => y.key == x.key && y.stream == x.stream) ||
       (ordered && u != 0) || !started x then none
    else if u < x.units.length then some x else none

/-- The access list with a unit of an access performed and its result kept; an access that has wholly performed
leaves the list. -/
-- DESIGN CHOICE: log 32.
-- DESIGN CHOICE: log 98.
def stepAccess (l : List Access) (x : Access) (u acc : Nat) (fin : AFin) : List Access :=
  let rest := x.units.eraseIdx u
  if rest = [] then l.filter fun y => y.id != x.id
  else l.map fun y => if y.id == x.id then { y with units := rest, acc := acc, fin := fin } else y

/-- MACHINE_CHECK of an uncorrectable word that a strand's access met (R169, R388). -/
def checkVal (x : Access) (lane : Nat) : TrapVal :=
  { cause := 0x13, pc := x.pc, deferred := true
    info := wordN (1 + b2n x.wr * 16 + x.stream * 2 ^ 8 + lane * 2 ^ 16 + x.ea % 2 ^ 32 * 2 ^ 32) }

/-- The address at which a unit of an access met an error: that of its lane, or of the whole access (R163, R169). -/
def unitEa (x : Access) (u : AUnit) (lane : Nat) : Nat :=
  match u with
  | .gather lanes => match lanes.find? fun e => e.1 == lane with | some e => e.2.1 | none => x.ea
  | .scatter lanes => match lanes.find? fun e => e.1 == lane with | some e => e.2.1 | none => x.ea
  | _ => x.ea

/-- The value a load writes (R171). -/
def loaded (n acc : Nat) (signed : Bool) : Word := if signed then wordI (sext acc (8 * n)) else wordN (acc % 256 ^ n)

/-- The payload of a SENDL packet read (R297): the packet with its payload, ready for local completion. -/
-- DESIGN CHOICE: log 51.
def setPayload (c : Core) (id acc : Nat) : Core :=
  { c with inj0 := c.inj0.map fun j =>
      if j.id == id then
        { j with reads := false
                 pkt := { j.pkt with payload := (upto j.pkt.len).map fun k => BitVec.ofNat 256 (acc / 2 ^ (256 * k)) } }
      else j }

/-- The list of an MCST read (R327). -/
def setList (c : Core) (key acc : Nat) : Core :=
  modStrand c key fun st => { st with pend := st.pend.map fun p => match p with
    | .mcst p z n rel _ => .mcst p z n rel (some acc)
    | p => p }
/-- The result of a core's access delivered once it has wholly performed. -/
-- DESIGN CHOICE: log 98.
def finish (c : Core) (x : Access) (acc : Nat) : Core :=
  match x.fin with
  | .none => c
  | .load n sg d => deliverG? c x.key d (loaded n acc sg)
  | .atomic d => deliverG? c x.key d (wordN acc)
  | .vec d => match d with | some d => deliverV c x.key d (BitVec.ofNat 1024 acc) | none => c
  | .sendl id => setPayload c id acc
  | .list => setList c x.key acc
  | .engine => { c with tensor := { c.tensor with cur := c.tensor.cur.map fun o => { o with data := some acc } } }

/-- Whether the tensor engine has begun the operation an access is of; other accesses need none. -/
def engineBegun (c : Core) (x : Access) : Bool :=
  x.fin != .engine || (c.evict.st == .run && (match c.tensor.cur with | some o => o.acc == some x.id | none => false))
/-- The operation that executes marked for an uncorrectable operand (R241). -/
def poisonCur (c : Core) : Core := { c with tensor := { c.tensor with cur := c.tensor.cur.map fun o => { o with bad := true } } }

/-- A machine check kept for a strand that still exists, to be delivered before it issues again; an earlier one
stays. -/
def keepCheck (c : Core) (key : Nat) (v : TrapVal) : Core :=
  if key = supKey ∨ (findSlot c key).isSome ∨ (strandOf c key).saved.isSome then
    modStrand c key fun st => { st with mcheck := some (st.mcheck.getD v) }
  else c

/-- LOCAL_ACCESS_PERFORM on a core. -/
def performAt (x : Site) (time i u : Nat) : Site :=
  let c := x.core
  match mayPerform c.accesses time i u (engineBegun c) with
  | none => x
  | some a =>
    let un := a.units.getD u (.read 0 0 0)
    let tr := physVia c a.via
    let c := (unitReads tr un).foldl (fun c r => noteRead c r.1 r.2) c
    match doUnit c.mem c.bad tr un a.acc with
    | .bad _ lane =>
      let (fin, acc) := match a.fin, un with
        | .sendl i, .read _ n o => (AFin.sendl i, a.acc + Config.badData time a.id % 256 ^ n * 256 ^ o)
        | .engine, .read _ n o => (AFin.engine, a.acc + Config.badData time a.id % 256 ^ n * 256 ^ o)
        | _, _ => (AFin.none, a.acc)
      let c := { c with accesses := stepAccess c.accesses a u acc fin }
      let c := if a.fin = .list then endWait (noWait c a.key) a.key false else c
      let c := if a.fin = .engine then poisonCur c
        else keepCheck c a.key (checkVal { a with ea := unitEa a un lane } lane)
      countUes { x with core := if a.units.length = 1 then finish c { a with fin := fin } acc else c } (badWords x.core.bad (unitReads tr un))
        (if a.fin = .engine then 2 else 0)
    | .did ws acc =>
      let c := ws.foldl (fun c e => storePhys c e.1 e.2.1 e.2.2) c
      let c := { c with accesses := stepAccess c.accesses a u acc a.fin }
      { x with core := if a.units.length = 1 then finish c a acc else c }

/-- A write of a management core's store (R392). -/
def writeStore (m : Mgmt) (p n v : Nat) : Mgmt :=
  let fresh (b : Nat) : Bool := decide (p ≤ b) && decide (b + 8 ≤ p + n)
  { m with store := mwrite m.store p n v
           bad := m.bad.filter fun b => !fresh b
           correctable := m.correctable.filter fun b => !fresh b
           found := m.found.filter fun b => !fresh b }

/-- LOCAL_ACCESS_PERFORM on a management core (R392). -/
def performMgmt (m : Mgmt) (time i u : Nat) : Mgmt :=
  match mayPerform m.accesses time i u fun _ => true with
  | none => m
  | some a =>
    let un := a.units.getD u (.read 0 0 0)
    let ws := badWords m.bad (unitReads id un)
    let m := (unitReads id un).foldl (fun m r => mgmtNoteRead m r.1 r.2) m
    match doUnit m.store m.bad id un a.acc with
    | .bad _ lane =>
      let m := { m with accesses := stepAccess m.accesses a u a.acc .none
                        mcheck := some (m.mcheck.getD (checkVal a lane)) }
      ws.foldl (fun m w => mgmtCountUe m w 0) m
    | .did ws acc =>
      let m := ws.foldl (fun m e => writeStore m e.1 e.2.1 e.2.2) m
      let m := { m with accesses := stepAccess m.accesses a u acc a.fin }
      match a.fin with
      | .load n sg (some d) => { m with ctx := setResident m.ctx d (loaded n acc sg) }
      | .atomic (some d) => { m with ctx := setResident m.ctx d (wordN acc) }
      | _ => m

/-- LOCAL_ACCESS_PERFORM (R165): a unit of a local access performs. -/
def execLocalAccessPerform (s : State) : Res :=
  let k := argAt s 0
  if argAt s 3 = 1 then .next (modMgmt s k fun m => performMgmt m s.time (argAt s 1) (argAt s 2))
  else .next (modSite s k fun x => performAt x s.time (argAt s 1) (argAt s 2))

/-- ECC_CORRECTION_WRITEBACK (R169): a corrected word that was read is rewritten and counted. -/
def execEccCorrectionWriteback (s : State) : Res :=
  let k := argAt s 0
  let w := argAt s 1
  if argAt s 2 = 1 then
    if (getMgmt s k).found.contains w then
      .next (modMgmt s k fun m =>
        let m := { m with found := m.found.filter fun b => b != w, correctable := m.correctable.filter fun b => b != w }
        setMreg m 0x052 (setBitsN (mreg m 0x052) 31 0 (bitsN (mreg m 0x052) 31 0 + 1)))
    else .next s
  else
    if (getSite s k).core.found.contains w then
      .next (modSite s k fun x =>
        let x := onCore (fun c => { c with found := c.found.filter fun b => b != w
                                           correctable := c.correctable.filter fun b => b != w }) x
        setRegF x 0x052 31 0 (regF x 0x052 31 0 + 1))
    else .next s

/-- SCRUB_LINE_READ (R170): the scrubber reads the next line, counts its uncorrectable words and has its
correctable words rewritten. -/
def execScrubLineRead (s : State) : Res :=
  .next (modSite s (argAt s 0) fun x =>
    let p := 32 * x.core.scrub
    let bads := (upto 4).filterMap fun k => if x.core.bad.contains (p + 8 * k) then some (p + 8 * k) else none
    let x := bads.foldl (fun x w => countUe x w 4) x
    onCore (fun c => { noteRead c p 32 with scrub := (c.scrub + 1) % 49152 }) x)

end Sys2Proof.Machine
end

