-- ==== Sys2Proof/Machine/Groups.lean ====
section
/-! DEFINITION. Groups and what they hold: resource vectors, the safety test, grants and releases, the end of
strands and groups, frames, and the start of a group (R42, R97 to R129). -/

namespace Sys2Proof.Machine

/-! ### Resource vectors (R116, R117, R119) -/

/-- A component of a resource vector by class: 0 B, 1 L, 2 T, 3 C. -/
def RVec.at (v : RVec) (k : Nat) : Nat :=
  match k with
  | 0 => v.b
  | 1 => v.l
  | 2 => v.t
  | _ => v.c
def rvAdd (u v : RVec) : RVec := { b := u.b + v.b, l := u.l + v.l, t := u.t + v.t, c := u.c + v.c }
def rvSub (u v : RVec) : RVec := { b := u.b - v.b, l := u.l - v.l, t := u.t - v.t, c := u.c - v.c }
def rvLe (u v : RVec) : Bool := decide (u.b ≤ v.b) && decide (u.l ≤ v.l) && decide (u.t ≤ v.t) && decide (u.c ≤ v.c)
/-- n of class k alone. -/
def rvOne (k n : Nat) : RVec :=
  { b := if k = 0 then n else 0, l := if k = 1 then n else 0, t := if k = 2 then n else 0,
    c := if k = 3 then n else 0 }
/-- The packed form of a resource vector, and its fields. -/
def rvecWord (v : RVec) : Word := wordN (v.b + v.l * 2 ^ 16 + v.t * 2 ^ 32 + v.c * 2 ^ 48)
def rvecOf (w : Word) : RVec := { b := bits w 15 0, l := bits w 31 16, t := bits w 47 32, c := bits w 63 48 }

/-- The allocatable size of each class (R21, R118). -/
def allocatable (x : Site) : RVec := { b := 48, l := 384 - resvL x, t := 8, c := 48 }

/-- The pages of releases that have not been applied: group, virtual page, physical page. -/
-- DEDUCED: log 37.
def leaving (c : Core) : List (Nat × Nat × Nat) :=
  c.tum.releases.flatMap fun r => match r with
    | .pages g ps _ => ps.map fun p => (g, p.1, p.2)
    | _ => []
/-- The pool pages of a group. -/
def ownPages (x : Site) (g : Nat) : List Nat :=
  x.core.pmap.filterMap fun e => if ePool x e.2.toNat && eOwner e.2.toNat == g then some e.1 else none
/-- What a group holds (R117). A resource whose release has not been applied still counts (R128). -/
def held (x : Site) (g : Nat) : RVec :=
  let c := x.core
  let gr := (groupOf c g).getD { uid := 0 }
  { b := (c.bankOf.filter fun e => e.2 / 16 == g).length
    l := (ownPages x g).length + ((leaving c).filter fun e => e.1 == g).length
    t := gr.slotsT.length
    c := gr.chans }
/-- What a group may still ask for; a DRAINING group never asks (R119). -/
def need (x : Site) (g : Nat) : RVec :=
  match groupOf x.core g with
  | some gr => if gr.st = .draining then {} else rvSub gr.claim (held x g)
  | none => {}
/-- The head of an invocation queue. -/
def headOf (c : Core) (cls : Nat) : Option QEntry := (tget [] c.invq cls).head?
/-- The vectors of the groups on a core: group, held, need. -/
def vectorsOf (x : Site) : List (Nat × RVec × RVec) := x.core.groups.map fun e => (e.1, held x e.1, need x e.1)
/-- The head of class 3 from the moment its grant is found safe until it is admitted (R108). -/
-- DEDUCED: log 41.
def promised (x : Site) : List (Nat × RVec × RVec) :=
  if x.core.tum.urgent then
    match headOf x.core 3 with
    | some q => [(16, q.entry.grant, rvSub q.entry.claim q.entry.grant)]
    | none => []
  else []
/-- The sum of what is held. -/
def heldSum (l : List (Nat × RVec × RVec)) : RVec := l.foldl (fun v e => rvAdd v e.2.1) {}
/-- What is available on a core (R117). -/
def available (x : Site) : RVec := rvSub (allocatable x) (heldSum (vectorsOf x))
/-- The vectors the safety test counts. -/
-- DEDUCED: log 41.
def counted (x : Site) : List (Nat × RVec × RVec) := vectorsOf x ++ promised x

/-- The safety procedure on held and need vectors (R119); the fuel is the number of groups. -/
def safeLoop : Nat → List (RVec × RVec) → RVec → Bool
  | 0, l, _ => l.isEmpty
  | n + 1, l, w =>
    match l.findIdx? fun e => rvLe e.2 w with
    | none => l.isEmpty
    | some i => safeLoop n (l.eraseIdx i) (rvAdd w (l.getD i ({}, {})).1)
def safe (l : List (RVec × RVec)) (w : RVec) : Bool := safeLoop l.length l w

/-! ### Banks (R121) -/

/-- The pooled banks that belong to no strand, lowest first. -/
def freeBanks (c : Core) : List Nat := (upto 48).filter fun b => (tget? c.bankOf b).isNone
/-- The bank map of a strand: strand bank numbers and pooled banks, from its slot or its frame. -/
def strandBanks (c : Core) (key : Nat) : List (Nat × Nat) :=
  match (strandOf c key).saved with
  | some page => (upto 6).filterMap fun k => (frameBank c.mem page (k + 2)).map fun b => (k + 2, b)
  | none => (ctxOf c key).banks
/-- The unmapped strand bank numbers, lowest first. -/
def freeNumbers (c : Core) (key : Nat) : List Nat :=
  let l := strandBanks c key
  ((upto 6).map fun k => k + 2).filter fun k => !(l.any fun e => e.1 == k)
/-- A strand bank number mapped to a pooled bank, or unmapped. -/
def setBank (c : Core) (key k : Nat) (b : Option Nat) : Core :=
  match (strandOf c key).saved with
  | some page => clearMark (frameWrite c (page * 4096 + 0x98 + (k - 2)) 1 (b.getD 0xFF)) key fun e => e.1 == 0 && e.2 / 8 == k
  | none => modCtxOf c key fun x =>
    { x with banks := match b with | some b => tset x.banks k b | none => terase x.banks k
             parity := x.parity.filter fun e => !(e.1 == 0 && e.2 / 8 == k) }
/-- The eight registers of a pooled bank zero. -/
def zeroBank (c : Core) (b : Nat) : Core := { c with pool := c.pool.filter fun e => e.1 / 8 != b }
/-- A pooled bank given to a strand at a strand bank number. -/
def giveBank (c : Core) (key k b : Nat) : Core :=
  let c := setBank (zeroBank c b) key k (some b)
  { c with bankOf := tset c.bankOf b key }
/-- n banks granted to a strand: the core and the mask of the bank numbers. -/
def grantBanks (c : Core) (key n : Nat) : Core × Nat :=
  let l := ((freeNumbers c key).zip (freeBanks c)).take n
  (l.foldl (fun c e => giveBank c key e.1 e.2) c, l.foldl (fun m e => m + 2 ^ e.1) 0)

/-- A general register of a result in flight: 0, which discards it, when it lies in a bank of a mask. -/
def dropG (mask d : Nat) : Nat := if bitN mask (d / 8) && decide (16 ≤ d) then 0 else d
def dropG? (mask : Nat) (d : Option Nat) : Option Nat := d.map (dropG mask)
def dropDst (mask : Nat) (d : Option (Nat × Word)) : Option (Nat × Word) := d.map fun e => (dropG mask e.1, e.2)
/-- A wait, and an outstanding operation, with a result for a register of released banks discarded. -/
def dropWait (mask : Nat) : Wait → Wait
  | .recv m d o => .recv m (dropG mask d) o
  | .zeroing d v => .zeroing (dropG mask d) v
  | .localDone i d r => .localDone i (dropDst mask d) r
  | .copyEnd h d => .copyEnd h (dropG mask d)
  | .channel d => .channel (dropG mask d)
  | .arriving t d h x => .arriving t (dropG mask d) h x
  | .treeSlot t d => .treeSlot t (dropG mask d)
  | .reduction t d => .reduction t (dropG mask d)
  | .feed false k d => .feed false k (dropG mask d)
  | w => w
def dropOut (mask : Nat) : OKind → OKind
  | .invoket d => .invoket (dropG mask d)
  | .rld d n => .rld (dropG? mask d) n
  | .harrive d => .harrive (dropG? mask d)
  | k => k
def dropPend (mask : Nat) : Pend → Pend
  | .send p => .send { p with dst := dropDst mask p.dst, out := p.out.map (dropOut mask) }
  | .arrive d h x => .arrive (dropG mask d) h x
  | p => p
def dropFin (mask : Nat) : AFin → AFin
  | .load n s d => .load n s (dropG? mask d)
  | .atomic d => .atomic (dropG? mask d)
  | f => f
def dropReq (key mask : Nat) : TReq → TReq
  | .acq k w c n bl d p o => .acq k w c n bl (if k = key then dropG mask d else d) p o
  | r => r
/-- Every result in flight for a strand's registers in the banks of a mask discarded (R121). -/
def dropResults (c : Core) (key mask : Nat) : Core :=
  { modStrand c key (fun st => { st with wait := dropWait mask st.wait, pend := st.pend.map (dropPend mask) }) with
    accesses := c.accesses.map fun a => if a.key == key then { a with fin := dropFin mask a.fin } else a
    scalars := c.scalars.map fun p => if p.key == key then { p with d := dropG? mask p.d } else p
    vectors := c.vectors.map fun p =>
      if p.key == key then { p with gd := p.gd.map fun e => (dropG mask e.1, e.2) } else p
    outs := c.outs.map fun o => if o.key == key then { o with kind := dropOut mask o.kind } else o
    tum := { c.tum with asked := c.tum.asked.map (dropReq key mask)
                        restarts := c.tum.restarts.map (dropReq key mask)
                        waiters := c.tum.waiters.map (dropReq key mask)
                        tests := c.tum.tests.map fun t => { t with req := dropReq key mask t.req } } }
/-- The banks of a mask of strand bank numbers taken from a strand. -/
def takeBanks (c : Core) (key mask : Nat) : Core :=
  ((strandBanks c key).filter fun e => bitN mask e.1).foldl
    (fun c e => { setBank c key e.1 none with bankOf := terase c.bankOf e.2 }) (dropResults c key mask)

/-! ### Pages (R122, R123) -/

/-- Whether a virtual page is free for a run: not mapped, not being released, with no page-map write pending. -/
-- DEDUCED: log 37.
def pageFree (c : Core) (v : Nat) : Bool :=
  !eValid (pmapAt c v) && !((leaving c).any fun e => e.2.1 == v) && !(c.pmapNext.any fun e => e.1 == v)
/-- The lowest run of n free virtual pages. -/
def pageRun (c : Core) (n : Nat) : Option Nat :=
  (upto 512).find? fun v => decide (v + n ≤ 512) && (upto n).all fun i => pageFree c (v + i)
/-- The free pool pages, lowest first. -/
def freePool (x : Site) : List Nat :=
  let used := (x.core.pmap.filterMap fun e => if ePool x e.2.toNat then some (ePhys e.2.toNat) else none) ++
    (leaving x.core).map fun e => e.2.2
  ((upto 384).filter fun p => decide (resvL x ≤ p)) |>.filter fun p => !used.contains p
/-- The entry of a granted page: owner, R and W, VALID. -/
def grantEntry (p g : Nat) : Word := wordN (p + g * 2 ^ 9 + 2 ^ 13 + 2 ^ 14 + 2 ^ 19)
/-- n pages mapped for a group at a run: the core and the physical pages. -/
def grantPages (x : Site) (g n v : Nat) : Core × List Nat :=
  let ps := (freePool x).take n
  let es := (upto n).zip ps
  ({ x.core with pmap := es.foldl (fun t e => tset t (v + e.1) (grantEntry e.2 g)) x.core.pmap }, ps)
/-- The 32-byte lines of physical pages, by number (R331). -/
def linesOfPages (ps : List Nat) : List Nat := ps.flatMap fun p => (upto 128).map fun k => 128 * p + k
/-- A 32-byte line zeroed (R122). -/
def zeroLine (c : Core) (l : Nat) : Core := storePhys c (32 * l) 32 0
/-! ### Slots (R124) -/

/-- The accumulator slots that no group holds, lowest first. -/
def freeTslots (c : Core) : List Nat := (upto 8).filter fun j => !(c.groups.any fun e => e.2.slotsT.contains j)
/-- n slots granted to a group: the core and the mask. -/
def grantTslots (c : Core) (g n : Nat) : Core × Nat :=
  let l := (freeTslots c).take n
  let c := modGroup c g fun gr => { gr with slotsT := gr.slotsT ++ l }
  ({ c with tensor := { c.tensor with slots := l.foldl (fun t j => tset t j {}) c.tensor.slots } },
   l.foldl (fun m j => m + 2 ^ j) 0)
/-- Whether a group holds a slot as an instruction sees it: not released at issue (R230). -/
def holdsTslot (c : Core) (g j : Nat) : Bool :=
  ((groupOf c g).getD { uid := 0 }).slotsT.contains j &&
    !(c.tum.releases.any fun r => r == .slot g j)
/-- The tensor operations that execute, and with them those that are queued. -/
def executing (c : Core) : List TOp := c.tensor.fired ++ c.tensor.cur.toList
def tensorOps (c : Core) : List TOp := c.tensor.queue ++ executing c
/-- Whether an operation on a slot is queued or executing. -/
def tslotBusy (c : Core) (j : Nat) : Bool := (tensorOps c).any fun o => o.slot == j

/-! ### Channels (R125) -/

/-- Channels occupied by copies of a group. -/
def occupied (c : Core) (g : Nat) : Nat := (c.chans.filter fun e => e.2.busy && e.2.grp == g).length

/-! ### Releases (R128) -/

/-- The Tumbler has released something: a re-evaluation is due from the next cycle on, and after it an admission evaluation
(R105, R107, R126). -/
def released (c : Core) : Core :=
  { c with tum := { c.tum with raised := true, freed := true, events := c.tum.events + 1 } }
/-- Only an admission evaluation is due, from the next cycle on (R105). -/
def slotFreed (c : Core) : Core := { c with tum := { c.tum with freed := true } }
/-- What a cycle's events have made due, due at the beginning of the next one. -/
def settleTumbler (t : Tumbler) : Tumbler :=
  { t with reeval := t.reeval || t.raised, raised := false, evaluate := t.evaluate || t.freed, freed := false }
/-- A release that has been issued. -/
def addRelease (c : Core) (r : Release) : Core := { c with tum := { c.tum with releases := c.tum.releases ++ [r] } }
/-- Whether an access is one of a group: a strand's, or of a tensor operation that was issued for it (R128, R255). -/
def accessOf (c : Core) (g : Nat) (a : Access) : Bool :=
  a.key / 16 == g || ((tensorOps c).any fun o => o.grp == g && o.acc == some a.id)
/-- The release of pages: they are unmapped for every later access and keep counting until it is applied. -/
def relPages (c : Core) (g : Nat) (vs : List Nat) : Core :=
  if vs = [] then c
  else
    let ps := vs.map fun v => (v, ePhys (pmapAt c v))
    let c := { c with pmap := vs.foldl (fun t v => tset t v (wordN (setBitsN (tget 0 t v).toNat 19 19 0))) c.pmap }
    addRelease c (.pages g ps ((c.accesses.filter (accessOf c g)).map fun a => a.id))
/-- The channels that copies of a group occupy, each to be given back when its copy ends (R128, R129). -/
def leaveChans (l : Tab Chan) (g : Nat) : Tab Chan :=
  l.map fun e => if e.2.busy && e.2.grp == g then (e.1, { e.2 with leaves := true }) else e
/-- Everything a group holds released, each part at its time (R134). -/
def relAll (x : Site) (g : Nat) : Core :=
  let c := x.core
  let gr := (groupOf c g).getD { uid := 0 }
  let c := gr.live.foldl (fun c i =>
    if strandBanks c (16 * g + i) = [] then c else addRelease c (.banks (16 * g + i) 0xFC)) c
  let c := relPages c g (ownPages x g)
  let c := gr.slotsT.foldl (fun c j => if holdsTslot c g j then addRelease c (.slot g j) else c) c
  let c := { c with chans := leaveChans c.chans g }
  let n := gr.chans - occupied c g
  if n = 0 then c else addRelease c (.chan g n)

/-- Whether a release that has been issued can be applied. -/
def canRelease (c : Core) : Release → Bool
  | .banks _ _ => true
  | .pages _ _ behind => !(c.accesses.any fun a => behind.contains a.id)
  | .slot _ j => !tslotBusy c j
  | .chan _ _ => true
/-- A page that has been released taken out of the map, unless it has been mapped anew since. -/
def unmapped (t : Tab Word) (p : Nat × Nat) : Tab Word := if eValid (tget 0 t p.1).toNat then t else terase t p.1
/-- A release applied. -/
def applyRelease (c : Core) : Release → Core
  | .banks key mask => takeBanks c key mask
  | .pages _ ps _ =>
    let gone := ps.map fun p => p.2
    { c with pmap := ps.foldl unmapped c.pmap
             tum := { c.tum with zeroing := c.tum.zeroing.map fun z =>
                        { z with pages := z.pages.filter fun p => !gone.contains p, lines := z.lines.filter fun l => !gone.contains (l / 128) } } }
  | .slot g j => modGroup c g fun gr => { gr with slotsT := gr.slotsT.filter fun k => k != j }
  | .chan g n => modGroup c g fun gr => { gr with chans := gr.chans - min n (gr.chans - occupied c g) }
/-- The release at a place of the list applied when it can be, in the cycle after it was issued or later: the re-evaluation
begins with it. -/
def doRelease (c : Core) (i : Nat) : Core :=
  match c.tum.releases[i]? with
  | none => c
  | some r =>
    if !canRelease c r then c
    else
      let c' := released (applyRelease c r)
      { c' with tum := settleTumbler { c'.tum with releases := c.tum.releases.eraseIdx i } }

/-! ### Mailbox copies -/

/-- Mailbox copies freed (R289). -/
def freeCopies (c : Core) (ids : List Nat) : Core := { c with copies := ids.foldl terase c.copies }

/-! ### The end of strands and groups (R113, R157, R386) -/

/-- A multiply or divide in flight of a strand that is gone: a division occupies the divider to its end (R139). -/
def orphans (l : List Pending) (key : Nat) : List Pending :=
  (l.filter fun p => p.key != key || p.div).map fun p => if p.key == key then { p with key := 512, d := none } else p
/-- A vector instruction in flight of a strand that is gone: one of the transcendental unit occupies it to its end (R206). -/
def vecOrphans (l : List VPending) (key : Nat) : List VPending :=
  (l.filter fun p => p.key != key || p.trans).map fun p =>
    if p.key == key then { key := 512, pc := p.pc, trans := true, ready := p.ready } else p
/-- A strand gone: its slot, its held message, its results in flight and all that is kept for it. When it exits, its banks
return, and a deferred remote fault is discarded and counted (R113, R320); the banks of a terminated group's strands
stay with the group until DRAINING ends (R129). -/
-- DEDUCED: log 44.
def freeStrand (x : Site) (key : Nat) (exits : Bool) : Site :=
  let st := strandOf x.core key
  let x := if exits && st.deferred.isSome then countLost x 1 else x
  let c := x.core
  let c := match st.heldCopy with | some i => freeCopies c [i] | none => c
  let c := match findSlot c key with | some k => { c with slots := terase c.slots k } | none => c
  let c := { c with bankOf := c.bankOf.filter fun e => !exits || e.2 != key
                    strands := terase c.strands key
                    scalars := orphans c.scalars key
                    vectors := vecOrphans c.vectors key
                    allowQ := c.allowQ.filter fun k => k != key
                    tum := { c.tum with releases := c.tum.releases.filter fun r =>
                               match r with | .banks k _ => k != key | _ => true } }
  let c := modGroup c (key / 16) fun gr => { gr with live := gr.live.filter fun i => i != key % 16 }
  { x with core := if exits then released c else slotFreed c }

/-- A group whose last strand has gone is DRAINING (R98). -/
def drainIfEmpty (c : Core) (g : Nat) : Core :=
  match groupOf c g with
  | some gr => if gr.live = [] then { c with groups := tset c.groups g { gr with st := .draining, victim := false, start := false } } else c
  | none => c

/-- EXIT of a strand (R113, R157). -/
def exitStrand (x : Site) (key : Nat) : Site :=
  onCore (fun c => drainIfEmpty c (key / 16)) (freeStrand x key true)

/-- Whether an outstanding operation belongs to a copy channel, and which. -/
def OKind.chan? : OKind → Option Nat
  | .copyRead ch _ => some ch
  | .copyWrite ch _ _ _ => some ch
  | .copyCount ch => some ch
  | .copyTile ch _ _ => some ch
  | _ => none

/-- A copy that has not ended given a status: it sends nothing further, its retries included (R269). -/
def statusChan (c : Core) (ch status failAddr : Nat) : Core :=
  { c with chans := tmod {} c.chans ch fun h => { h with status := status, failAddr := failAddr, pieces := [], owed := [] }
           outs := c.outs.filter fun o => !(o.kind.chan? == some ch && o.due.isSome) }
/-- Whether a copy is running. -/
def chanRuns (h : Chan) : Bool := h.busy && !h.ended
/-- A status found by the engine: the first one stands (R269). -/
def failChan (c : Core) (ch status failAddr : Nat) : Core :=
  let h := tget {} c.chans ch
  if chanRuns h && h.status == 0 then statusChan c ch status failAddr else c
/-- A copy cancelled (R277). -/
-- DEDUCED: log 76.
def cancelChan (c : Core) (ch : Nat) : Core := if chanRuns (tget {} c.chans ch) then statusChan c ch 6 0 else c

/-- Whether a request of the Tumbler is one of a group's. -/
def reqOf (g : Nat) : TReq → Bool
  | .acq _ who _ _ _ _ _ _ => who / 16 == g
  | .queueHead _ _ => false
/-- The context that waits for a request. -/
def TReq.key : TReq → Nat
  | .acq key _ _ _ _ _ _ _ => key
  | .queueHead _ _ => 512
def TReq.order : TReq → Nat
  | .acq _ _ _ _ _ _ _ o => o
  | .queueHead _ o => o

/-- The supervisor context's wait for a request that no longer exists ends without a result. -/
def freeSupWait (c : Core) (gone : List TReq) : Core :=
  if gone.any fun r => r.key == supKey then endWait c supKey true else c

/-- A group's requests leave the Tumbler (R113). -/
def dropRequests (c : Core) (g : Nat) : Core :=
  let t := c.tum
  let gone := (t.asked ++ t.restarts ++ t.waiters ++ t.tests.map fun x => x.req).filter (reqOf g)
  let keep (r : TReq) : Bool := !reqOf g r
  freeSupWait { c with tum := { t with asked := t.asked.filter keep, restarts := t.restarts.filter keep
                                       waiters := t.waiters.filter keep
                                       pass := t.pass.filter fun o => !((t.waiters.filter (reqOf g)).any fun r => r.order == o)
                                       tests := t.tests.filter fun x => keep x.req } } gone

/-- The outstanding operations of a group that is terminated: retries end, and the answers to attempts in flight
are awaited and then discarded (R386). Those of copies follow their copies. -/
def deadOuts (l : List Outst) (g : Nat) : List Outst :=
  (l.filter fun o => !(o.kind.chan?.isNone && o.grp == g && o.key != supKey && o.due.isSome)).map fun o =>
    if o.kind.chan?.isNone && o.grp == g && o.key != supKey then { o with dead := true } else o

/-- A group terminated: DRAINING at once (R113, R386). -/
-- DEDUCED: log 44.
def terminate (x : Site) (g : Nat) : Site :=
  match groupOf x.core g with
  | none => x
  | some gr =>
    let x := gr.live.foldl (fun x i => freeStrand x (16 * g + i) false) x
    let c := dropRequests x.core g
    let mine := (c.chans.filter fun e => e.2.busy && e.2.grp == g).map fun e => e.1
    let c := mine.foldl cancelChan c
    let c := { c with outs := deadOuts c.outs g
                      chans := leaveChans c.chans g
                      traps := c.traps.filter fun r => !(r.grp == g && decide (r.slot < 16))
                      restores := c.restores.filter fun r => r.1 / 16 != g
                      sup := { c.sup with present := c.sup.present.map fun r =>
                                 if r.slot < 16 && r.grp == g then { r with slot := 16 } else r } }
    { x with core := drainIfEmpty c g }

/-- Whether an outstanding operation keeps its group DRAINING: not a remote wait on a hasp, nor a packet of a
copy, whose channel does (R98, R346). -/
def drains (o : Outst) : Bool :=
  match o.kind with
  | .hwait => false
  | k => k.chan?.isNone

/-- Whether a DRAINING group's outstanding work has ended (R98). -/
def drained (c : Core) (g : Nat) : Bool :=
  !(c.accesses.any fun a => a.key / 16 == g) &&
  !((tensorOps c).any fun o => o.grp == g) &&
  !(c.chans.any fun e => e.2.busy && e.2.grp == g) &&
  !(c.outs.any fun o => o.grp == g && drains o) &&
  !(c.redOps.any fun r => r.grp == g && !r.sentAll)

/-- A group leaves DRAINING (R98, R288): everything it holds returns, its mailbox copies and message-queue
entries go, and its number is free. -/
def leaveDraining (x : Site) (g : Nat) : Site :=
  match groupOf x.core g with
  | none => x
  | some gr =>
    let own := x.core.mq.filter fun e => e.owner == some g
    let x := countLost x own.length
    let c := freeCopies x.core (gr.copies ++ own.map fun e => e.copy)
    let pages := ownPages x g
    let c := { c with mq := c.mq.filter fun e => e.owner != some g
                      groups := terase c.groups g
                      bankOf := c.bankOf.filter fun e => e.2 / 16 != g
                      pmap := ((leaving c).filter fun e => e.1 == g).foldl (fun t e => unmapped t e.2) (pages.foldl terase c.pmap)
                      tum := { c.tum with
                        releases := c.tum.releases.filter fun r => match r with
                          | .banks k _ => k / 16 != g | .pages h _ _ => h != g | .slot h _ => h != g | .chan h _ => h != g
                        zeroing := c.tum.zeroing.filterMap fun z =>
                          if z.forGrp != some g then some z
                          else if z.forKey == some supKey then some { z with pages := [], lines := [] } else none } }
    { x with core := released c }

/-! ### Frames (R110, R111) -/

/-- The physical pages of the free frames, lowest first: mapped with S and W, and holding no strand. -/
-- DESIGN CHOICE: log 163.
def freeFrames (x : Site) : List Nat :=
  let base := regF x 0x044 8 0
  let n := min 16 (regF x 0x044 13 9)
  (upto n).filterMap fun k =>
    let e := pmapAt x.core ((base + k) % 512)
    if eValid e && eS e && eW e && !(x.core.strands.any fun s => s.2.saved == some (ePhys e)) then some (ePhys e) else none

/-- The fields of a frame: offset, bytes, value. -/
-- DEDUCED: log 42.
def frameFields (c : Core) (sl : Slot) (prio : Nat) : List (Nat × Nat × Nat) :=
  let x := sl.ctx
  let st := strandOf c (slotKey sl)
  let trapped := c.traps.any fun r => decide (r.slot < 16) && r.grp == sl.grp && r.idx == sl.idx
  let code := if trapped || st.trapOnResume.isSome then 2 else if st.wait = .none then 0 else 1
  [(0, 8, x.pc.toNat),
   (8, 8, sl.grp + sl.idx * 2 ^ 4 + st.wait.reason * 2 ^ 8 + prio * 2 ^ 12 + code * 2 ^ 14),
   (0x10, 8, x.fpflags.toNat % 2 ^ 32 + x.fpctl.toNat % 2 ^ 32 * 2 ^ 32),
   (0x18, 8, x.lfsr.toNat)] ++
  ((upto 15).map fun k => (0x20 + 8 * k, 8, (tget 0 x.g (k + 1)).toNat)) ++
  [(0x98, 8, ((upto 6).foldl (fun w k => w + (match tget? x.banks (k + 2) with | some b => b | none => 0xFF) * 2 ^ (8 * k)) 0))] ++
  ((upto 10).map fun k => (0xA0 + 8 * k, 8, (mGet x k).toNat)) ++
  ((upto 8).map fun k => (0xF0 + 8 * k, 8, (tget 0 x.f k).toNat)) ++
  ((upto 7).map fun k => (0x130 + 16 * k, 16, (qGet x (k + 1)).toNat)) ++
  [(0x1A0, 96, 0)] ++
  ((upto 16).map fun k => (0x200 + 128 * k, 128, (vGet x k).toNat))

/-- A strand's registers written to a frame, and its slot free (R109). -/
-- DESIGN CHOICE: log 14.
-- DESIGN CHOICE: log 36.
def saveFrame (c : Core) (k page : Nat) : Core :=
  let sl := slotOf c k
  let key := slotKey sl
  let prio := ((groupOf c sl.grp).getD { uid := 0 }).prio
  let c := (frameFields c sl prio).foldl (fun c f => writePhys c (page * 4096 + f.1) f.2.1 f.2.2)
    { c with frameLines := linesAt (page * 4096) 0xA00 ++ c.frameLines }
  let c := modStrand c key fun st => { st with saved := some page, parity := sl.ctx.parity }
  slotFreed { c with slots := terase c.slots k }

/-- A list of fields as a table, zeros left out. -/
def tabOf {w : Nat} (l : List (Nat × BitVec w)) : Tab (BitVec w) := l.filter fun e => e.2 != 0

/-- FPCTL as a write leaves it: RM 7 is stored as 0 (R200). -/
def fpctlOf (v : Nat) : Nat := (if v % 8 = 7 then 0 else v % 8) + bitsN v 9 4 * 2 ^ 4
/-- A page of the local store as a restore reads it: an uncorrectable word gives a value that is left open (R169). -/
-- DESIGN CHOICE: log 36.
def frameRead (c : Core) (page time : Nat) : Mem :=
  (c.bad.filter fun b => b / 4096 == page).foldl (fun m b => mwrite m b 8 (Config.badData time b)) c.mem
/-- The errors that the 80 line reads of a restore meet: corrected words rewritten, uncorrectable ones counted (R112, R169). -/
def noteFrame (x : Site) (page : Nat) : Site :=
  let x := onCore (fun c => noteRead c (page * 4096) 0xA00) x
  (x.core.bad.filter fun b => b / 4096 == page && decide (b % 4096 < 0xA00)).foldl (fun x b => countUe x b 0) x
/-- The registers a frame holds; the bits that a register reserves read as zero, and RM 7 stands as a write of it does (R196, R199,
R200). -/
def frameCtx (m : Mem) (page : Nat) (parity : List (Nat × Nat)) : Ctx :=
  let at' (o n : Nat) : Nat := mread m (page * 4096 + o) n
  { pc := wordN (at' 0 8)
    fpflags := wordN (at' 0x10 4 % 64)
    fpctl := wordN (fpctlOf (at' 0x14 4))
    lfsr := wordN (at' 0x18 4)
    g := tabOf ((upto 15).map fun k => (k + 1, wordN (at' (0x20 + 8 * k) 8)))
    banks := (upto 6).filterMap fun k => (frameBank m page (k + 2)).map fun b => (k + 2, b)
    m := tabOf ((upto 10).map fun k => (k, wordN (at' (0xA0 + 8 * k) 8)))
    f := tabOf ((upto 8).map fun k => (k, wordN (at' (0xF0 + 8 * k) 8)))
    q := tabOf ((upto 7).map fun k => (k + 1, BitVec.ofNat 128 (at' (0x130 + 16 * k) 16)))
    v := tabOf ((upto 16).map fun k => (k, BitVec.ofNat 1024 (at' (0x200 + 128 * k) 128)))
    parity := parity }

/-- A restored strand with the registers of its frame and the state that it records, but READY when its wait has ended (R112). A
trap it took meanwhile is recorded then. -/
def wakeRestored (time : Nat) (x : Site) (k : Nat) : Site :=
  let c := x.core
  let sl := slotOf c k
  let key := slotKey sl
  let st := strandOf c key
  match st.saved with
  | none => x
  | some page =>
    let m := frameRead c page time
    let code := bitsN (mread m (page * 4096 + 8) 8) 15 14
    let next : SlotState := if code = 2 then .trapped else if code = 1 ∧ st.wait ≠ .none then .waiting else .ready
    let c := modSlot c k fun sl => { sl with st := next, age := 0, boost := 0, ctx := frameCtx m page st.parity }
    let c := modStrand (if next = .waiting then c else noWait c key) key fun st =>
      { st with saved := none, parity := [], trapOnResume := none }
    let c := { c with traps := c.traps.map fun r =>
                 if decide (r.slot < 16) && r.grp == sl.grp && r.idx == sl.idx then { r with slot := k } else r }
    let x := noteFrame { x with core := c } page
    match st.trapOnResume with
    | some v => recordTrap x key v
    | none => x

/-! ### The start of a group (R42, R106) -/

/-- The banks each of n strands receives of B, in index order. -/
def bankShare (b n i : Nat) : Nat := b / n + (if i < b % n then 1 else 0)

/-- The context a strand starts with. -/
def startCtx (x : Site) (q : QEntry) (i base : Nat) : Ctx :=
  { pc := wordN q.entry.pc
    g := tabOf [(1, q.g1), (2, wordN i), (3, q.wid), (4, q.g4), (5, q.g5), (6, q.g6), (7, wordN base)]
    lfsr := wordN ((reg x 0x047 + i) % 2 ^ 32) }

/-- The head of a class admitted as a group of a free number (R42, R106): its grant is taken, its strands
placed in the lowest free slots, and its pages left to be zeroed. -/
def admitGroup (x : Site) (cls : Nat) (time : Nat) : Site :=
  let c := x.core
  match tget [] c.invq cls, (upto 16).find? fun n => (groupOf c n).isNone with
  | q :: rest, some g =>
    let e := q.entry
    let n := e.nstr + 1
    let c := { c with invq := tset c.invq cls rest }
    let gr : Group := { uid := c.uids, prio := e.prio, n := n, live := upto n, wid := q.wid, wshape := q.wshape,
                        claim := e.claim, chans := e.grant.c, copies := q.copies, launched := q.launched, g1 := q.g1,
                        start := decide (0 < e.grant.l)
                        coll := if e.firm = 0 then none else some { index := e.firm, desc := q.g4.toNat } }
    let c := { c with groups := tset c.groups g gr, uids := c.uids + 1
                      tum := { c.tum with commits := c.tum.commits + 1, urgent := false, freed := true } }
    let v := if e.grant.l = 0 then 0 else (pageRun c e.grant.l).getD 0
    let (c, ps) := if e.grant.l = 0 then (c, []) else grantPages { x with core := c } g e.grant.l v
    let (c, _) := grantTslots c g e.grant.t
    let slots := (freeSlots c).take n
    let c := ((upto n).zip slots).foldl (fun c z =>
      let c := modSlot c z.2 fun _ => { st := .ready, grp := g, idx := z.1, ctx := startCtx x q z.1 (4096 * v) }
      (grantBanks c (16 * g + z.1) (bankShare e.grant.b n z.1)).1) c
    let c := if ps = [] then c
      else { c with tum := { c.tum with zeroing := c.tum.zeroing ++ [{ pages := ps, lines := linesOfPages ps, forGrp := some g, ready := time + 8 * ps.length }] } }
    { x with core := c }
  | _, _ => x

end Sys2Proof.Machine
end

