-- ==== Sys2Proof/Machine/Tumbler.lean ====
section
/-! DEFINITION. The Tumbler's instructions and events (R116 to R136). -/

namespace Sys2Proof.Machine

/-! ### Instructions -/

/-- The strand the agent acts for: itself, or the presented strand in S (R130). -/
def actKey (s : State) : Nat :=
  match actSlot s with
  | some k => slotKey (slotOf (curSite s).core k)
  | none => curKey s
/-- The group number it acts for. -/
def actGrp (s : State) : Nat := actKey s / 16

/-- The site at hand with its core changed. -/
def onCur (f : Core → Core) (s : State) : State := modSite s (curSid s) (onCore f)

/-- CLAIM: the group's claim lowered (R131). -/
def execClaim (a : Nat) (s : State) : Res :=
  issue (.claim a) s fun s =>
    let new := rvecOf (readG s a)
    let g := actGrp s
    if !rvLe new (actGroupVal s).claim then trapHere s 0x07 2
    else if !rvLe (held (curSite s) g) new then trapHere s 0x07 3
    else done 4 (onCur (fun c => released (modGroup c g fun gr => { gr with claim := new })) s)

/-- A request made: its strand waits for its test, which begins in the next cycle at the earliest (R132). -/
def askTumbler (k n : Nat) (blocking : Bool) (d : Nat) (s : State) : State :=
  let who := actKey s
  let prio := (actGroupVal s).prio
  onCur (fun c =>
    let r := TReq.acq (curKey s) who k n blocking d prio c.tum.order
    setWait { c with tum := { c.tum with asked := c.tum.asked ++ [r], order := c.tum.order + 1
                                         nextStart := max c.tum.nextStart (s.time + 1) } } (curKey s) .tumbler 4) s

/-- ACQ and TACQ of class k (R132, R136). -/
def acquire (k : Nat) (blocking : Bool) (d a : Nat) (s : State) : Res :=
  let n := (readG s a).toNat
  let low := n % 2 ^ 32 * 2 ^ 32
  let x := curSite s
  if k = 0 ∧ 6 < (strandBanks x.core (actKey s)).length + n then trapHere s 0x06 (2 + low)
  else if (need x (actGrp s)).at k < n then
    if blocking then trapHere s 0x07 (1 + k * 16 + low) else done 4 (writeG s d 3)
  else if n = 0 then
    let null := if k = 3 then (actGroupVal s).chans else 0
    done 4 (writeG s d (wordN (if blocking then null else null * 2 ^ 8)))
  else .next (askTumbler k n blocking d s)

/-- ACQ.b: a request for register banks that waits until it is granted (R132). -/
def execAcqB (d a : Nat) (s : State) : Res := issue (.acqB d a) s (acquire 0 true d a)
/-- ACQ.l: a request for pages that waits until it is granted (R132). -/
def execAcqL (d a : Nat) (s : State) : Res := issue (.acqL d a) s (acquire 1 true d a)
/-- ACQ.t: a request for accumulator slots that waits until it is granted (R132). -/
def execAcqT (d a : Nat) (s : State) : Res := issue (.acqT d a) s (acquire 2 true d a)
/-- ACQ.c: a request for copy channels that waits until it is granted (R132). -/
def execAcqC (d a : Nat) (s : State) : Res := issue (.acqC d a) s (acquire 3 true d a)
/-- TACQ.b: a request for register banks that is tested once (R132). -/
def execTacqB (d a : Nat) (s : State) : Res := issue (.tacqB d a) s (acquire 0 false d a)
/-- TACQ.l: a request for pages that is tested once (R132). -/
def execTacqL (d a : Nat) (s : State) : Res := issue (.tacqL d a) s (acquire 1 false d a)
/-- TACQ.t: a request for accumulator slots that is tested once (R132). -/
def execTacqT (d a : Nat) (s : State) : Res := issue (.tacqT d a) s (acquire 2 false d a)
/-- TACQ.c: a request for copy channels that is tested once (R132). -/
def execTacqC (d a : Nat) (s : State) : Res := issue (.tacqC d a) s (acquire 3 false d a)

/-- RELEASE_INVALID of a class (R133, R136). -/
def relTrap (k : Nat) (a : Word) (s : State) : Res := trapHere s 0x08 (k + 1 + k * 16 + a.toNat % 2 ^ 32 * 2 ^ 32)

/-- REL.b: the banks of a mask released (R133). -/
def execRelB (a : Nat) (s : State) : Res :=
  issue (.relB a) s fun s =>
    let m := (readG s a).toNat
    let l := (strandBanks (curSite s).core (actKey s)).map fun e => e.1
    if m % 4 ≠ 0 ∨ 256 ≤ m ∨ (upto 8).any (fun k => bitN m k && !l.contains k) then relTrap 0 (readG s a) s
    else if m = 0 then done 4 s
    else done 4 (onCur (fun c => addRelease c (.banks (actKey s) m)) s)

/-- REL.l: a range of pages released (R133). -/
-- DEDUCED: log 38.
def execRelL (a b : Nat) (s : State) : Res :=
  issue (.relL a b) s fun s =>
    let base := (readG s a).toNat
    let n := (readG s b).toNat
    let g := actGrp s
    let x := curSite s
    if base % 4096 ≠ 0 ∨ 0x200000 < base + 4096 * n then relTrap 1 (readG s a) s
    else
      let vs := (upto n).map fun i => base / 4096 + i
      if vs.any fun v => !(ePool x (pmapAt x.core v) && eOwner (pmapAt x.core v) == g) then relTrap 1 (readG s a) s
      else done 4 (onCur (fun c => relPages c g vs) s)

/-- REL.t: the slots of a mask released; they stop being held at issue (R133, R230). -/
def execRelT (a : Nat) (s : State) : Res :=
  issue (.relT a) s fun s =>
    let m := (readG s a).toNat
    let g := actGrp s
    let c := (curSite s).core
    if 256 ≤ m ∨ (upto 8).any (fun j => bitN m j && !holdsTslot c g j) then relTrap 2 (readG s a) s
    else done 4 (onCur (fun c => ((upto 8).filter (bitN m)).foldl (fun c j => addRelease c (.slot g j)) c) s)

/-- REL.c: a number of free held channels released (R133). -/
def execRelC (a : Nat) (s : State) : Res :=
  issue (.relC a) s fun s =>
    let n := (readG s a).toNat
    let g := actGrp s
    if (actGroupVal s).chans - occupied (curSite s).core g < n then relTrap 3 (readG s a) s
    else if n = 0 then done 4 s
    else done 4 (onCur (fun c => addRelease c (.chan g n)) s)

/-- RELALL: everything the group holds released (R134). -/
def execRelall (s : State) : Res :=
  issue .relall s fun s =>
    let g := actGrp s
    done 4 (modSite s (curSid s) fun x => { x with core := relAll x g })

/-- QRES: a vector of the Tumbler, or the strand's bank mask (R135). Selectors 4 to 63 do not decode. -/
def execQres (d b : Nat) (s : State) : Res :=
  issue (.qres d b) s fun s =>
    let x := curSite s
    let v := match b with
      | 0 => rvecWord (actGroupVal s).claim
      | 1 => rvecWord (held x (actGrp s))
      | 2 => rvecWord (available x)
      | _ => wordN ((strandBanks x.core (actKey s)).foldl (fun m e => m + 2 ^ e.1) 3)
    done 4 (writeG s d v)

/-! ### Safety tests -/

/-- Where a request stands: its PRIO (a queue head's class), then its place in time (R126). -/
def TReq.prio : TReq → Nat
  | .acq _ _ _ _ _ _ p _ => p
  | .queueHead cls _ => cls
-- DEDUCED: log 39.
def before (r q : TReq) : Bool := decide (q.prio < r.prio) || (decide (q.prio = r.prio) && decide (r.order < q.order))
/-- The first of some requests. -/
-- DEDUCED: log 39.
def firstReq : List TReq → Option TReq
  | [] => none
  | r :: l => match firstReq l with
    | none => some r
    | some q => if before q r then some q else some r
/-- The resources a request asks for. -/
def askedOf (x : Site) : TReq → RVec
  | .acq _ _ k n _ _ _ _ => rvOne k n
  | .queueHead cls _ => match headOf x.core cls with | some q => q.entry.grant | none => {}
/-- The request whose test begins next: one whose test is to be restarted, else one not yet tested or a waiter the pass has
left. -/
-- DEDUCED: log 146.
def nextReq (t : Tumbler) : Option TReq :=
  t.restarts.head?.or (firstReq (t.asked ++ t.waiters.filter fun r => t.pass.contains r.order))
/-- Whether the pages of a request have a run to be mapped at (R123). -/
def runNow (x : Site) (r : TReq) : Bool := (askedOf x r).l == 0 || (pageRun x.core (askedOf x r).l).isSome
/-- A test of a request that begins at a time, on a snapshot (R120). -/
def snapshot (x : Site) (r : TReq) (time : Nat) : TTest :=
  let t := x.core.tum
  let vecs := counted x
  let m := vecs.length + (match r with | .queueHead _ _ => 1 | _ => 0)
  { req := r, vecs := vecs, avail := rvSub (available x) (heldSum (promised x))
    run := runNow x r
    commits := t.commits, maps := t.maps, events := t.events, ready := time + 15 + 2 * m }
/-- Whether a test can begin. -/
def testDue (x : Site) (time : Nat) : Bool :=
  decide (x.core.tum.nextStart ≤ time) && (nextReq x.core.tum).isSome && x.core.evict.st == .run
/-- The next test begun (R120): one every 8 cycles. -/
-- DEDUCED: log 146.
def startTest (x : Site) (time : Nat) : Site :=
  match testDue x time, nextReq x.core.tum with
  | true, some r =>
    let t := x.core.tum
    onCore (fun c => { c with tum := { t with asked := t.asked.filter fun q => q.order != r.order
                                              restarts := t.restarts.filter fun q => q.order != r.order
                                              pass := t.pass.filter fun o => o != r.order
                                              tests := t.tests ++ [snapshot x r time], nextStart := time + 8 } }) x
  | _, _ => x

/-- Whether a test found its request to fit (R119). -/
def fitsTest (x : Site) (t : TTest) : Bool := rvLe (askedOf x t.req) t.avail && t.run
/-- Whether it found it safe: the group's held vector grown by the request and its need lowered, or the group of
the queue's head counted (R119). -/
def safeTest (x : Site) (t : TTest) : Bool :=
  let r := askedOf x t.req
  let vecs := match t.req with
    | .acq _ who _ _ _ _ _ _ => t.vecs.map fun e =>
        if e.1 = who / 16 then (rvAdd e.2.1 r, rvSub e.2.2 r) else e.2
    | .queueHead cls _ => (t.vecs.map fun e => e.2) ++
        (match headOf x.core cls with | some q => [(q.entry.grant, rvSub q.entry.claim q.entry.grant)] | none => [])
  safe vecs (rvSub t.avail r)
/-- Whether its snapshot is stale, so that a grant restarts it (R120); a page-map write still pending may have taken its run. -/
def stale (x : Site) (t : TTest) : Bool :=
  t.commits != x.core.tum.commits || ((askedOf x t.req).l != 0 && t.maps != x.core.tum.maps) || !runNow x t.req

/-- A result of a request written, its status first for TACQ, and its wait ended (R132). -/
def answerReq (c : Core) (key d : Nat) (blocking : Bool) (v : Nat) : Core :=
  endWait (deliverG c key d (wordN (if blocking then v else v * 2 ^ 8))) key true

/-- A request granted (R121 to R125). A strand that is given pages waits until they are zeroed. -/
def grant (x : Site) (key who k n : Nat) (blocking : Bool) (d time : Nat) : Site :=
  let g := who / 16
  let c := { x.core with tum := { x.core.tum with commits := x.core.tum.commits + 1 } }
  match k with
  | 0 => let (c, m) := grantBanks c who n; { x with core := answerReq c key d blocking m }
  | 1 =>
    let v := (pageRun c n).getD 0
    let (c, ps) := grantPages { x with core := c } g n v
    let c := modStrand c key fun st =>
      { st with wait := .zeroing d (wordN (if blocking then 4096 * v else 4096 * v * 2 ^ 8)) }
    { x with core := { c with tum := { c.tum with zeroing := c.tum.zeroing ++
                          [{ pages := ps, lines := linesOfPages ps, forKey := some key, forGrp := some g, ready := time + 8 * n }] } } }
  | 2 => let (c, m) := grantTslots c g n; { x with core := answerReq c key d blocking m }
  | _ =>
    let c := modGroup c g fun gr => { gr with chans := gr.chans + n }
    { x with core := answerReq c key d blocking ((groupOf c g).getD { uid := 0 }).chans }

/-- A request that has been tested and is not granted: TACQ is told; ACQ joins the waiter queue, or keeps its
place there. A release during its test is then tested for too (R126). -/
def notGranted (x : Site) (t : TTest) (key d : Nat) (blocking : Bool) : Site :=
  let c := x.core
  if !blocking then
    { x with core := endWait (deliverG c key d (if fitsTest x t then 2 else 1)) key true }
  else if c.tum.waiters.any fun r => r.order == t.req.order then x
  else
    let r := match t.req with
      | .acq key who k n b d p _ => TReq.acq key who k n b d p c.tum.order
      | r => r
    let c := { c with tum := { c.tum with waiters := c.tum.waiters ++ [r], order := c.tum.order + 1 } }
    { x with core := if t.events = c.tum.events then c else released c }

/-! ### Urgent pre-emption (R108) -/

/-- The groups that may be victims, most recently admitted first: PRIO 0, RUNNING, no strand TRAPPED. -/
def eligible (c : Core) : List (Nat × Group) :=
  let l := c.groups.filter fun e => e.2.st == .running && e.2.prio == 0 && !e.2.victim &&
    !(c.slots.any fun k => k.2.st == .trapped && k.2.grp == e.1)
  l.mergeSort fun a b => decide (b.2.uid ≤ a.2.uid)
/-- The victims that free at least n more slots: their group numbers and the slots they free. -/
def victims : List (Nat × Group) → Nat → List Nat × Nat
  | _, 0 => ([], 0)
  | [], _ => ([], 0)
  | (g, gr) :: l, n + 1 =>
    let r := victims l (n + 1 - gr.live.length)
    (g :: r.1, gr.live.length + r.2)
/-- The class-3 head, found safe and lacking only slots, pre-empts; nothing happens where too few can be freed
(R108). -/
def preempt (x : Site) (n : Nat) : Site :=
  let c := x.core
  let lack := n - (freeSlots c).length
  let (vs, freed) := victims (eligible c) lack
  if freed < lack ∨ (freeFrames x).length < freed then x
  else { x with core := { vs.foldl (fun c g => modGroup c g fun gr => { gr with victim := true }) c with
                          tum := { c.tum with urgent := true, commits := c.tum.commits + 1 } } }

/-- SAFETY_TEST_END (R119, R120): a test ends, and its request is granted, restarted or not granted. -/
def endTest (x : Site) (i time : Nat) : Site :=
  match x.core.tum.tests[i]? with
  | none => x
  | some t =>
    if time < t.ready then x
    else
      let x := onCore (fun c => { c with tum := { c.tum with tests := c.tum.tests.eraseIdx i } }) x
      let ok := fitsTest x t && safeTest x t
      if ok && stale x t then
        let x := onCore (fun c => { c with tum := { c.tum with restarts := c.tum.restarts ++ [t.req] } }) x
        if x.core.tum.restarts.length = 1 then startTest x time else x
      else match t.req with
        | .acq key who k n blocking d _ o =>
          if ok then
            grant (onCore (fun c => { c with tum := { c.tum with waiters := c.tum.waiters.filter fun r => r.order != o } }) x)
              key who k n blocking d time
          else notGranted x t key d blocking
        | .queueHead cls _ =>
          match headOf x.core cls with
          | none => x
          | some q =>
            if !ok || ((upto 16).find? fun n => (groupOf x.core n).isNone).isNone then x
            else if q.entry.nstr + 1 ≤ (freeSlots x.core).length then admitGroup x cls time
            else if cls = 3 then preempt x (q.entry.nstr + 1) else x
def execSafetyTestEnd (s : State) : Res :=
  .next (modSite s (argAt s 0) fun x => endTest x (argAt s 1) s.time)

/-- Whether a pass of re-evaluation has waiters left to test or tests to end. -/
def passing (t : Tumbler) : Bool :=
  t.pass != [] || (t.restarts ++ t.tests.map fun x => x.req).any fun x => match x with
    | .acq _ _ _ _ _ _ _ o => t.waiters.any fun r => r.order == o
    | .queueHead _ _ => false
/-- TUMBLER_REEVALUATION (R126): a pass begins over every waiter. -/
def execTumblerReevaluation (s : State) : Res :=
  .next (modSite s (argAt s 0) (onCore fun c =>
    if c.tum.reeval && !passing c.tum then
      { c with tum := { c.tum with reeval := false, pass := c.tum.waiters.map TReq.order } }
    else c))

/-- RELEASE_APPLY (R128): a release takes effect. -/
def execReleaseApply (s : State) : Res :=
  .next (modSite s (argAt s 0) (onCore fun c => doRelease c (argAt s 1)))

/-- Granted pages zeroed: the strand or group that waits for it goes on (R106, R122). -/
-- DEDUCED: log 45.
def zeroingOver (c : Core) (z : Zeroing) : Core :=
  match z.forKey with
  | some key => match (strandOf c key).wait with
    | .zeroing d v => endWait (deliverG c key d v) key true
    | _ => c
  | none => match z.forGrp with
    | some g => modGroup c g fun gr => { gr with start := false }
    | none => c
/-- One of the lines left of granted pages zeroed (R331); the last one no earlier than the zeroing takes (R122). -/
def zeroNext (c : Core) (i j time : Nat) : Core :=
  match c.tum.zeroing[i]? with
  | none => c
  | some z =>
    if z.lines.length ≤ 1 ∧ time < z.ready then c
    else
      let c := match z.lines[j]? with | some l => zeroLine c l | none => c
      if 1 < z.lines.length then { c with tum := { c.tum with zeroing := c.tum.zeroing.set i { z with lines := z.lines.eraseIdx j } } }
      else zeroingOver { c with tum := { c.tum with zeroing := c.tum.zeroing.eraseIdx i } } z
/-- PAGE_ZEROING_DONE (R122): a line of granted pages is zeroed, and with the last one the zeroing is done. -/
def execPageZeroingDone (s : State) : Res :=
  .next (modSite s (argAt s 0) (onCore fun c => zeroNext c (argAt s 1) (argAt s 2) s.time))

end Sys2Proof.Machine
end

