-- ==== Sys2Proof/Machine/Sched.lean ====
section
/-! DEFINITION. Scheduling: EXIT, the promotion of waiting strands, admission, urgent pre-emption with its frames,
and the end of DRAINING (R97 to R113). -/

namespace Sys2Proof.Machine

/-- EXIT: the strand ends (R113, R157). -/
def execExit (s : State) : Res :=
  issue .exit s fun s => .next (modSite s (curSid s) fun x => exitStrand x (curKey s))

/-- AGE_PROMOTION (R101): a strand that has been READY for a further 1,024 cycles rises by one class. -/
def execAgePromotion (s : State) : Res :=
  .next (modSite s (argAt s 0) (onCore fun c =>
    let sl := slotOf c (argAt s 1)
    if sl.st == .ready && decide (1024 * (sl.boost + 1) ≤ sl.age) then
      modSlot c (argAt s 1) fun sl => { sl with boost := sl.boost + 1 }
    else c))

/-- YIELD_WINDOW_END (R103): a context that yielded may issue again. -/
def execYieldWindowEnd (s : State) : Res :=
  let sid := argAt s 0
  match agentOf sid (argAt s 1) with
  | .strand _ k => .next (modSite s sid (onCore fun c =>
      if (slotOf c k).yieldTo ≤ s.time then modSlot c k fun sl => { sl with yieldTo := 0 } else c))
  | .sup _ => .next (modSite s sid (onCore fun c =>
      if c.sup.yieldTo ≤ s.time then { c with sup := { c.sup with yieldTo := 0 } } else c))
  | .mgmt k => .next (modMgmt s k fun m => if m.yieldTo ≤ s.time then { m with yieldTo := 0 } else m)

/-! ### Admission (R105 to R107) -/

/-- The oldest PREEMPTED group that is not being restored. -/
-- DEDUCED: log 164.
def oldestPreempted (c : Core) : Option (Nat × Group) :=
  let l := c.groups.filter fun e => e.2.st == .preempted && !(c.restores.any fun r => r.1 / 16 == e.1)
  l.foldl (fun b e => match b with
    | none => some e
    | some f => if e.2.since < f.2.since then some e else b) none

/-- A PREEMPTED group's strands given the lowest free slots, to be restored in index order (R112). -/
-- DEDUCED: log 40.
def resume (c : Core) (g : Nat) (gr : Group) : Core :=
  let idx := gr.live.mergeSort fun a b => decide (a ≤ b)
  let places := idx.zip (freeSlots c)
  let c := places.foldl (fun c p => modSlot c p.2 fun _ => { st := .restoring, grp := g, idx := p.1 }) c
  { c with restores := c.restores ++ places.map fun p => (16 * g + p.1, p.2)
           tum := { c.tum with freed := true } }

/-- The first class with a queued group, from 3 down. -/
def headClass (c : Core) : Option Nat := [3, 2, 1, 0].find? fun k => (headOf c k).isSome

/-- Whether an evaluation may take place: one is due, no re-evaluation comes before it (R107), and neither a
test of a queued group nor the saves of a pre-emption are in progress. -/
-- DEDUCED: log 40.
def evaluationDue (c : Core) : Bool :=
  let t := c.tum
  t.evaluate && !t.reeval && !passing t && c.evict.st == .run &&
  !((t.asked ++ t.restarts).any fun r => match r with | .queueHead _ _ => true | _ => false) &&
  !(t.tests.any fun x => match x.req with | .queueHead _ _ => true | _ => false) &&
  !(c.groups.any fun e => e.2.victim)

/-- The one candidate considered (R105): the group an urgent pre-emption made room for, else the oldest
PREEMPTED group, else the head of the highest class. -/
def evaluation (x : Site) (time : Nat) : Site :=
  let x := onCore (fun c => { c with tum := { c.tum with evaluate := false } }) x
  let c := x.core
  let free := (freeSlots c).length
  let number := ((upto 16).find? fun n => (groupOf c n).isNone).isSome
  if c.tum.urgent then
    match headOf c 3 with
    | some q =>
      let run := q.entry.grant.l == 0 || (pageRun c q.entry.grant.l).isSome
      if number && decide (q.entry.nstr + 1 ≤ free) && run then admitGroup x 3 time else x
    | none => onCore (fun c => { c with tum := { c.tum with urgent := false } }) x
  else match oldestPreempted c with
  | some (g, gr) => if gr.live.length ≤ free then { x with core := resume c g gr } else x
  | none =>
    match headClass c with
    | none => x
    | some cls =>
      let n := match headOf c cls with | some q => q.entry.nstr + 1 | none => 0
      if number && (decide (n ≤ free) || cls == 3) then
        { x with core := { c with tum := { c.tum with asked := c.tum.asked ++ [.queueHead cls c.tum.order]
                                                      order := c.tum.order + 1 } } }
      else x

/-- ADMISSION_EVALUATION (R105). -/
def execAdmissionEvaluation (s : State) : Res :=
  .next (modSite s (argAt s 0) fun x => if evaluationDue x.core then evaluation x s.time else x)

/-! ### Saves and restores (R109, R112) -/

/-- Whether a strand's issued instructions have written their results. -/
def settled (c : Core) (key : Nat) : Bool :=
  !(c.scalars.any fun p => p.key == key) && !(c.vectors.any fun p => p.key == key) &&
  !(c.accesses.any fun a => a.key == key && (match a.fin with
    | .load _ _ _ => true | .atomic _ => true | .vec _ => true | _ => false))

/-- The slots whose strands are to be saved, in group order and then index order. -/
def toSave (c : Core) : List Nat :=
  let l := c.slots.filter fun e => e.2.st != .free && (match groupOf c e.2.grp with | some g => g.victim | none => false)
  (l.mergeSort fun a b => decide (slotKey a.2 ≤ slotKey b.2)).map fun e => e.1

/-- A slot whose strand is to enter SAVING: its last instruction has written its results (R109). -/
def nextSave (c : Core) : Option Nat :=
  (toSave c).find? fun k => (slotOf c k).st != .saving && settled c (slotKey (slotOf c k))

/-- A strand enters SAVING. Whether it is TRAPPED is kept in its record. -/
def startSave (c : Core) : Core :=
  match nextSave c with
  | none => c
  | some k => modSlot c k fun sl => { sl with st := .saving, age := 0, boost := 0 }

/-- The slot whose strand is saved next: saves run one at a time, in group order and then index order (R109). -/
def savingNow (c : Core) : Option Nat :=
  match toSave c with
  | k :: _ => if (slotOf c k).st = .saving then some k else none
  | [] => none

/-- The strand saved next written to the lowest free frame; its group is PREEMPTED after its last (R109, R110). -/
def endSave (x : Site) (time : Nat) : Site :=
  match savingNow x.core, freeFrames x with
  | some k, page :: _ =>
    let sl := slotOf x.core k
    let c := saveFrame x.core k page
    let c := if c.slots.any fun e => e.2.grp == sl.grp then c
      else modGroup c sl.grp fun gr => { gr with st := .preempted, victim := false, since := time }
    { x with core := c }
  | _, _ => x

/-- FRAME_SAVE_DONE (R109). -/
def execFrameSaveDone (s : State) : Res := .next (modSite s (argAt s 0) fun x => endSave x s.time)

/-- The restore in progress ends; after a group's last one, all its strands take their states (R112). -/
def endRestore (time : Nat) (x : Site) : Site :=
  match x.core.restores with
  | [] => x
  | (key, _) :: rest =>
    let g := key / 16
    let x := onCore (fun c => { c with restores := rest }) x
    if rest.any fun r => r.1 / 16 == g then x
    else
      let ks := (x.core.slots.filter fun e => e.2.st == .restoring && e.2.grp == g).map fun e => e.1
      let x := onCore (fun c => modGroup c g fun gr => { gr with st := .running }) x
      ks.foldl (wakeRestored time) x

/-- FRAME_RESTORE_DONE (R112). -/
def execFrameRestoreDone (s : State) : Res := .next (modSite s (argAt s 0) (endRestore s.time))

/-- GROUP_LEAVES_DRAINING (R98). -/
def execGroupLeavesDraining (s : State) : Res :=
  let g := argAt s 1
  .next (modSite s (argAt s 0) fun x =>
    match groupOf x.core g with
    | some gr => if gr.st == .draining && drained x.core g then leaveDraining x g else x
    | none => x)

end Sys2Proof.Machine
end

