-- ==== Sys2Proof/Machine/Packets.lean ====
section
/-! DEFINITION. Packets: kinds, the header flit, sequence numbers, the injection buffers, answers and reports
(R33, R34, R281 to R284, R290, R291). -/

namespace Sys2Proof.Machine

/-! ### Kinds (R34) -/

def kDATA : Nat := 0
def kINVOKE : Nat := 1
def kRLOAD : Nat := 2
def kRSTORE : Nat := 3
def kRATOMIC : Nat := 4
def kREPLY : Nat := 5
def kNACK : Nat := 6
def kRED : Nat := 7
def kRENORM : Nat := 8
def kBCAST : Nat := 9
def kCOPYDATA : Nat := 10
def kCOPYACK : Nat := 11
def kSTOP : Nat := 12
def kFLOOD : Nat := 13
def kMGMT : Nat := 14
def kFAULTREP : Nat := 15

/-- The refusal codes of R290; those of remote homes stand in R316. -/
def rFULL : Nat := 1
def rINVALID : Nat := 2
def rUNREACHABLE : Nat := 3
def rRETRY : Nat := 4
def rGUARD : Nat := 5
def rLOST : Nat := 6
def rMALFORMED : Nat := 7

/-- Whether a KIND may travel on a virtual channel (R34). -/
def vcOk (kind vc : Nat) : Bool :=
  if kind ≤ 4 || kind == 10 then vc == 0
  else if kind == 5 || kind == 6 || kind == 11 || kind == 15 then vc == 1
  else if kind == 12 then vc == 2
  else if kind == 14 then vc == 2 || vc == 3
  else vc == 3

/-- Whether a KIND answers another packet (R57 step 1, without FLOOD). -/
def isAnswer (kind : Nat) : Bool := kind == kREPLY || kind == kNACK || kind == kCOPYACK || kind == kFAULTREP
/-- Whether a KIND follows the reduction trees (R57). -/
def isTree (kind : Nat) : Bool := kind == kRED || kind == kRENORM || kind == kBCAST

/-! ### The header flit (R33) -/

/-- The 256 data bits of a header. -/
def headerFlit (p : Packet) : Flit :=
  BitVec.ofNat 256
    (p.dest % 2 ^ 20 + p.src % 2 ^ 20 * 2 ^ 20 + p.kind % 16 * 2 ^ 40 + p.vc % 4 * 2 ^ 44 + p.prio % 4 * 2 ^ 46 +
     p.handler % 1024 * 2 ^ 48 + p.counter % 64 * 2 ^ 58 + p.len % 64 * 2 ^ 64 + p.stream % 16 * 2 ^ 70 +
     p.scope % 8 * 2 ^ 74 + p.fmt % 32 * 2 ^ 77 + p.seq % 2 ^ 16 * 2 ^ 82 + p.park % 256 * 2 ^ 98 +
     p.ks % 2 ^ 22 * 2 ^ 106 + p.arg0.toNat * 2 ^ 128 + p.arg1.toNat * 2 ^ 192)

/-- A field of the kind-specific bits, numbered as in the header. -/
def ksF (p : Packet) (hi lo : Nat) : Nat := bitsN p.ks (hi - 106) (lo - 106)
/-- REFUSAL and DETAIL of a NACK or FAULTREP, SUB of a REPLY. -/
def refusalOf (p : Packet) : Nat := ksF p 109 106
def detailOf (p : Packet) : Nat := ksF p 113 110
/-- The bytes of a list of flits as one number. -/
def flitsNat (l : List Flit) : Nat := (l.zipIdx).foldl (fun n e => n + e.1.toNat * 2 ^ (256 * e.2)) 0
/-- A number cut into n flits. -/
def natFlits (v n : Nat) : List Flit := (upto n).map fun k => BitVec.ofNat 256 (v / 2 ^ (256 * k))

/-! ### Sequence numbers (R282) -/

/-- The next value of the sequence counter that no outstanding operation has. -/
def freeSeq (c : Core) : Nat → Nat → Nat
  | 0, q => q
  | n + 1, q => if c.outs.any fun o => o.seq == q then freeSeq c n ((q + 1) % 2 ^ 16) else q
/-- A sequence number taken. -/
-- DESIGN CHOICE: log 180.
def takeSeq (c : Core) : Core × Nat :=
  let q := freeSeq c c.outs.length c.seq
  ({ c with seq := (q + 1) % 2 ^ 16 }, q)

/-! ### The injection buffers (R283, R290) -/

/-- The free places of the VC0 buffer. -/
def freePlaces (c : Core) : Nat := 128 - (c.inj0.foldl (fun n j => n + 1 + j.pkt.len) 0)
/-- Whether n places are free. -/
def allowance (c : Core) (n : Nat) : Bool := decide (n ≤ freePlaces c)
/-- The places in the order of requests of a copy channel, of the steered drain, and of the retry of a packet (R283, R293); a
context's is its own number. -/
def chanTurn (ch : Nat) : Nat := 1000 + ch
def steerTurn : Nat := 1100
def retryTurn (seq : Nat) : Nat := 2000 + seq
/-- Whether a request in the order still stands. -/
def stillAsks (c : Core) (k : Nat) : Bool :=
  if k < 1000 then true
  else if k < 1100 then c.chans.any fun e => e.1 == k - 1000 && e.2.busy && !e.2.ended && e.2.status == 0
  else if k = 1100 then c.tensor.cur.any fun o => o.kind == .tdrainF && o.data.isSome
  else c.outs.any fun o => o.seq == k - 2000 && o.due.isSome
/-- The requests for places that wait, the oldest first (R283). -/
-- DEDUCED: log 52.
def askers (c : Core) : List Nat := c.allowQ.filter (stillAsks c)
/-- A request has been served, and one that finds no places waits for its turn. -/
def leaveTurn (key : Nat) (c : Core) : Core := { c with allowQ := (askers c).filter fun k => k != key }
def takeTurn (key : Nat) (c : Core) : Core := if c.allowQ.contains key then c else { c with allowQ := askers c ++ [key] }
/-- Whether a request for n places must wait: they are not free, or an earlier request waits (R283). -/
-- DEDUCED: log 52.
def mustWait (c : Core) (key n : Nat) : Bool := !allowance c n || (match askers c with | k :: _ => k != key | [] => false)
/-- A packet of the core with its travelling state set (R56). -/
def originate (sid : Nat) (p : Packet) : Packet := { p with origin := sid, tgt := none, fld := false, ing := false, prb := false }
/-- A packet put in the VC0 buffer for a strand; its payload may be read first. -/
def inject (c : Core) (sid : Nat) (p : Packet) (key : Option Nat) (reads : Bool) (time : Nat) : Core :=
  { c with inj0 := c.inj0 ++ [{ id := c.injIds, pkt := originate sid p, reads := reads, key := key,
                                ready := time + 1 + p.len }]
           injIds := c.injIds + 1 }
/-- A packet put in the VC1 buffer (R290). -/
def injectAns (c : Core) (sid : Nat) (p : Packet) : Core := { c with inj1 := c.inj1 ++ [originate sid p] }

/-! ### Answers and reports (R290, R291) -/

/-- A NACK or REPLY to a packet, with kind-specific bits. -/
def answerPkt (x : Site) (q : Packet) (kind ks : Nat) (arg0 : Word) : Packet :=
  { dest := q.src, src := coreName x, kind := kind, vc := 1, scope := 5, seq := q.seq, park := localPark x, ks := ks,
    arg0 := arg0, ansTo := some q.origin }
/-- The reporting site as ARG1 of a FAULTREP (R291). -/
def siteWord (sid : Nat) : Nat := siteX sid + siteY sid * 2 ^ 8 + siteW sid % 4 * 2 ^ 18
/-- A FAULTREP about a packet, bearing a name of the reporting router. -/
-- DEDUCED: log 46.
-- DEDUCED: log 47.
def faultRep (name sid : Nat) (q : Packet) (refusal detail : Nat) : Packet :=
  { dest := q.src, src := name, kind := kFAULTREP, vc := 1, scope := 5, seq := q.seq, park := q.park,
    ks := refusal + detail * 2 ^ 4 + q.kind * 2 ^ 8 + q.handler * 2 ^ 12, arg0 := wordN (q.dest % 2 ^ 20),
    arg1 := wordN (siteWord sid), ansTo := some q.origin }
/-- A packet refused by a core: a NACK, or a FAULTREP for DATA with a valid SRC (R36). -/
def refuse (x : Site) (q : Packet) (refusal detail : Nat) : Site :=
  if q.kind = kDATA then
    if isNull q.src then x else onCore (fun c => injectAns c x.id (faultRep (coreName x) x.id q refusal detail)) x
  else onCore (fun c => injectAns c x.id (answerPkt x q kNACK (refusal + detail * 16) 0)) x
/-- A REPLY with a SUB code. -/
def reply (x : Site) (q : Packet) (sub : Nat) (arg0 : Word) : Site :=
  onCore (fun c => injectAns c x.id (answerPkt x q kREPLY sub arg0)) x

/-- Whether a core drops a packet as malformed (R35). -/
def malformed (x : Site) (q : Packet) : Bool :=
  decide (msgMax x < q.len) || q.payload.length != q.len || !vcOk q.kind q.vc || decide (28 ≤ q.fmt)
/-- A malformed packet dropped, counted and reported (R35). -/
def dropMalformed (x : Site) (q : Packet) : Site :=
  let x := countDrop x
  if isNull q.src then x else onCore (fun c => injectAns c x.id (faultRep (coreName x) x.id q rMALFORMED 0)) x

/-- Whether a contribution whose turn has come is still to be applied. -/
def turnReady (c : Core) : Bool := c.ordReady != [] && (c.evict.st == .run || c.evict.st == .stopping)
/-- The packet a core handles next: the one that arrived first (R40), once the lines of an earlier one have performed and
the contributions whose turn has come have been applied (R267, R272). A packet behind a STOP waits for it (R406). -/
-- DEDUCED: log 125.
def nextArrival (x : Site) : Option Packet :=
  if x.core.landing.isSome || turnReady x.core then none
  else (x.core.arrivals.takeWhile fun p => p.kind != kSTOP).find? fun p => p.vc != 2
/-- The core without it. -/
def popArrival (x : Site) : Site := onCore (fun c => { c with arrivals := c.arrivals.eraseP fun p => p.vc != 2 }) x
/-- The packet on VC2 that a core handles next, and the core without it. -/
def nextVc2 (x : Site) : Option Packet := x.core.arrivals.find? fun p => p.vc == 2
def popVc2 (x : Site) : Site := onCore (fun c => { c with arrivals := c.arrivals.eraseP fun p => p.vc == 2 }) x
/-- The core switched to or from another tenant refuses requests with RETRY (R406, R313). -/
-- DEDUCED: log 55.
-- DEDUCED: log 125.
def evicted (x : Site) : Bool := x.core.evict.st != .run
/-- Whether a core refuses a packet because it is switched: one that came by the STOP's arrival cycle is handled as in RUN (R406). -/
def refuses (x : Site) (p : Packet) : Bool := evicted x && p.late

/-- PACKET_LOCAL_COMPLETE (R283): a packet's last flit is in the injection buffer; its strand goes on, or
waits for the answer. -/
def localComplete (c : Core) (i time : Nat) : Core :=
  match c.inj0[i]? with
  | none => c
  | some j =>
    if j.done || j.reads || decide (time < j.ready) then c
    else
      let c := { c with inj0 := c.inj0.set i { j with done := true } }
      match j.key with
      | none => c
      | some key => match (strandOf c key).wait with
        | .localDone id d rep =>
          if id ≠ j.id then c
          else if rep then
            let r := if c.outs.any fun o => o.seq == j.pkt.seq && o.kind == .hwait then 4 else 6
            modStrand c key fun st => { st with wait := .reply r j.pkt.seq }
          else
            let c := match d with | some (r, v) => deliverG c key r v | none => c
            endWait c key true
        | _ => c
def execPacketLocalComplete (s : State) : Res :=
  .next (modSite s (argAt s 0) (onCore fun c => localComplete c (argAt s 1) s.time))

end Sys2Proof.Machine
end

