-- ==== Sys2Proof/Machine/Router.lean ====
section
/-! DEFINITION. Routers: links, attachments, routing, the name table, guards and their reports, unreachable
packets, flooding, path records and probes, bridges and links that go down (R17, R52 to R74, R292). -/

namespace Sys2Proof.Machine

/-! ### Ports, links and attachments. Ports: 0 north, 1 east, 2 south, 3 west, 4 local, 5 edge -/

/-- The opposite mesh port. -/
def opp (d : Nat) : Nat := (d + 2) % 4
/-- The neighbouring site in a direction on the wafer. -/
def nbr (sid d : Nat) : Option Nat :=
  let x := siteX sid
  let y := siteY sid
  match d with
  | 0 => if y = 0 then none else some (sid - 192)
  | 1 => if x = 191 then none else some (sid + 1)
  | 2 => if y = 191 then none else some (sid + 192)
  | 3 => if x = 0 then none else some (sid - 1)
  | _ => none
/-- Whether LINK_STATE shows a mesh link up (R69). -/
def linkUp (x : Site) (d : Nat) : Bool := decide (d < 4) && bitN (reg x 0x076) (8 * d + 5)
/-- The park id PORT_PARK holds for a port (R67). -/
def portPark (x : Site) (p : Nat) : Nat := regF x 0x074 (8 * p + 7) (8 * p)

/-- An attachment of the edge ring (R17): a memory port, a bridge link, the host port, or the management core. -/
inductive Attach where
  | mem (k : Nat) | bridge (j : Nat) | host | mgmt
  deriving DecidableEq, Repr

/-- The sides on whose rim a site lies, with its position there. -/
def rimSides (sid : Nat) : List (Nat × Nat) :=
  let x := siteX sid
  let y := siteY sid
  (if y = 0 then [(0, x)] else []) ++ (if x = 191 then [(1, y)] else []) ++
    (if y = 191 then [(2, x)] else []) ++ (if x = 0 then [(3, y)] else [])
/-- The attachment listed for a position of a side. -/
def attachPos (p : Nat) : Option Attach :=
  if p % 6 = 2 then some (.mem (p / 6))
  else if p % 4 = 1 then some (.bridge (p / 4))
  else if p = 95 then some .host
  else if p = 96 then some .mgmt
  else none
/-- The attachment of a site: its side and kind. -/
def attachOf (sid : Nat) : Option (Nat × Attach) :=
  (rimSides sid).findSome? fun e => (attachPos e.2).map fun a => (e.1, a)
/-- The rim site at a position of a side of a wafer. -/
def rimAt (w side p : Nat) : Nat :=
  match side with
  | 0 => siteAt w p 0
  | 1 => siteAt w 191 p
  | 2 => siteAt w p 191
  | _ => siteAt w 0 p
/-- The number of the port attached at a site: 132 × wafer + global number, hosts from 128 up. -/
def portAt (sid : Nat) : Option Nat :=
  match attachOf sid with
  | some (side, .mem k) => some (132 * siteW sid + 32 * side + k)
  | some (side, .host) => some (132 * siteW sid + 128 + side)
  | _ => none
/-- The number of the bridge unit at a site: 192 × wafer + global number. -/
def bridgeAt (sid : Nat) : Option Nat :=
  match attachOf sid with
  | some (side, .bridge j) => some (192 * siteW sid + 48 * side + j)
  | _ => none
/-- The rim site of a bridge unit, of a port, and of a management core. -/
def bridgeSite (b : Nat) : Nat := rimAt (b / 192) (b % 192 / 48) (4 * (b % 48) + 1)
def portSite (p : Nat) : Nat :=
  let u := p % 132
  if u < 128 then rimAt (p / 132) (u / 32) (6 * (u % 32) + 2) else rimAt (p / 132) (u - 128) 95
def mgmtSite (k : Nat) : Nat := rimAt (k / 4) (k % 4) 96
/-- The management core at a site. -/
def mgmtAt (sid : Nat) : Option Nat :=
  match attachOf sid with
  | some (side, .mgmt) => some (4 * siteW sid + side)
  | _ => none
/-- The ingress queues of a host port: 16 × (4 × wafer + side) + queue. -/
def queuesAt (sid : Nat) : List Nat :=
  match attachOf sid with
  | some (side, .host) => (upto 16).map fun q => 16 * (4 * siteW sid + side) + q
  | _ => []
def getIngress (s : State) (q : Nat) : Ingress := tget {} s.ingress q
def modIngress (s : State) (q : Nat) (f : Ingress → Ingress) : State := { s with ingress := tmod {} s.ingress q f }
/-- Whether a queue is bound, its name and park (R51). -/
def ingBound (i : Ingress) : Bool := bits i.bind 31 31 == 1
def ingName (i : Ingress) : Nat := bits i.bind 19 0

/-- Whether a site's router owns a name for its core, which has joined; a dead core's router keeps its name (R55, R70). -/
def ownsName (x : Site) (n : Nat) : Bool := x.life == .live && !isNull n && coreName x == n
/-- Whether the core that a router owns a name for can take packets (R65). -/
def ownsCore (x : Site) (n : Nat) : Bool := ownsName x n && !x.dead
/-- The port or the ingress queues that a name of the attachment belongs to (R49, R55). -/
def ownsPort (s : State) (sid n : Nat) : Bool :=
  match portAt sid with
  | some p => (getPort s p).present && (getPort s p).name == n && !isNull n
  | none => false
def ownsQueue (s : State) (sid n : Nat) : Bool :=
  !isNull n && (queuesAt sid).any fun q => ingBound (getIngress s q) && ingName (getIngress s q) == n
def ownsEdge (s : State) (sid n : Nat) : Bool := ownsPort s sid n || ownsQueue s sid n
def owns (s : State) (sid n : Nat) : Bool := ownsName (getSite s sid) n || ownsEdge s sid n

/-! ### Routing (R58, R73) -/

/-- A TARGET by wafer and coordinates: a site, or a place of the grid of 256 by 256 at which there is none (R58, R59). -/
def targetAt (v bx by' : Nat) : Nat :=
  if bx < 192 ∧ by' < 192 then siteAt v bx by' else 4 * sitesPerWafer + v * 2 ^ 16 + by' * 2 ^ 8 + bx
def targetX (t : Nat) : Nat := if t < 4 * sitesPerWafer then siteX t else (t - 4 * sitesPerWafer) % 2 ^ 8
def targetY (t : Nat) : Nat := if t < 4 * sitesPerWafer then siteY t else (t - 4 * sitesPerWafer) / 2 ^ 8 % 2 ^ 8
/-- The port a packet takes towards a TARGET of its wafer, none where no listed port is up (R58). -/
def routeTo (x : Site) (t : Nat) : Option Nat :=
  let ax := siteX x.id
  let ay := siteY x.id
  let bx := targetX t
  let by' := targetY t
  let up (d : Nat) : Bool := linkUp x d
  if bx < ax ∧ up 3 then some 3
  else if by' < ay ∧ up 0 then some 0
  else if bx < ax ∧ up 0 then some 0
  else if by' < ay ∧ up 3 then some 3
  else if bx < ax ∨ by' < ay then none
  else if ax < bx ∧ up 1 then some 1
  else if ay < by' ∧ up 2 then some 2
  else none

/-- The wafer a packet is bound for. -/
def waferOf (p : Packet) : Nat :=
  match p.ansTo with
  | some t => siteW t
  | none => bitsN p.dest 19 18
/-- The side towards the next wafer on the way to another: negative-first, columns before rows (R73). -/
def nextSide (w v : Nat) : Nat :=
  if v % 2 < w % 2 then 3
  else if v / 2 < w / 2 then 0
  else if w % 2 < v % 2 then 1
  else 2
/-- The wafer beyond a side. -/
def beyond (w side : Nat) : Nat :=
  match side with
  | 0 => w - 2
  | 1 => w + 1
  | 2 => w + 2
  | _ => w - 1
/-- The unit that faces a bridge unit over its link. -/
def facing (b : Nat) : Nat := 192 * beyond (b / 192) (b % 192 / 48) + 48 * opp (b % 192 / 48) + b % 48
/-- Whether a bridge is up: both of its units are there (R73). -/
def bridgeUp (s : State) (b : Nat) : Bool := (tget {} s.bridges b).present && (tget {} s.bridges (facing b)).present
/-- The exit site towards another wafer: bridge j of the side, or the next one up; none where no bridge is up or the domain has no such
wafer. -/
-- DEDUCED: log 58.
-- DEDUCED: log 61.
def exitSite (s : State) (x : Site) (v : Nat) : Option Nat :=
  let w := siteW x.id
  let side := nextSide w v
  let j := regF x 0x077 (8 * side + 5) (8 * side) % 48
  if !(getModule s v).present then none
  else ((upto 48).map fun k => (j + k) % 48).findSome? fun j =>
    if bridgeUp s (192 * w + 48 * side + j) then some (rimAt w side (4 * j + 1)) else none

/-! ### Sending onwards -/

/-- The cycles that a link between two sites takes (R24). -/
def linkTime (a b : Nat) : Nat := if fieldOf a = fieldOf b then 1 else 9
/-- A packet on the link from a site by a side to another, which its header entered at a time: each flit follows the one before
it by a cycle, and none passes the tail of those still on their way (R24). -/
def trailing (time sid d n : Nat) (p : Packet) : Packet :=
  let tail := max (time + p.len) p.tail + linkTime sid n
  { p with hop1 := none, tail := tail, trail := (sid, d, tail) :: p.trail.filter fun e => decide (time < e.2.2) }
/-- A packet put on a mesh link: its header is at the neighbour no earlier than the hop and a field crossing take (R24). -/
-- DESIGN CHOICE: log 10.
def putLink (s : State) (sid d : Nat) (p : Packet) : State :=
  match nbr sid d with
  | none => s
  | some n =>
    modSite s n (onRouter fun r => { r with inq := r.inq ++ [(opp d, s.time + linkTime sid n, trailing s.time sid d n p)] })
/-- A packet handed to the bridge unit of a rim site (R74). -/
def toBridge (s : State) (sid : Nat) (p : Packet) : State :=
  match bridgeAt sid with
  | some b => { s with bridges := tmod {} s.bridges b fun u => { u with out := u.out ++ [{ p with hop1 := none }] } }
  | none => s
/-- A router's count of packets it discards (R52, R65, R66, R68). -/
-- DEDUCED: log 59.
def countGuard (s : State) (sid : Nat) : State :=
  modSite s sid fun x => setReg x 0x075 ((reg x 0x075 + 1) % 2 ^ 32)
/-- A name the router owns, or null (R291). -/
def routerName (s : State) (sid : Nat) : Nat :=
  let x := getSite s sid
  if x.life = .live ∧ !x.dead then coreName x else nullCore + siteW sid % 4 * 2 ^ 18
/-- A packet of the router itself (R56). -/
-- DEDUCED: log 63.
def posted (sid : Nat) (p : Packet) : Packet := { p with origin := sid, tgt := none, fld := false, ing := false }

/-! ### Delivery -/

/-- The cycle in which the STOP of an EVICT reached a core that runs. -/
def noteStop (p : Packet) (time : Nat) (e : Evict) : Evict :=
  if p.kind = kSTOP ∧ refusalOf p = 1 ∧ e.st = .run ∧ e.stopAt = none then { e with stopAt := some time } else e
/-- Whether a packet comes after the cycle in which the STOP reached its core (R406). -/
def isLate (e : Evict) (time : Nat) : Bool := match e.stopAt with | some t => t != time | none => e.st != .run
/-- A packet put before the site's core. -/
def toCore (s : State) (sid : Nat) (p : Packet) : State :=
  modSite s sid (onCore fun c => { c with arrivals := c.arrivals ++ [{ p with late := isLate c.evict s.time }]
                                          evict := noteStop p s.time c.evict })
/-- The ingress queue an answer belongs to: the lowest of its name with an outstanding packet of its SEQ (R49). -/
def queueFor (s : State) (sid : Nat) (p : Packet) : Option Nat :=
  (queuesAt sid).find? fun q =>
    let i := getIngress s q
    ingBound i && ingName i == p.dest && i.outs.any fun o => o.sent && o.pkt.seq == p.seq
/-- A packet put before the attachment. -/
-- DEDUCED: log 60.
def toEdge (s : State) (sid : Nat) (p : Packet) : State :=
  if isAnswer p.kind ∧ ownsQueue s sid p.dest then
    match queueFor s sid p with
    | some q => modIngress s q fun i => { i with arrivals := i.arrivals ++ [p] }
    | none => s
  else match portAt sid with
    | some k => modPort s k fun u => { u with arrivals := u.arrivals ++ [p] }
    | none => s
/-- A VC2 packet at its site: for the management core or port attached there, or for the site's core. -/
def deliver2 (s : State) (sid : Nat) (p : Packet) : State :=
  let forMgmt : Bool := match p.mgmt with
    | .windowAnswer => true | .guardDrop => true | .coreHalt => true | .stopDone => true | .portOpAnswer => true
    | _ => false
  if forMgmt then
    match mgmtAt sid with
    | some k => modMgmt s k fun m => { m with arrivals := m.arrivals ++ [p] }
    | none => s
  else if p.mgmt = .portOp then
    match portAt sid with
    | some k => modPort s k fun u => { u with arrivals := u.arrivals ++ [p] }
    | none => s
  else toCore s sid p

/-- A packet that is at its TARGET where it has been generated: it stands before the router once more. -/
def backHere (s : State) (sid : Nat) (p : Packet) : State :=
  modSite s sid (onRouter fun r => { r with inq := r.inq ++ [(6, s.time, { p with tgt := some sid, hop1 := none })] })
/-- An answer that cannot go on from the router that sends it: discarded and counted; a FLOOD packet is reported to its SRC (R57 step 1,
R65). -/
def ansLost (s : State) (sid : Nat) (p : Packet) : State :=
  if p.kind = kFLOOD ∧ !isNull p.src then backHere s sid (posted sid (faultRep (routerName s sid) sid p rUNREACHABLE 0))
  else countGuard s sid
/-- An answer on its way from a router: by its first hop where that is fixed (R68), else by R58's list towards its TARGET, or to the exit
of its wafer. -/
def sendAns (s : State) (sid : Nat) (p : Packet) : State :=
  let x := getSite s sid
  let v := waferOf p
  match (if v = siteW sid then p.ansTo else exitSite s x v) with
  | none => ansLost s sid p
  | some t =>
    let p := { p with tgt := some t }
    match p.hop1 with
    | some d => if linkUp x d then putLink s sid d p else countGuard s sid
    | none =>
      if t = sid then
        if v ≠ siteW sid then toBridge s sid p
        else if p.kind = kFLOOD then s
        else if p.mgmt ≠ .none then deliver2 s sid p
        else backHere s sid p
      else match routeTo x t with
        | some d => if linkUp x d then putLink s sid d p else ansLost s sid p
        | none => ansLost s sid p

/-- The answer to a window or port operation that cannot reach its place: subcode 4 (R391). -/
def windowLost (sid : Nat) (p : Packet) : Packet :=
  { kind := kMGMT, vc := 2, dest := siteWord p.origin, src := nullCore, ansTo := some p.origin, origin := sid, ks := rUNREACHABLE
    mgmt := if p.mgmt = .portOp then .portOpAnswer else .windowAnswer }
/-- The completion of a command for a site whose core cannot be stopped (R404, R414). -/
def stopAnswer (sid code : Nat) (p : Packet) : Packet :=
  { kind := kMGMT, vc := 2, dest := siteWord p.origin, src := nullCore, ansTo := some p.origin, origin := sid, ks := code
    arg0 := wordN (siteWord sid), mgmt := .stopDone }
/-- A VC2 packet that cannot go on is answered where it asks for an answer (R391, R404). -/
def lost2 (s : State) (sid : Nat) (p : Packet) : State :=
  if p.mgmt = .window ∨ p.mgmt = .portOp then sendAns s sid (windowLost sid p)
  else if p.kind = kSTOP then
    sendAns s sid { stopAnswer sid 1 p with arg0 := wordN (p.dest % 2 ^ 20) }
  else countGuard s sid
/-- A VC2 packet with its TARGET, which stands: at it, it crosses the bridge or is delivered; elsewhere it goes on by R58. -/
def route2 (s : State) (sid t : Nat) (p : Packet) : State :=
  let x := getSite s sid
  let p := { p with tgt := some t }
  if t = sid then
    if waferOf p ≠ siteW sid then toBridge s sid p
    else if x.life = .hole then lost2 s sid p
    else if p.kind = kSTOP ∧ (x.life ≠ .live ∨ x.dead) then sendAns s sid (stopAnswer sid 1 p)
    else deliver2 s sid p
  else match routeTo x t with
    | some d => putLink s sid d p
    | none => lost2 s sid p
/-- A VC2 packet that a router resolves (R59, R73). -/
-- DEDUCED: log 61.
def send2 (s : State) (sid : Nat) (p : Packet) : State :=
  let v := waferOf p
  match (if v = siteW sid then some (targetAt v (bitsN p.dest 7 0) (bitsN p.dest 15 8)) else exitSite s (getSite s sid) v) with
  | none => lost2 s sid p
  | some t => route2 s sid t p

/-! ### Reports (R64, R65, R68, R415) -/

/-- The REPLY to a probe (R64); it carries the serial number of the probe. -/
-- DESIGN CHOICE: log 162.
def probeReply (s : State) (sid : Nat) (p : Packet) : State :=
  sendAns s sid { posted sid { dest := p.src, src := routerName s sid, kind := kREPLY, vc := 1, park := p.park,
                               seq := p.seq, arg0 := p.arg0, arg1 := p.arg1, ansTo := some p.origin } with prb := true }

/-- A packet found unreachable (R65). -/
def unreach (s : State) (sid : Nat) (p : Packet) : State :=
  let name := routerName s sid
  if p.prb then if p.kind = kREPLY then countGuard s sid else probeReply s sid p
  else if p.kind = kINVOKE ∨ p.kind = kRLOAD ∨ p.kind = kRSTORE ∨ p.kind = kRATOMIC then
    sendAns s sid (posted sid { dest := p.src, src := name, kind := kNACK, vc := 1, seq := p.seq, park := p.park,
                                ks := rUNREACHABLE, ansTo := some p.origin })
  else if p.kind = kDATA ∨ p.kind = kCOPYDATA ∨ p.kind = kMGMT ∨ p.kind = kFLOOD then
    if isNull p.src then s else sendAns s sid (posted sid (faultRep name sid p rUNREACHABLE 0))
  else countGuard s sid

/-- ARG0 of a guard report: the GUARD_LOG layout (R416). -/
-- DEDUCED: log 63.
def guardLog (sid port : Nat) (p : Packet) : Nat :=
  let (pn, xp) := if port < 4 then (port, 0) else if port = 4 then (0, 1) else (1, 1)
  siteX sid + siteY sid * 2 ^ 8 + siteW sid % 4 * 2 ^ 16 + pn * 2 ^ 18 + p.src % 2 ^ 20 * 2 ^ 20 +
    p.park % 256 * 2 ^ 40 + p.kind % 16 * 2 ^ 48 + xp * 2 ^ 54

/-- The report of a packet dropped by the guard of a port, to the management core (R68, R415). -/
def guardReport (s : State) (sid port : Nat) (p : Packet) : State :=
  let side := regF (getSite s sid) 0x073 45 44
  send2 s sid (posted sid
    { kind := kMGMT, vc := 2, dest := siteWord (rimAt (siteW sid) side 96), src := nullCore, park := p.park,
      arg0 := wordN (guardLog sid port p), mgmt := .guardDrop })
/-- A packet dropped by the guard of a port; `via` is the port by which it reached the router (R68, R415). A
probe is answered instead (R64), and a FAULTREP is counted only. -/
-- DEDUCED: log 59.
-- DEDUCED: log 153.
def guardDrop (s : State) (sid port via : Nat) (p : Packet) : State :=
  if p.prb && p.kind != kREPLY then probeReply s sid p
  else
    let s := modSite (countGuard s sid) sid (onRouter fun r => { r with dropped := port + 1 })
    let s := if p.kind = kFAULTREP then s else guardReport s sid port p
    if isAnswer p.kind then s
    else
      let r := posted sid (faultRep (routerName s sid) sid p rGUARD 0)
      if via = 5 then
        match bridgeAt sid with
        | some _ => toBridge s sid r
        | none => toEdge s sid r
      else sendAns s sid { r with hop1 := if via < 4 then some via else none }

/-- A request to a name that the site holds while its core is evicted is refused RETRY before the guards (R406). -/
def heldFor (x : Site) (p : Packet) : Bool :=
  p.vc == 0 && !p.prb && (match x.router.hold with | some (n, k) => p.dest == n && p.park == k | none => false)
def refuseHeld (s : State) (sid : Nat) (p : Packet) : State :=
  let name := coreName (getSite s sid)
  if p.kind = kDATA ∧ !(p.counter ≠ 0 ∧ p.handler = 0) then
    if isNull p.src then s else sendAns s sid (posted sid (faultRep name sid p rRETRY 0))
  else sendAns s sid (posted sid { dest := p.src, src := name, kind := kNACK, vc := 1, seq := p.seq, park := p.park,
                                   ks := rRETRY, ansTo := some p.origin })

/-! ### The name table (R60 to R63) -/

def setOf (n : Nat) : Nat := (bitsN n 5 0).xor ((bitsN n 11 6).xor (bitsN n 17 12))
def ntEntry (r : Router) (set way : Nat) : Nat := (tget 0 r.nt (8 * set + way)).toNat
def ntValid (e : Nat) : Bool := bitN e 42
def ntPin (e : Nat) : Bool := bitN e 41
def ntAge (e : Nat) : Nat := bitsN e 40 38
def ntPort (e : Nat) : Nat := bitsN e 37 36
/-- Whether an entry's site and PORT are legal at a router (R61). -/
def ntLegal (x : Site) (bx by' port : Nat) : Bool :=
  let ax := siteX x.id
  let ay := siteY x.id
  !(bx == ax && by' == ay) && linkUp x port &&
  (if bx < ax ∨ by' < ay then port == 0 || port == 3
   else (port == 1 && decide (ax < bx)) || (port == 2 && decide (ay < by')))
/-- An entry changed by an event of a rank: 4 a link that goes down, 3 a write or FLUSH, 2 learning, 1 a hit. Where an event of
a higher rank has met it in this cycle it stays (R63). -/
-- DEDUCED: log 151.
def ntPut (r : Router) (rank k v : Nat) : Router :=
  if rank < tget 0 r.ntRank k then r
  else { r with nt := tset r.nt k (wordN v), ntRank := tset r.ntRank k rank
                ntOld := if (tget? r.ntOld k).isSome then r.ntOld else tset r.ntOld k (tget 0 r.nt k) }
/-- An entry as it stood at the start of the cycle, as a lookup sees it (R63). -/
def ntStart (r : Router) (set way : Nat) : Nat :=
  match tget? r.ntOld (8 * set + way) with
  | some w => w.toNat
  | none => ntEntry r set way
/-- The way of a valid entry for a name in a view of the table. -/
def ntFind (view : Nat → Nat → Nat) (n : Nat) : Option Nat :=
  (upto 8).find? fun w => ntValid (view (setOf n) w) && bitsN (view (setOf n) w) 19 0 == n
/-- A lookup: the TARGET and first hop; a hit on an unpinned entry sets its age to 0 (R63). -/
def ntLookup (x : Site) (n : Nat) : Option (Site × Nat × Nat) :=
  match ntFind (ntStart x.router) n with
  | none => none
  | some w =>
    let e := ntStart x.router (setOf n) w
    let x := if ntPin e then x else onRouter (fun r => ntPut r 1 (8 * setOf n + w) (setBitsN e 40 38 0)) x
    some (x, targetAt (siteW x.id) (bitsN e 27 20) (bitsN e 35 28), ntPort e)
/-- The way a name with no entry is learned into: the lowest invalid way, else the unpinned way of highest age
(R62). -/
def ntVictim (r : Router) (set : Nat) : Option Nat :=
  match (upto 8).find? fun w => !ntValid (ntEntry r set w) with
  | some w => some w
  | none => (upto 8).foldl (fun b w =>
      let e := ntEntry r set w
      if ntPin e then b
      else match b with
        | none => some w
        | some v => if ntAge (ntEntry r set v) < ntAge e then some w else b) none
/-- What a router learns from a header that has passed the guard of a mesh port (R62). -/
def learn (s : State) (sid port : Nat) (p : Packet) : State :=
  let x := getSite s sid
  if !bitN (reg x 0x072) 16 || isNull p.src || bitsN p.src 19 18 != siteW sid % 4 || owns s sid p.src ||
     !ntLegal x (siteX p.origin) (siteY p.origin) port then s
  else
    let n := p.src
    let set := setOf n
    let e := n + siteX p.origin * 2 ^ 20 + siteY p.origin * 2 ^ 28 + port * 2 ^ 36 + 2 ^ 42
    let w := match ntFind (ntEntry x.router) n with
      | some w => if ntPin (ntEntry x.router set w) then none else some w
      | none => ntVictim x.router set
    match w with
    | none => s
    | some w => modSite s sid (onRouter fun r => ntPut r 2 (8 * set + w) e)
/-- One tick of ageing, at the end of its cycle: an entry that another event has met in the cycle stays (R63). -/
def ntTick (r : Router) : Router :=
  { r with ticked := false, ntRank := [], nt := r.nt.map fun e =>
      let v := e.2.toNat
      if ntValid v && !ntPin v && (tget? r.ntRank e.1).isNone then
        (e.1, wordN (if ntAge v < 7 then setBitsN v 40 38 (ntAge v + 1) else setBitsN v 42 42 0))
      else e }
/-- The entries that satisfy a condition invalid by an event of a rank: VALID reads 0, and the other fields stay as they were. -/
-- DESIGN CHOICE: log 152.
def ntInvalid (r : Router) (rank : Nat) (f : Nat → Bool) : Router :=
  r.nt.foldl (fun r e => if ntValid e.2.toNat && f e.2.toNat then ntPut r rank e.1 (setBitsN e.2.toNat 42 42 0) else r) r
/-- The entries invalid whose PORT uses a link, at the start of the cycle or since (R63, R70). -/
def ntUnlink (d : Nat) (r : Router) : Router :=
  let uses (e : Nat) : Bool := ntValid e && ntPort e == d
  r.nt.foldl (fun r e =>
    let old := ((tget? r.ntOld e.1).getD e.2).toNat
    if uses old then ntPut r 4 e.1 (setBitsN old 42 42 0)
    else if uses e.2.toNat then ntPut r 4 e.1 (setBitsN e.2.toNat 42 42 0) else r) r
/-- Every unpinned entry invalid (R63). -/
-- DESIGN CHOICE: log 152.
def ntFlush (r : Router) : Router := ntInvalid r 3 fun e => !ntPin e
/-- The table at the end of a cycle: a tick that falls in it is due, and the next cycle's table stands as it is. -/
def ntSettle (tick : Bool) (r : Router) : Router :=
  { r with ntOld := [], ntRank := if r.ticking then r.ntRank else [], ticked := r.ticking, ticking := tick, dropped := 0 }

/-! ### Flooding (R66) -/

/-- The parent port and the child ports of a router in its park's flood tree; none where it is in none. -/
def floodPorts (x : Site) : Option (Option Nat × List Nat) :=
  let parent := regF x 0x073 41 40
  if parent = 3 then none
  else some (if parent = 1 then some 0 else if parent = 2 then some 3 else none,
             (if regF x 0x073 42 42 = 1 then [1] else []) ++ (if regF x 0x073 43 43 = 1 then [2] else []))
/-- Copies sent by several ports; those over down links are discarded. -/
def fanout (s : State) (sid : Nat) (ports : List Nat) (p : Packet) : State :=
  (ports.filter (linkUp (getSite s sid))).foldl (fun s d => putLink s sid d p) s
/-- A flood begun at its resolving router. -/
def floodStart (s : State) (sid : Nat) (p : Packet) : State :=
  match floodPorts (getSite s sid) with
  | none => unreach s sid p
  | some (up, kids) => fanout s sid (up.toList ++ kids) { p with fld := true }

/-! ### Arrival at the TARGET -/

/-- A packet at the router it was bound for: across a bridge, to an owner of its DEST past the guard of that
port, or unreachable (R58, R65, R68). -/
def atTarget (s : State) (sid via : Nat) (p : Packet) : State :=
  let x := getSite s sid
  if waferOf p ≠ siteW sid ∧ !p.fld then toBridge s sid p
  else if p.mgmt ≠ .none then deliver2 s sid p
  else if ownsCore x p.dest then
    if portPark x 4 = p.park then toCore s sid p else guardDrop s sid 4 via p
  else if ownsEdge s sid p.dest then
    if portPark x 5 = p.park then toEdge s sid p else guardDrop s sid 5 via p
  else if isAnswer p.kind then countGuard s sid
  else unreach s sid p

/-- A packet that leaves its resolving router by a path: a target with a first hop, or flooded. -/
def leave (s : State) (sid : Nat) (path : Option (Nat × Nat)) (p : Packet) : State :=
  match path with
  | none => floodStart s sid p
  | some (t, d) =>
    if d = 5 then (if p.prb then probeReply s sid p else toBridge s sid p)
    else if linkUp (getSite s sid) d then putLink s sid d { p with tgt := some t } else unreach s sid p

/-! ### Path records (R64) -/

/-- What the record of a port asks of a packet with a path: whether it leaves now. -/
def touch (pr : PathRec) (n : Nat) (path : Option (Nat × Nat)) : List PathEntry :=
  { dest := n, path := path } :: pr.entries.filter fun e => e.dest != n
/-- A packet with a path at the record of its port and channel: it leaves, or a probe goes out and it is held. -/
def record (s : State) (sid key : Nat) (path : Option (Nat × Nat)) (p : Packet) : State :=
  let pr := tget {} (getSite s sid).router.paths key
  let set (r : PathRec) (s : State) : State := modSite s sid (onRouter fun x => { x with paths := tset x.paths key r })
  let probe (old : PathEntry) : State :=
    let serial := (getSite s sid).router.probes
    let s := set { pr with probe := some (old.dest, serial), held := { p with tgt := path.map fun e => e.1,
                                                                                   hop1 := path.map fun e => e.2 } :: pr.held } s
    let s := modSite s sid (onRouter fun x => { x with probes := serial + 1 })
    leave s sid old.path { dest := p.dest, src := p.src, kind := p.kind, vc := p.vc, park := p.park, prb := true,
                           origin := sid, arg0 := wordN serial, arg1 := wordN key }
  match pr.entries.find? fun e => e.dest == p.dest with
  | some e => if e.path = path then leave (set { pr with entries := touch pr p.dest path } s) sid path p else probe e
  | none =>
    if pr.entries.length < 16 then leave (set { pr with entries := touch pr p.dest path } s) sid path p
    else match pr.entries.getLast? with
      | some e => probe e
      | none => s

/-- A packet resolved at the first router of its wafer that handles it, at a port: 4 local, 5 edge, 6 the router
itself (R57). A packet behind a probe is held. -/
def resolve (s : State) (sid port : Nat) (p : Packet) : State :=
  let x := getSite s sid
  let key := 4 * port + p.vc
  let recorded : Bool := decide (port < 6) && (p.vc == 0 || p.vc == 3)
  if p.vc = 2 then send2 s sid p
  else if isNull p.dest then countGuard s sid
  else if recorded && (tget {} x.router.paths key).probe.isSome then
    modSite s sid (onRouter fun r => { r with paths := tmod {} r.paths key fun c => { c with held := c.held ++ [p] } })
  else if isAnswer p.kind || p.kind == kFLOOD then sendAns s sid p
  else if waferOf p ≠ siteW sid then
    match exitSite s x (waferOf p) with
    | none => unreach s sid p
    | some t =>
      match (if t = sid then some 5 else routeTo x t) with
      | none => unreach s sid p
      | some d => if recorded then record s sid key (some (t, d)) p else leave s sid (some (t, d)) p
  else if owns s sid p.dest then atTarget s sid port p
  else match ntLookup x p.dest with
    | some (x, t, d) =>
      let s := setSite s sid x
      if recorded then record s sid key (some (t, d)) p else leave s sid (some (t, d)) p
    | none =>
      if regF x 0x073 19 0 ≤ p.dest ∧ p.dest ≤ regF x 0x073 39 20 then
        if recorded then record s sid key none p else leave s sid none p
      else unreach s sid p

/-- A packet injected at an edge attachment: past the guard of the edge port, then resolved (R67, R68). -/
-- DEDUCED: log 60.
def injectEdge (s : State) (sid : Nat) (p : Packet) : State :=
  let x := getSite s sid
  if heldFor x p then refuseHeld s sid p
  else if p.vc ≠ 2 ∧ portPark x 5 ≠ p.park then guardDrop s sid 5 5 p
  else resolve s sid 5 p

/-- Held packets leave in order: the first by the path it was held with, the others as they resolve anew (R64). -/
-- DEDUCED: log 62.
def letGo (s : State) (sid port : Nat) : List Packet → Bool → State
  | [], _ => s
  | p :: l, true =>
    let path := match p.tgt, p.hop1 with | some t, some d => some (t, d) | _, _ => none
    letGo (leave s sid path { p with tgt := none, hop1 := none }) sid port l false
  | p :: l, false => letGo (resolve s sid port p) sid port l false

/-- A probe's answer at the resolving router: the record is rewritten and the held packets leave (R64). -/
-- DEDUCED: log 62.
def probeAnswered (s : State) (sid key serial : Nat) : State :=
  let pr := tget {} (getSite s sid).router.paths key
  match pr.probe, pr.held with
  | some (d, k), p :: l =>
    if k ≠ serial then s
    else
      let path := match p.tgt, p.hop1 with | some t, some d => some (t, d) | _, _ => none
      let pr := { pr with entries := { dest := p.dest, path := path } :: pr.entries.filter (fun e => e.dest != d && e.dest != p.dest),
                          probe := none, held := [] }
      let s := modSite s sid (onRouter fun x => { x with paths := tset x.paths key pr })
      letGo s sid (key / 4) (p :: l) true
  | _, _ => s

/-- Every probe of a router abandoned, its records emptied and its held packets let go (R64). -/
def clearProbes (s : State) (sid : Nat) : State :=
  let recs := (getSite s sid).router.paths
  let s := modSite s sid (onRouter fun r => { r with paths := [] })
  recs.foldl (fun s e => letGo s sid (e.1 / 4) e.2.held (e.2.probe.isSome)) s

/-! ### Events at a router -/

/-- Whether a packet follows a tree: of a reduction or broadcast, a multicast tile, or its credit (R57, R273). -/
def onTree (p : Packet) : Bool := isTree p.kind || (p.kind == kCOPYDATA && bits p.arg1 18 17 == 3) || p.kind == kCOPYACK
/-- Whether a router passes a packet on behind its header: it is neither bound for this site nor for the routers of a tree, which
take it whole. -/
-- DESIGN CHOICE: log 166.
def passes (s : State) (sid : Nat) (p : Packet) : Bool :=
  if p.fld then !owns s sid p.dest else !onTree p && p.tgt != some sid
/-- The packet at a place of a router's input, where no earlier one of its port and channel waits and its header can be
there, or all of its flits where it goes no further (R24). -/
-- DESIGN CHOICE: log 166.
def inputAt (s : State) (sid q : Nat) : Option (Nat × Packet) :=
  let l := (getSite s sid).router.inq
  match l[q]? with
  | none => none
  | some (port, ready, p) =>
    if decide (s.time < ready) || (decide (s.time < p.tail) && !passes s sid p) || (l.take q).any fun e => e.1 == port && e.2.2.vc == p.vc then none else some (port, p)
/-- The router without it. -/
def takeInput (s : State) (sid q : Nat) : State :=
  modSite s sid (onRouter fun r => { r with inq := r.inq.eraseIdx q })

/-- A header at a router past its guard, learned from; `none` where it was dropped or refused (R62, R68, R406). -/
def admitInput (s : State) (sid port : Nat) (p : Packet) : State × Bool :=
  let x := getSite s sid
  if p.vc = 2 then (s, true)
  else if heldFor x p then (refuseHeld s sid p, false)
  else if port < 6 ∧ portPark x port ≠ p.park then (guardDrop s sid port port p, false)
  else if p.prb && p.kind != kREPLY then (s, true)
  else (learn s sid port p, true)

/-- Whether a packet is one of a kind with an event of its own at this router: a flood copy, a probe or its
answer at its end, a FLOOD packet at its end, a tree packet, a multicast tile or its credit. -/
def special (sid : Nat) (p : Packet) : Bool :=
  p.fld || onTree p || ((p.prb || p.kind == kFLOOD) && p.tgt == some sid)

/-- A packet that goes on to its TARGET by R58, or has reached it. -/
def onward (s : State) (sid port : Nat) (p : Packet) : State :=
  match p.tgt with
  | none => unreach s sid p
  | some t =>
    if p.vc = 2 then route2 s sid t p
    else if t = sid then atTarget s sid port p
    else match routeTo (getSite s sid) t with
      | some d => putLink s sid d p
      | none => unreach s sid p

/-- A packet as its core injects it: ORIGIN is the router's site, and PARK is PORT_PARK.LOCAL but for the report of a refused packet
(R56, R67, R291). -/
def injected (x : Site) (p : Packet) : Packet :=
  { p with origin := x.id, ing := false, park := if p.kind = kFAULTREP then p.park else localPark x }
/-- PACKET_RESOLVE (R57): the oldest packet of a core's VC0 (0) or VC1 (1) injection buffer is resolved; a multicast tile goes to its
tree (R273). None begins from the cycle on in which a STOP reaches the core (R407). -/
def execPacketResolve (s : State) : Res :=
  let sid := argAt s 0
  let c := (getSite s sid).core
  if argAt s 1 = 0 then
    match c.inj0 with
    | j :: l =>
      if j.done && c.evict.st == .run && c.evict.stopAt.isNone then
        let p := injected (getSite s sid) j.pkt
        let s := modSite s sid (onCore fun c => { c with inj0 := l })
        if p.kind = kCOPYDATA ∧ bits p.arg1 18 17 = 3 then
          .next (modSite s sid (onRouter fun r => { r with inq := r.inq ++ [(4, s.time, p)] }))
        else .next (resolve s sid 4 p)
      else .next s
    | [] => .next s
  else match c.inj1 with
    | p :: l => .next (resolve (modSite s sid (onCore fun c => { c with inj1 := l })) sid 4 (injected (getSite s sid) p))
    | [] => .next s

/-- The port at whose guard a packet that a port brings would be dropped (R68). -/
def dropPort (s : State) (sid port : Nat) (p : Packet) : Option Nat :=
  let x := getSite s sid
  if p.vc = 2 ∨ (p.prb ∧ p.kind ≠ kREPLY) ∨ heldFor x p then none
  else if port < 6 ∧ portPark x port ≠ p.park then some port
  else if p.fld ∨ (p.tgt = some sid ∧ waferOf p = siteW sid) then
    if ownsCore x p.dest then (if portPark x 4 = p.park then none else some 4)
    else if ownsEdge s sid p.dest ∧ portPark x 5 ≠ p.park then some 5 else none
  else none
/-- Whether a packet that a guard drops would be reported before one of a later port that has been dropped in this cycle (R415). -/
-- DEDUCED: log 153.
def dropLate (s : State) (sid port : Nat) (p : Packet) : Bool :=
  match dropPort s sid port p with
  | some k => decide (k + 1 < (getSite s sid).router.dropped)
  | none => false

/-- PACKET_HOP (R58): a header at a router passes the guard and is forwarded, delivered or found unreachable. -/
def execPacketHop (s : State) : Res :=
  let sid := argAt s 0
  match inputAt s sid (argAt s 1) with
  | none => .next s
  | some (port, p) =>
    if special sid p then .next s
    else
      let (s, ok) := admitInput (takeInput s sid (argAt s 1)) sid port p
      .next (if ok then onward s sid port p else s)

/-- The FLOOD packet by which an owner teaches its name (R66). -/
def teach (s : State) (sid : Nat) (p : Packet) : State :=
  if isNull p.src then s
  else sendAns s sid (posted sid { dest := p.src, src := p.dest, kind := kFLOOD, vc := 3, park := p.park, seq := p.seq,
                                   ansTo := some p.origin })
/-- A flood copy past the guard: delivered where DEST is owned, else passed along the tree (R66). A copy that a leaf discards is counted
unless it is a probe's (R64); one that comes by a port that is neither parent nor child is counted always. -/
-- DESIGN CHOICE: log 167.
def floodOn (s : State) (sid port : Nat) (p : Packet) : State :=
  if owns s sid p.dest then
    if p.prb then probeReply s sid p
    else atTarget (if ownsCore (getSite s sid) p.dest || ownsEdge s sid p.dest then teach s sid p else s) sid port p
  else match floodPorts (getSite s sid) with
    | none => countGuard s sid
    | some (up, kids) =>
      if up ≠ some port ∧ !kids.contains port then countGuard s sid
      else
        let out := (if up = some port then [] else up.toList) ++ kids.filter fun d => d != port
        if out = [] then (if p.prb then s else countGuard s sid) else fanout s sid out p
/-- FLOOD_COPY_ARRIVAL (R66). -/
def execFloodCopyArrival (s : State) : Res :=
  let sid := argAt s 0
  match inputAt s sid (argAt s 1) with
  | none => .next s
  | some (port, p) =>
    if !p.fld || p.prb then .next s
    else
      let (s, ok) := admitInput (takeInput s sid (argAt s 1)) sid port p
      .next (if ok then floodOn s sid port p else s)

/-- FLOOD_PACKET_SINK (R66): the packet that teaches a name is learned from and sunk at its TARGET. -/
def execFloodPacketSink (s : State) : Res :=
  let sid := argAt s 0
  match inputAt s sid (argAt s 1) with
  | none => .next s
  | some (port, p) =>
    if p.kind ≠ kFLOOD ∨ p.prb ∨ p.tgt ≠ some sid ∨ p.fld then .next s
    else if waferOf p ≠ siteW sid then
      let (s, ok) := admitInput (takeInput s sid (argAt s 1)) sid port p
      .next (if ok then toBridge s sid p else s)
    else .next (admitInput (takeInput s sid (argAt s 1)) sid port p).1

/-- PROBE_ARRIVAL (R64): a probe at its recorded TARGET, or a flooded one at any router, is answered or passed
on. -/
def execProbeArrival (s : State) : Res :=
  let sid := argAt s 0
  match inputAt s sid (argAt s 1) with
  | none => .next s
  | some (port, p) =>
    if !p.prb || p.kind == kREPLY || !(p.fld || p.tgt == some sid) then .next s
    else
      let (s, ok) := admitInput (takeInput s sid (argAt s 1)) sid port p
      .next (if !ok then s else if p.fld then floodOn s sid port p else probeReply s sid p)

/-- PROBE_ANSWER (R64): the answer reaches the resolving router. -/
def execProbeAnswer (s : State) : Res :=
  let sid := argAt s 0
  match inputAt s sid (argAt s 1) with
  | none => .next s
  | some (port, p) =>
    if !p.prb || p.kind != kREPLY || p.tgt != some sid then .next s
    else
      let (s, ok) := admitInput (takeInput s sid (argAt s 1)) sid port p
      .next (if ok then probeAnswered s sid p.arg1.toNat p.arg0.toNat else s)

/-- Whether a tick falls in a cycle, as ROUTE_CFG stands when it begins (R63). -/
def tickFalls (x : Site) (time : Nat) : Bool :=
  let n := regF x 0x072 15 0
  (x.life == .live || x.life == .transit) && n != 0 && time % (1024 * n) == 0
/-- NAME_TABLE_TICK (R63): the ageing tick of the cycle that has ended. -/
def execNameTableTick (s : State) : Res :=
  .next (modSite s (argAt s 0) fun x => if x.router.ticked then onRouter ntTick x else x)
/-- ROUTE_FLUSH (R63). -/
def execRouteFlush (s : State) : Res := .next (modSite s (argAt s 0) (onRouter ntFlush))
/-- PROBE_CLEAR (R64). -/
def execProbeClear (s : State) : Res := .next (clearProbes s (argAt s 0))

/-- A packet lost on a link: the upstream router reports it (R292), or answers a lost probe (R64). -/
def reportLost (s : State) (sid : Nat) (p : Packet) : State :=
  if p.prb then if p.kind = kREPLY then s else probeReply s sid p
  else if p.kind = kFAULTREP then countGuard s sid
  else if isTree p.kind ∨ p.kind = kFLOOD then s
  else if p.mgmt = .window ∨ p.mgmt = .portOp then sendAns s sid (windowLost sid p)
  else if p.vc = 2 then s
  else
    let r := faultRep (routerName s sid) sid p rLOST (if isAnswer p.kind then 2 else 1)
    sendAns s sid (posted sid (if isAnswer p.kind then { r with dest := p.dest, ansTo := p.ansTo } else r))
/-! ### Bridges (R74) -/

/-- BRIDGE_FORWARD: the oldest packet of a virtual channel crosses to the facing unit, in 200 cycles or more (R74); where that unit is
no longer there, it is lost as on a link that went down (R292). -/
def execBridgeForward (s : State) : Res :=
  let b := argAt s 0
  let u : Bridge := tget {} s.bridges b
  match u.out[argAt s 1]? with
  | none => .next s
  | some p =>
    if (u.out.take (argAt s 1)).any fun e => e.vc == p.vc then .next s
    else
      let up := bridgeUp s b
      let s := { s with bridges := tset s.bridges b { u with out := u.out.eraseIdx (argAt s 1) } }
      if !up then .next (reportLost s (bridgeSite b) p)
      else .next { s with bridges := tmod {} s.bridges (facing b) fun v => { v with inn := v.inn ++ [(s.time + 200, p)] } }

/-- Whether an edge attachment holds back what it would inject: a packet has been dropped at the edge port in this cycle, and one that
followed it might be dropped at LOCAL, whose report comes first (R415). -/
def edgeHeld (s : State) (sid : Nat) : Bool := decide ((getSite s sid).router.dropped = 6)
/-- BRIDGE_REINJECT: the far unit injects the packet again, with ORIGIN and ING kept and TARGET unresolved (R56).
Tree packets enter the tree buffers of the rim router. -/
def execBridgeReinject (s : State) : Res :=
  let b := argAt s 0
  let u : Bridge := tget {} s.bridges b
  match u.inn[argAt s 1]? with
  | none => .next s
  | some (ready, p) =>
    if decide (s.time < ready) || (u.inn.take (argAt s 1)).any fun e => e.2.vc == p.vc then .next s
    else
      let sid := bridgeSite b
      let s := { s with bridges := tset s.bridges b { u with inn := u.inn.eraseIdx (argAt s 1) } }
      let p := { p with tgt := none, fld := false, hop1 := none }
      if onTree p then
        .next (modSite s sid (onRouter fun r => { r with inq := r.inq ++ [(5, s.time, p)] }))
      else .next (injectEdge s sid p)

/-! ### Links that go down (R70, R292) -/

/-- One end of a link marked down: UP cleared, LOST set, entries by that port invalid. -/
def endDown (d : Nat) (x : Site) : Site :=
  let v := setBitsN (setBitsN (reg x 0x076) (8 * d + 5) (8 * d + 5) 0) (8 * d + 6) (8 * d + 6) 1
  onRouter (ntUnlink d) (setReg x 0x076 v)
/-- Whether the tail of a packet has not come over the link by a side of a site. -/
def crosses (time a d : Nat) (p : Packet) : Bool := p.trail.any fun e => e.1 == a && e.2.1 == d && decide (time < e.2.2)
/-- Packets whose tail has not come over a link are lost, wherever their headers are, and the upstream router reports them. -/
def cutLink (s : State) (a d : Nat) : State :=
  let lost := s.sites.flatMap fun e => e.2.router.inq.filter fun q => crosses s.time a d q.2.2
  let s := { s with sites := s.sites.map fun e =>
               (e.1, onRouter (fun r => { r with inq := r.inq.filter fun q => !crosses s.time a d q.2.2 }) e.2) }
  lost.foldl (fun s e => reportLost s a e.2.2) s
/-- A link goes down at both ends; packets whose tail has not arrived are lost and reported by their upstream routers. -/
def linkDown (s : State) (a d : Nat) : State :=
  match nbr a d with
  | none => s
  | some b =>
    if !linkUp (getSite s a) d then s
    else
      let s := modSite (modSite s a (endDown d)) b (endDown (opp d))
      cutLink (cutLink s a d) b (opp d)
/-- LINK_DOWN (R70): a link whose retry fails goes down. -/
def execLinkDown (s : State) : Res := .next (linkDown s (argAt s 0) (argAt s 1))

end Sys2Proof.Machine
end

