-- ==== Sys2Proof/Machine/Mailbox.lean ====
section
/-! DEFINITION. The receiving side of work and messages: the mailbox, the message queue, handler entries, launches,
dependency counters and answers to invocations (R29 to R41, R286 to R294, R298, R448). -/

namespace Sys2Proof.Machine

/-! ### The mailbox (R286, R287) -/

/-- The slots of the ring. -/
def ringSize (c : Core) : Nat := 128 * c.mboxPages.length
/-- Whether a slot is occupied by a copy. -/
def slotUsed (c : Core) (i : Nat) : Bool :=
  c.copies.any fun e => decide ((i + ringSize c - e.2.start) % ringSize c < e.2.n)
/-- The first run of n consecutive free slots in ring order from the write pointer. -/
def findRun (c : Core) (n : Nat) : Option Nat :=
  if ringSize c < n then none
  else ((upto (ringSize c)).map fun k => (c.mboxPtr + k) % ringSize c).find? fun st =>
    (upto n).all fun j => !slotUsed c ((st + j) % ringSize c)
/-- Whether there is mailbox space for n flits. -/
def mailRoom (c : Core) (n : Nat) : Bool := (findRun c n).isSome
/-- One flit written into a slot of the ring. -/
-- DEDUCED: log 109.
def depositFlit (c : Core) (i : Nat) (f : Flit) : Core :=
  match c.mboxPages[i / 128]? with
  | some p => storePhys c (p * 4096 + i % 128 * 32) 32 f.toNat
  | none => c
/-- A run of n slots taken: the core and the number of the copy. -/
def reserve (c : Core) (n : Nat) : Core × Option Nat :=
  match findRun c n with
  | none => (c, none)
  | some st => ({ c with copies := tset c.copies c.copyIds { start := st, n := n }
                         copyIds := c.copyIds + 1, mboxPtr := (st + n) % ringSize c }, some c.copyIds)
/-- Flit k of a copy written. -/
def depositAt (c : Core) (id k : Nat) (f : Flit) : Core :=
  match tget? c.copies id with
  | some e => depositFlit c ((e.start + k) % ringSize c) f
  | none => c
/-- A header of one flit placed in a slot: the core and the number of the copy. -/
def deposit (c : Core) (f : Flit) : Core × Option Nat :=
  match reserve c 1 with
  | (c, some id) => (depositAt c id 0 f, some id)
  | (c, none) => (c, none)
/-- The flits of a packet, header first. -/
def flitsOf (p : Packet) : List Flit := headerFlit p :: p.payload
/-- The local address of a copy's header. -/
def copyAddr (x : Site) (id : Nat) : Word :=
  match tget? x.core.copies id with
  | some e => wordN (4096 * regF x 0x055 8 0 + 32 * e.start)
  | none => 0

/-! ### The message queue (R288, R300) -/

/-- The bit of a kind mask that selects an entry; a mask of 0 selects all. -/
def selects (mask kind : Nat) : Bool := mask % 8 == 0 || bitN mask kind
/-- The group a context acts for: a strand's own, the presented strand's for the supervisor (R130). -/
def grpOf (c : Core) (key : Nat) : Option Nat :=
  if key = supKey then c.sup.present.bind fun r => if r.slot < 16 then some r.grp else none else some (key / 16)
/-- Whether an entry is visible to a context and selected by a mask. -/
def eligibleFor (c : Core) (key mask : Nat) (e : MqEntry) : Bool :=
  selects mask e.kind && (e.owner.isNone || e.owner == grpOf c key)
/-- The waiting RECV that an entry goes to: the one that began to wait earliest among those it is eligible for. -/
-- DEDUCED: log 50.
def recvFor (c : Core) (e : MqEntry) : Option (Nat × Nat × Nat) :=
  (c.strands.filterMap fun s => match s.2.wait with
    | .recv mask d order => if eligibleFor c s.1 mask e then some (order, s.1, d) else none
    | _ => none).foldl (fun b w => match b with
      | none => some w
      | some v => if w.1 < v.1 then some w else b) none
/-- An entry made: a waiting RECV takes it, or it joins the queue. -/
-- DEDUCED: log 50.
def enterMq (x : Site) (e : MqEntry) : Site :=
  match recvFor x.core e with
  | some (_, key, d) =>
    let a := copyAddr x e.copy
    onCore (fun c => endWait (deliverG (modStrand c key fun st => { st with heldCopy := some e.copy }) key d a) key true) x
  | none => onCore (fun c => { c with mq := c.mq ++ [e] }) x
/-- The entries in use, with that of a message whose flits are still being deposited. -/
def mqUsed (c : Core) : Nat :=
  c.mq.length + match c.landing with
    | some l => if l.pkt.kind = kDATA ∧ l.pkt.handler = 0 ∧ l.pkt.counter = 0 then 1 else 0
    | none => 0
/-- A report or COPYACK of one flit entered where there is room for it: kind 1 COPYACK, 2 FAULTREP. -/
def putReport (x : Site) (p : Packet) (kind : Nat) (owner : Option Nat) : Option Site :=
  if 64 ≤ mqUsed x.core then none
  else match deposit x.core (headerFlit p) with
    | (c, some id) => some (enterMq { x with core := c } { copy := id, kind := kind, owner := owner })
    | (_, none) => none
/-- A report discarded for want of room is counted (R288). -/
def putOrLose (x : Site) (p : Packet) (owner : Option Nat) : Site :=
  match putReport x p 2 owner with
  | some y => y
  | none => countLost x 1

/-! ### Handler entries (R29, R30) -/

/-- The fields of an entry's 256 bits. -/
-- DEDUCED: log 34.
def entryOf (e : Nat) : Entry :=
  { pc := bitsN e 20 0, nstr := bitsN e 24 21, prio := bitsN e 26 25, en := bitN e 27, senders := bitsN e 29 28
    park := bitsN e 37 30
    claim := { b := bitsN e 69 64, l := bitsN e 78 70, t := bitsN e 82 79, c := bitsN e 88 83 }
    grant := { b := bitsN e 101 96, l := bitsN e 110 102, t := bitsN e 114 111, c := bitsN e 120 115 }
    wshape := bitsN e 163 128
    reserved := bitsN e 63 38 != 0 || bitsN e 95 89 != 0 || bitsN e 127 121 != 0 || bitsN e 255 164 != 0 }
/-- Whether an entry may launch (R30). -/
def entryValid (x : Site) (e : Entry) : Bool :=
  e.en && e.pc % 4 == 0 && rvLe e.grant e.claim && decide (e.grant.b ≤ 6 * (e.nstr + 1)) &&
    rvLe e.claim (allocatable x) && wshapeOk e.wshape && !e.reserved
/-- The local address of entry n. -/
def entryAddr (x : Site) (n : Nat) : Nat := regF x 0x046 20 0 + 32 * n
/-- Entry n as a core reads it, none where it is invalid, its page is not mapped, or its words are uncorrectable. -/
-- DEDUCED: log 34.
def readEntry (x : Site) (n : Nat) : Site × Option Entry :=
  let a := entryAddr x n
  if n = 0 ∨ !eValid (pmapAt x.core (a / 4096)) then (x, none)
  else
    let x := onCore (fun c => noteRead c (physOf c a) 32) x
    match badIn x.core.bad (physOf x.core a) 32 with
    | some _ => (countUes x (badWords x.core.bad [(physOf x.core a, 32)]) 1, none)
    | none =>
      let e := entryOf (readLocal x.core a 32)
      let firm := if 1000 ≤ n ∧ n ≤ 1003 ∧ e.pc = 4 * (Config.firmwarePc n).toNat then n else 0
      (x, if entryValid x e then some { e with firm := firm } else none)

/-! ### Launches (R37 to R41) -/

/-- Whether the queue of a class has a place; a launch whose flits are still being deposited has its own. -/
-- DEDUCED: log 150.
def placeFree (c : Core) (cls : Nat) : Bool :=
  let kept : Nat := match c.landing.bind fun l => l.entry with | some e => if e.prio = cls then 1 else 0 | none => 0
  decide ((tget [] c.invq cls).length + kept < 64)
/-- A launch queued: an admission evaluation is due (R105). -/
def enqueue (c : Core) (q : QEntry) : Core :=
  slotFreed { c with invq := tmod [] c.invq q.entry.prio fun l => l ++ [q] }
/-- Whether the sender of a packet is allowed by SENDERS (R38). -/
def senderOk (x : Site) (senders : Nat) (p : Packet) : Bool :=
  match senders with
  | 0 => true
  | 1 => !p.ing && siteW p.origin == siteW x.id && clusterOf p.origin == clusterOf x.id
  | 2 => !p.ing && p.origin == x.id
  | _ => p.ing
/-- A work identifier that is zero but for one level (R37). -/
def widAt (wshape sel v : Nat) : Nat := if sel < 6 then v % 2 ^ levelWidth wshape sel * 2 ^ levelLow wshape sel else 0
/-- The identifier and widths a packet launches with, none where its shape flit is wrong (R37). -/
def launchShape (e : Entry) (p : Packet) : Option (Nat × Nat) :=
  if p.kind = kINVOKE ∧ ksF p 106 106 = 1 then
    match p.payload with
    | f :: _ =>
      let v := f.toNat
      if v / 2 ^ 100 = 0 ∧ wshapeOk (bitsN v 99 64) then some (bitsN v 63 0, bitsN v 99 64) else none
    | [] => none
  else if p.kind = kINVOKE then some (widAt e.wshape (ksF p 109 107) (ksF p 127 110), e.wshape)
  else some (0, e.wshape)

/-- An answer to a launch packet: ACCEPT to an INVOKE, or a refusal. -/
def accept (x : Site) (p : Packet) : Site := if p.kind = kINVOKE then reply x p 1 0 else x

/-- What a packet comes to: refused with a code and detail, or accepted; the site after it, and the entry it launches. -/
inductive Taken where
  | refused (x : Site) (r d : Nat)
  | ok (x : Site) (entry : Option Entry)
  deriving DecidableEq, Repr

/-- The entry of a packet's launch: as it was read when the packet came, where its flits have been deposited since. -/
def entryFor (x : Site) (n : Nat) (l : Option Landing) : Site × Option Entry :=
  match l with
  | some l => (x, l.entry)
  | none => readEntry x n
/-- The copy that a packet of n flits is placed in: the one its flits stand in, or a run of free slots. -/
def copyFor (c : Core) (n : Nat) (l : Option Landing) : Core × Option Nat :=
  match l with
  | some l => (c, l.copy)
  | none => reserve c n

/-- An immediate launch (R38). -/
def launchNow (p : Packet) (l : Option Landing) (x : Site) : Taken :=
  let (x, e) := entryFor x p.handler l
  match e with
  | none => .refused x rINVALID 1
  | some e =>
    match launchShape e p with
    | none => .refused x rINVALID 6
    | some (wid, wshape) =>
      if p.park ≠ e.park then .refused x rINVALID 2
      else if !senderOk x e.senders p then .refused x rINVALID 3
      else if !placeFree x.core e.prio then .refused x rFULL 1
      else match copyFor x.core (1 + p.len) l with
        | (_, none) => .refused x rFULL 2
        | (c, some id) =>
          let x := { x with core := c }
          let q : QEntry := { entry := e, wid := wordN wid, wshape := wshape, g1 := (copyAddr x id).toNat,
                              g4 := p.arg0.toNat, g5 := p.arg1.toNat, copies := [id] }
          .ok (onCore (fun c => enqueue c q) x) (some e)

/-! ### Dependency counters (R39, R294, R305, R448) -/

def counterOf (c : Core) (k : Nat) : Option Counter := tget? c.counters k
/-- Every DWAIT on a counter ends (R305). -/
def wakeCounter (c : Core) (k : Nat) : Core :=
  (c.strands.filter fun s => s.2.wait == .counter k).foldl (fun c s => endWait c s.1 true) c
/-- The address of an accepted packet's copy written in the counter's list, where its page is mapped (R294). -/
def listCopy (x : Site) (ct : Counter) (id : Nat) : Site :=
  let a := ct.buf + 8 * ct.pidx
  if ct.list && decide (a < 0x200000) && eValid (pmapAt x.core (a / 4096)) then
    onCore (fun c => writeLocal c a 8 (copyAddr x id).toNat) x
  else x
/-- A packet applied to a counter (R39, R294). -/
def decrement (k : Nat) (p : Packet) (l : Option Landing) (x : Site) : Taken :=
  match counterOf x.core k with
  | none => .refused x rINVALID 4
  | some ct =>
    if ct.handler = 0 then
      if ct.count = 0 then .refused x rINVALID 7
      else
        let c := { x.core with counters := tset x.core.counters k { ct with count := ct.count - 1 } }
        .ok { x with core := if ct.count = 1 then wakeCounter c k else c } none
    else if l.isNone && !mailRoom x.core (1 + p.len) then .refused x rFULL 2
    else if ct.count ≠ 1 then
      match copyFor x.core (1 + p.len) l with
      | (c, some id) =>
        let x := listCopy { x with core := c } ct id
        let ct' := { ct with count := ct.count - 1, copies := ct.copies ++ [id]
                             pidx := (if ct.list then ct.pidx + 1 else ct.pidx) % 2 ^ 16 }
        .ok (onCore (fun c => { c with counters := tset c.counters k ct' }) x) none
      | (_, none) => .refused x rFULL 2
    else
      let (x, e) := entryFor x ct.handler l
      match e with
      | none => .refused x rINVALID 5
      | some e =>
        if !placeFree x.core e.prio then .refused x rFULL 1
        else match copyFor x.core (1 + p.len) l with
          | (c, some id) =>
            let x := listCopy { x with core := c } ct id
            let q : QEntry := { entry := e, wid := ct.wid, wshape := ct.wshape, g1 := (copyAddr x id).toNat,
                                g4 := p.arg0.toNat, g5 := p.arg1.toNat, g6 := ct.buf, copies := ct.copies ++ [id] }
            .ok (onCore (fun c => wakeCounter (enqueue { c with counters := terase c.counters k } q) k) x) (some e)
          | (_, none) => .refused x rFULL 2

/-- A packet of one flit applied to a counter, its header in the copy that it takes. -/
def decrementNow (x : Site) (k : Nat) (p : Packet) : Taken :=
  match decrement k p none x with
  | .ok y e => if y.core.copyIds = x.core.copyIds then .ok y e else .ok (onCore (fun c => depositAt c x.core.copyIds 0 (headerFlit p)) y) e
  | r => r
/-- The header of a local counter decrement (R448). -/
def localHeader (x : Site) (k : Nat) : Packet :=
  { dest := coreName x, src := coreName x, counter := k, park := localPark x, origin := x.id }
/-- Whether the flits of a packet to a counter are still being deposited: a local decrement waits for them, since a core handles
what reaches its counters one at a time (R39, R40, R448). -/
def landsOnCounter (c : Core) : Bool := c.landing.any fun l => l.pkt.counter != 0
/-- A local counter decrement: the site, and whether it was refused (R448). -/
def localDecrement (x : Site) (k : Nat) : Site × Bool :=
  match decrementNow x k (localHeader x k) with
  | .ok y _ => (y, false)
  | .refused _ _ _ => (x, true)

/-! ### Arrival of launches and messages -/

/-- A launch packet or message at a core whose requests are taken: malformed ones are dropped (R35), and a core
that is being switched refuses with RETRY (R406), but for a DATA packet that names both a handler and a counter (R36). -/
-- DEDUCED: log 55.
def arrival (x : Site) (p : Packet) (body : Site → Site) : Site :=
  if malformed x p then dropMalformed x p
  else if p.kind = kDATA ∧ p.handler ≠ 0 ∧ p.counter ≠ 0 then refuse x p rINVALID 1
  else if refuses x p then
    if p.kind = kDATA ∧ p.counter ≠ 0 then
      onCore (fun c => injectAns c x.id (answerPkt x p kNACK rRETRY 0)) x
    else refuse x p rRETRY 0
  else body x
/-- A packet answered as it is taken; one that is refused after all gives up its run of the mailbox (R40). -/
def answerTaken (p : Packet) (copy : Option Nat) (t : Taken) : Site :=
  match t with
  | .refused x r d => refuse (onCore (fun c => { c with copies := copy.toList.foldl terase c.copies }) x) p r d
  | .ok x _ => accept x p
/-- A packet that is accepted: what it does, once all of its flits stand in the mailbox (R287). -/
-- DEDUCED: log 150.
def takePacket (p : Packet) (body : Option Landing → Site → Taken) (x : Site) : Site :=
  match body none x with
  | .refused y r d => refuse y p r d
  | .ok y e =>
    if y.core.copyIds = x.core.copyIds then accept y p
    else
      let (c, id) := reserve x.core (1 + p.len)
      { x with core := { c with landing := some { pkt := p, left := upto (1 + p.len), copy := id, entry := e } } }
/-- One of the flits left of a packet deposited; with the last one the packet does what it is to do. -/
def landFlit (l : Landing) (i : Nat) (body : Option Landing → Site → Site) (x : Site) : Site :=
  let k := l.left.getD i 0
  let x := onCore (fun c => depositAt { c with landing := none } (l.copy.getD 0) k ((flitsOf l.pkt).getD k 0)) x
  if 1 < l.left.length then onCore (fun c => { c with landing := some { l with left := l.left.eraseIdx i } }) x
  else body (some l) x
/-- The arrival of a packet of a kind, or of one of the flits left of it. -/
def arrive (s : State) (mine : Packet → Bool) (body : Packet → Option Landing → Site → Taken) : Res :=
  .next (modSite s (argAt s 0) fun x =>
    match x.core.landing, nextArrival x with
    | some l, _ =>
      if mine l.pkt then landFlit l (argAt s 1) (fun l' x => answerTaken l.pkt l.copy (body l.pkt l' x)) x else x
    | none, some p => if mine p then arrival (popArrival x) p (takePacket p (body p)) else x
    | none, none => x)

/-- INVOKE_ARRIVAL (R36, R38): an INVOKE, or a DATA packet naming a handler, not for a counter alone. -/
def execInvokeArrival (s : State) : Res :=
  arrive s (fun p => (p.kind == kINVOKE || p.kind == kDATA) && (p.handler != 0 || (p.kind == kINVOKE && p.counter == 0)))
    fun p l x => if p.counter ≠ 0 ∨ p.handler = 0 then .refused x rINVALID 1 else launchNow p l x

/-- COUNTER_LAUNCH (R39): a packet naming a counter and no handler. -/
def execCounterLaunch (s : State) : Res :=
  arrive s (fun p => (p.kind == kINVOKE || p.kind == kDATA) && p.counter != 0 && p.handler == 0)
    fun p l x => decrement p.counter p l x

/-- A plain DATA packet entered in the message queue, or refused FULL (R288). -/
def enterMessage (p : Packet) (l : Option Landing) (x : Site) : Taken :=
  if l.isNone && decide (56 ≤ x.core.mq.length) then .refused x rFULL 3
  else match copyFor x.core (1 + p.len) l with
    | (_, none) => .refused x rFULL 2
    | (c, some id) => .ok (enterMq { x with core := c } { copy := id, kind := 0 }) none
/-- MESSAGE_ARRIVAL (R288): a plain DATA packet becomes an entry of the message queue. -/
def execMessageArrival (s : State) : Res :=
  arrive s (fun p => p.kind == kDATA && p.counter == 0 && p.handler == 0) enterMessage

/-! ### Answers to invocations (R291, R298) -/

/-- The outstanding operation of a sequence number. -/
def findOut (c : Core) (seq : Nat) : Option Outst := c.outs.find? fun o => o.seq == seq
def dropOut' (c : Core) (seq : Nat) : Core := { c with outs := c.outs.filter fun o => o.seq != seq }
/-- When the next retry of an operation is due (R293). -/
-- DEDUCED: log 53.
def retryAt (x : Site) (tries time : Nat) : Nat := time + regF x 0x061 19 8 * 2 ^ min tries 8
/-- A retry planned. -/
-- DEDUCED: log 53.
def planRetry (x : Site) (seq time : Nat) (full : Bool) : Site :=
  onCore (fun c => { c with outs := c.outs.map fun o =>
    if o.seq == seq then { o with due := some (retryAt x o.tries time), tries := o.tries + 1, full := o.full + b2n full } else o }) x
/-- INVOKE_FAULT or MESSAGE_LOST of an invocation's answer (R307). -/
def invokeTrap (o : Outst) (cause sub refusal detail : Nat) : TrapVal :=
  { cause := cause, pc := o.pc
    info := wordN (sub + detail * 2 ^ 4 + refusal * 2 ^ 12 + o.seq * 2 ^ 16 + o.pkt.dest % 2 ^ 20 * 2 ^ 32) }
/-- The report of a NACK that answers an INVOKEP (R288). -/
-- DEDUCED: log 46.
def nackReport (x : Site) (o : Outst) (p : Packet) : Packet :=
  { faultRep p.src p.origin o.pkt (refusalOf p) (detailOf p) with
    dest := coreName x, handler := o.pkt.handler, seq := o.seq, park := o.pkt.park }
/-- Whether a posted invocation's group still takes reports (R288). -/
-- DEDUCED: log 48.
def ownerLives (c : Core) (o : Outst) : Bool :=
  match groupOf c o.grp with
  | some g => g.uid == o.uid && g.st != .draining
  | none => false

/-- The status of INVOKET for an answer (R298). -/
def invokeStatus (refusal : Nat) : Nat :=
  if refusal = rFULL then 1 else if refusal = rINVALID then 2 else if refusal = rUNREACHABLE then 3
  else if refusal = rRETRY then 4 else if refusal = rLOST then 7 else 6

/-- The outcome of a blocking, status or posted invocation (R298). -/
def invokeAnswer (x : Site) (o : Outst) (p : Packet) (time : Nat) : Site :=
  let r := refusalOf p
  let d := detailOf p
  let gone := onCore (fun c => dropOut' c o.seq) x
  match o.kind with
  | .invoket g =>
    let st := if p.kind = kREPLY then 0 else invokeStatus r + d * 16
    onCore (fun c => endWait (deliverG c o.key g (wordN st)) o.key true) gone
  | .invokep =>
    if p.kind = kREPLY then gone
    else if !ownerLives gone.core o then countLost gone 1
    else putOrLose gone (if p.kind = kNACK then nackReport gone o p else p) (some o.grp)
  | _ =>
    if p.kind = kREPLY then onCore (fun c => endWait c o.key true) gone
    else if r = rRETRY then planRetry x o.seq time false
    else if r = rFULL ∧ o.full < regF x 0x061 7 0 then planRetry x o.seq time true
    else
      let v := if r = rLOST then invokeTrap o 0x0E 1 0 d
        else invokeTrap o 0x0D (if r = rFULL then 3 else if r = rINVALID then 2 else 4) r d
      recordTrap gone o.key v

/-- An answer whose operation was terminated: discarded; a remote hasp wait's, and the report of a posted invocation, are
counted (R288, R346, R386). -/
-- DEDUCED: log 48.
-- DEDUCED: log 49.
def deadAnswer (x : Site) (o : Outst) (p : Packet) : Site :=
  let x := onCore (fun c => dropOut' c o.seq) x
  if o.kind = .hwait ∨ (o.kind = .invokep ∧ p.kind ≠ kREPLY) then countLost x 1 else x

/-- Whether an operation is an invocation. -/
def isInvocation (k : OKind) : Bool :=
  match k with
  | .invoke => true
  | .invoket _ => true
  | .invokep => true
  | _ => false

/-- Whether a core still takes answers: until SAVING has begun (R406). -/
def takesAnswers (x : Site) : Bool :=
  match x.core.evict.st with
  | .run => true
  | .stopping => true
  | .stopped => !x.core.evict.failed
  | _ => false
/-- An answer that comes too late for a switched core is discarded and counted (R409). -/
-- DEDUCED: log 49.
def lateAnswer (x : Site) : Site := onCore (fun c => { c with evict := { c.evict with lostAns := c.evict.lostAns + 1 } }) x

/-- ANSWER_ARRIVAL (R291): an answer to an invocation or one that matches nothing. -/
def execAnswerArrival (s : State) : Res :=
  .next (modSite s (argAt s 0) fun x =>
    match nextArrival x with
    | none => x
    | some p =>
      if !isAnswer p.kind then x
      else if !takesAnswers x then lateAnswer (popArrival x)
      else if malformed x p then dropMalformed (popArrival x) p
      else match findOut x.core p.seq with
        | none =>
          let x := popArrival x
          if p.kind = kFAULTREP then putOrLose x p none else countLost x 1
        | some o =>
          if o.dead then deadAnswer (popArrival x) o p
          else if isInvocation o.kind then invokeAnswer (popArrival x) o p s.time
          else x)

/-- HARDWARE_RETRY (R293): a refused packet whose delay has passed enters the injection buffer again, in its turn among the requests
(R283). -/
def execHardwareRetry (s : State) : Res :=
  .next (modSite s (argAt s 0) fun x =>
    match x.core.outs[argAt s 1]? with
    | none => x
    | some o =>
      match o.due with
      | none => x
      | some t =>
        if s.time < t ∨ evicted x then x
        else if mustWait x.core (retryTurn o.seq) (1 + o.pkt.len) then onCore (takeTurn (retryTurn o.seq)) x
        else onCore (fun c => inject { leaveTurn (retryTurn o.seq) c with outs := c.outs.set (argAt s 1) { o with due := none } } x.id o.pkt none false s.time) x)

end Sys2Proof.Machine
end

