-- ==== Sys2Proof/Machine/Messages.lean ====
section
/-! DEFINITION. The sending and receiving instructions and the dependency-counter instructions (R279 to R307). -/

namespace Sys2Proof.Machine

/-! ### Waiting for allowance, and sending -/

/-- A packet that the instruction at hand has built. -/
def builtHere (s : State) (p : Packet) (out : Option OKind) (rep : Bool) : PendSend :=
  { pkt := p, out := out, rep := rep, grp := actGrp s, uid := (actGroupVal s).uid, pc := curPc s, born := s.time }
/-- The local read that gives a packet its payload: it does not count towards the limit of R167 (R297). -/
def payloadRead (c : Core) (key id time : Nat) (p : PendSend) : Core :=
  match p.reads with
  | none => c
  | some (stream, ea) =>
    { c with accIds := c.accIds + 1
             accesses := c.accesses ++ [{ id := c.accIds, key := key, stream := stream, rd := true, wr := false, counts := false,
                                          pc := p.pc, ea := ea, ready := time + 1, fin := .sendl id
                                          units := (upto p.pkt.len).map fun k => .read (ea + 32 * k) 32 (32 * k) }] }
/-- A built packet given its sequence number and put in the injection buffer (R282, R283); the core keeps what it awaits. -/
def putSend (c : Core) (sid key time : Nat) (p : PendSend) : Core :=
  let (c, q) := takeSeq (leaveTurn key c)
  let pkt := { p.pkt with seq := q }
  let c := if p.rep && p.out == some .rst then modStrand c key fun st => { st with acqBorn := p.born } else c
  let c := payloadRead (inject c sid pkt (some key) p.reads.isSome time) key c.injIds time p
  match p.out with
  | some k => { c with outs := c.outs ++ [{ seq := q, key := key, grp := p.grp, uid := p.uid, kind := k, pkt := originate sid pkt,
                                            pc := p.pc, acq := p.rep && k == .rst, born := p.born }] }
  | none => c
/-- A built packet sent, its strand waiting for local completion and, when `rep`, for its answer after it. -/
def sendOff (c : Core) (sid key time len : Nat) (p : PendSend) : Core :=
  let id := c.injIds
  setWait (modStrand (putSend c sid key time p) key fun st => { st with pend := none }) key (.localDone id p.dst p.rep) len
/-- A built packet sent once its places are free: until then its strand waits for them, in the order of the requests
(R283). -/
def sendOrWait (c : Core) (sid key time len : Nat) (p : PendSend) : Core :=
  let n := 1 + p.pkt.len
  if mustWait c key n then
    setWait (modStrand (takeTurn key c) key fun st => { st with pend := some (.send p) }) key (.allowance n) len
  else sendOff c sid key time len p
/-- The same for the instruction at hand. -/
def sendHere (p : PendSend) (len : Nat) (s : State) : State :=
  onCur (fun c => sendOrWait c (curSid s) (curKey s) s.time len p) s

/-! ### Descriptors (R280, R281, R296) -/

/-- The header fields a descriptor gives. -/
def descPkt (s : State) (w : Word) (kind : Nat) : Packet :=
  { dest := bits w 19 0, src := coreName (curSite s), kind := kind, prio := bits w 43 42, handler := bits w 29 20
    counter := bits w 35 30, len := bits w 41 36, scope := 5, fmt := bits w 48 44, park := localPark (curSite s)
    arg0 := mGet (curCtx s) 0, arg1 := mGet (curCtx s) 1 }
/-- The build registers that a sending instruction reads: those of the header, and those of its payload's flits (R279, R281). -/
def buildReads (i : Instr) (s : State) : List Nat :=
  let n : Nat := match i with
    | .send a => bits (readG s a) 41 36
    | .sendt _ a => bits (readG s a) 41 36
    | .invoke a _ => bits (readG s a) 41 36
    | .invoket _ a _ => bits (readG s a) 41 36
    | .invokep a _ => bits (readG s a) 41 36
    | .reply _ b => bits (readG s b) 1 0
    | .invokei _ _ _ len _ _ _ _ => len
    | .invokeiT _ _ _ _ len _ _ _ _ => len
    | .invokeiP _ _ _ len _ _ _ _ => len
    | _ => 0
  upto (2 + 4 * min n 2)
/-- The payload flits that the build registers hold. -/
def buildFlits (s : State) (n : Nat) : List Flit :=
  let m (k : Nat) : Nat := (mGet (curCtx s) k).toNat
  let flit (k : Nat) : Flit := BitVec.ofNat 256 (m k + m (k + 1) * 2 ^ 64 + m (k + 2) * 2 ^ 128 + m (k + 3) * 2 ^ 192)
  [flit 2, flit 6].take n
/-- The failing condition of a descriptor, as DETAIL (R296). -/
def descFault (s : State) (p : Packet) (most : Nat) (shapeless : Bool) : Option Nat :=
  if isNull p.dest then some 1
  else if (if most = 2 then 2 else msgMax (curSite s)) < p.len then some 2
  else if 28 ≤ p.fmt then some 3
  else if shapeless then some 4
  else none
/-- INVOKE_FAULT at issue (R307). -/
def sendFault (sub detail dest : Nat) (s : State) : Res := trapHere s 0x0D (sub + detail * 2 ^ 4 + dest % 2 ^ 20 * 2 ^ 32)

/-- A sending instruction issued: a build register of bad parity that it reads traps, as any register does (R388). -/
def issueSend (i : Instr) (s : State) (body : State → Res) : Res :=
  issue i s fun s =>
    match (buildReads i s).findSome? fun n => parityOf (curCtx s) (.rm n) with
    | some (f, n) => .next (takeTrap (spendParity s (parityTrap s f n)) (parityTrap s f n))
    | none => body s

/-! ### SEND, SENDT, SENDL (R297) -/

/-- A DATA packet from the build registers: blocking, or with a status register. -/
def sendData (p : Packet) (d : Option Nat) (s : State) : Res :=
  let p := builtHere s { p with payload := buildFlits s p.len } none false
  match d with
  | none => .next (sendHere p 4 s)
  | some d =>
    if mustWait (curSite s).core (curKey s) (1 + p.pkt.len) then done 4 (writeG s d 1)
    else .next (sendHere { p with dst := some (d, 0) } 4 s)

/-- SEND: a DATA packet (R297). -/
def execSend (a : Nat) (s : State) : Res :=
  issueSend (.send a) s fun s =>
    let p := descPkt s (readG s a) kDATA
    match descFault s p 2 false with
    | some k => sendFault 1 k p.dest s
    | none => sendData p none s

/-- SENDT: a DATA packet, or status 1 without allowance (R297). -/
def execSendt (d a : Nat) (s : State) : Res :=
  issueSend (.sendt d a) s fun s =>
    let p := descPkt s (readG s a) kDATA
    match descFault s p 2 false with
    | some k => sendFault 1 k p.dest s
    | none => sendData p (some d) s

/-- SENDL: a DATA packet whose payload is read from the local store (R297). -/
-- DESIGN CHOICE: log 179.
def execSendl (a b st : Nat) (s : State) : Res :=
  issueSend (.sendl a b st) s fun s =>
    let p := { descPkt s (readG s a) kDATA with stream := st }
    let ea := (readG s b).toNat
    match descFault s p 63 false with
    | some k => sendFault 1 k p.dest s
    | none =>
      match checkHere s ea (32 * p.len) 32 true false with
      | some f => .next (takeTrap s (accTrap f false st 0 ea (curPc s)))
      | none => .next (sendHere { builtHere s p none false with reads := if p.len = 0 then none else some (st, ea) } 4 s)

/-! ### INVOKE and its forms (R298, R299) -/

/-- The kind-specific bits of an INVOKE (R281). -/
def invokeKs (wx wsel wval : Nat) : Nat := wx + wsel * 2 + wval % 2 ^ 18 * 2 ^ 4
/-- An INVOKE packet: blocking (none), with a status register, or posted. -/
def sendInvoke (len : Nat) (p : Packet) (wx wsel wval : Nat) (kind : OKind) (s : State) : Res :=
  match descFault s p 2 (wx == 1 && p.len == 0) with
  | some k => sendFault 1 k p.dest s
  | none =>
    let p := builtHere s { p with ks := invokeKs wx wsel wval, payload := buildFlits s p.len } (some kind) (kind != .invokep)
    match kind with
    | .invoket d =>
      if mustWait (curSite s).core (curKey s) (1 + p.pkt.len) then done len (writeG s d 5) else .next (sendHere p len s)
    | _ => .next (sendHere p len s)
/-- The INVOKE of a descriptor register. -/
def invokeDesc (a b : Nat) (kind : OKind) (s : State) : Res :=
  let w := readG s a
  sendInvoke 4 (descPkt s w kINVOKE) (bits w 52 52) (bits w 51 49) (readG s b).toNat kind s
/-- The INVOKE of INVOKEI's fields. -/
def invokeImm (a b h len prio wsel wx f : Nat) (kind : OKind) (s : State) : Res :=
  let p := { descPkt s (wordN (bits (readG s a) 19 0)) kINVOKE with handler := h, len := len, prio := prio, fmt := f }
  sendInvoke 8 p wx wsel (readG s b).toNat kind s

/-- INVOKE: an invocation that waits for its answer (R298). -/
def execInvoke (a b : Nat) (s : State) : Res := issueSend (.invoke a b) s (invokeDesc a b .invoke)
/-- INVOKET: an invocation whose status is written (R298). -/
def execInvoket (d a b : Nat) (s : State) : Res := issueSend (.invoket d a b) s (invokeDesc a b (.invoket d))
/-- INVOKEP: a posted invocation (R298). -/
def execInvokep (a b : Nat) (s : State) : Res := issueSend (.invokep a b) s (invokeDesc a b .invokep)
/-- INVOKEI: INVOKE with immediate fields (R299). -/
def execInvokei (a b h len prio wsel wx f : Nat) (s : State) : Res :=
  issueSend (.invokei a b h len prio wsel wx f) s (invokeImm a b h len prio wsel wx f .invoke)
/-- INVOKEI.t: INVOKET with immediate fields (R299). -/
def execInvokeiT (d a b h len prio wsel wx f : Nat) (s : State) : Res :=
  issueSend (.invokeiT d a b h len prio wsel wx f) s (invokeImm a b h len prio wsel wx f (.invoket d))
/-- INVOKEI.p: INVOKEP with immediate fields (R299). -/
def execInvokeiP (a b h len prio wsel wx f : Nat) (s : State) : Res :=
  issueSend (.invokeiP a b h len prio wsel wx f) s (invokeImm a b h len prio wsel wx f .invokep)

/-! ### RECV, RECVT, WAITMSG (R300) -/

/-- The copy the context at hand holds released (R289). -/
def releaseHeld (s : State) : State :=
  let key := curKey s
  onCur (fun c => match (strandOf c key).heldCopy with
    | some i => modStrand (freeCopies c [i]) key fun st => { st with heldCopy := none }
    | none => c) s
/-- The oldest entry a context may take. -/
def oldestFor (c : Core) (key mask : Nat) : Option (Nat × MqEntry) :=
  (c.mq.zipIdx.find? fun e => eligibleFor c key mask e.1).map fun e => (e.2, e.1)
/-- An entry taken by the context at hand, its address written (R300). -/
def takeEntry (i : Nat) (e : MqEntry) (d : Nat) (s : State) : State :=
  let key := curKey s
  let a := copyAddr (curSite s) e.copy
  writeG (onCur (fun c => modStrand { c with mq := c.mq.eraseIdx i } key fun st => { st with heldCopy := some e.copy }) s) d a

/-- RECV: the oldest eligible entry, waited for (R300). -/
def execRecv (d a : Nat) (s : State) : Res :=
  issue (.recv d a) s fun s =>
    let mask := bits (readG s a) 2 0
    let s := releaseHeld s
    match oldestFor (curSite s).core (curKey s) mask with
    | some (i, e) => done 4 (takeEntry i e d s)
    | none => .next (onCur (fun c => setWait { c with recvOrder := c.recvOrder + 1 } (curKey s) (.recv mask d c.recvOrder) 4) s)
/-- RECVT: the oldest eligible entry, or all ones (R300). -/
def execRecvt (d a : Nat) (s : State) : Res :=
  issue (.recvt d a) s fun s =>
    let mask := bits (readG s a) 2 0
    let s := releaseHeld s
    match oldestFor (curSite s).core (curKey s) mask with
    | some (i, e) => done 4 (takeEntry i e d s)
    | none => done 4 (writeG s d (wordN (2 ^ 64 - 1)))
/-- WAITMSG: until an eligible entry exists (R300). -/
def execWaitmsg (a : Nat) (s : State) : Res :=
  issue (.waitmsg a) s fun s =>
    let mask := bits (readG s a) 2 0
    match oldestFor (curSite s).core (curKey s) mask with
    | some _ => done 4 s
    | none => .next (onCur (fun c => setWait c (curKey s) (.waitmsg mask) 4) s)

/-! ### REPLY (R301) -/

/-- The header of a copy read from the ring. -/
def copyHeader (c : Core) (id : Nat) : Nat :=
  match tget? c.copies id with
  | some e => match c.mboxPages[e.start % ringSize c / 128]? with
    | some p => mread c.mem (p * 4096 + e.start % 128 * 32) 32
    | none => 0
  | none => 0
/-- The launch copy of a group: that of the packet that launched it (R42); a group that DDEC launched has none (R304). -/
def launchCopy (g : Group) : Option Nat := if g.launched then g.copies.getLast? else none
/-- The copy REPLY may answer at an address: the held message, or the launch copy of the group. -/
def replyCopy (s : State) (a : Word) : Option Nat :=
  let x := curSite s
  let g := actGroupVal s
  ((strandOf x.core (curKey s)).heldCopy.toList ++ (launchCopy g).toList).find? fun i => copyAddr x i == a
/-- REPLY: a DATA packet to the sender of a copy (R301). -/
-- DESIGN CHOICE: log 178.
def execReply (a b : Nat) (s : State) : Res :=
  issueSend (.reply a b) s fun s =>
    let w := readG s b
    let len := bits w 1 0
    let fmt := bits w 8 4
    match replyCopy s (readG s a) with
    | none => sendFault 5 0 0 s
    | some id =>
      let h := copyHeader (curSite s).core id
      let dest := bitsN h 39 20
      if isNull dest then sendFault 5 0 0 s
      else if len = 3 then sendFault 1 2 dest s
      else if 28 ≤ fmt then sendFault 1 3 dest s
      else
        let p := { descPkt s 0 kDATA with dest := dest, len := len, prio := bits w 3 2, fmt := fmt
                                          ks := bitsN h 97 82 + 2 ^ 16 }
        sendData p none s

/-! ### Dependency counters (R302 to R305) -/

/-- DSET: a counter bound (R303). -/
-- DESIGN CHOICE: log 54.
-- DESIGN CHOICE: log 178.
def execDset (d a b : Nat) (s : State) : Res :=
  issue (.dset d a b) s fun s =>
    let w := readG s a
    let buf := bits (readG s b) 20 0
    let n := bits w 31 16
    let free := match counterOf (curSite s).core d with
      | none => true
      | some ct => ct.handler == 0 && ct.count == 0
    if !free then sendFault 6 0 0 s
    else if n = 0 then sendFault 7 0 0 s
    else match (if bits w 32 32 = 1 then checkHere s buf (8 * n) 8 false true else none) with
      | some f => .next (takeTrap s (accTrap f true 0 0 buf (curPc s)))
      | none =>
        let g := actGroupVal s
        let ct : Counter := { handler := bits w 9 0, count := n, list := bits w 32 32 == 1, buf := buf, wid := g.wid,
                              wshape := g.wshape }
        done 4 (onCur (fun c => { c with counters := tset c.counters d ct }) s)

/-- The launch of a counter brought to zero by DDEC (R304). -/
def ddecLaunch (x : Site) (k : Nat) (ct : Counter) (e : Entry) : Site :=
  let q : QEntry := { entry := e, wid := ct.wid, wshape := ct.wshape, g6 := ct.buf, copies := ct.copies, launched := false }
  onCore (fun c => wakeCounter (enqueue { c with counters := terase c.counters k } q) k) x

/-- The instruction at hand has acted on a counter: packets that reach the counter in this cycle came before it (R294, R306). -/
def noteCounter (k : Nat) (c : Core) : Core := { c with countedBy := k :: c.countedBy }
/-- DDEC: an amount subtracted from a counter (R304). -/
def execDdec (d a b : Nat) (s : State) : Res :=
  issue (.ddec d a b) s fun s =>
    let s := onCur (noteCounter d) s
    let n := (readG s a).toNat
    match counterOf (curSite s).core d with
    | none => done 4 (writeG s b 2)
    | some ct =>
      if n = 0 ∨ ct.count < n then done 4 (writeG s b 2)
      else if ct.count = n ∧ ct.handler ≠ 0 then
        let (x, e) := readEntry (curSite s) ct.handler
        let s := setSite s (curSid s) x
        match e with
        | none => done 4 (writeG s b 2)
        | some e =>
          if !placeFree x.core e.prio then done 4 (writeG s b 1)
          else done 4 (writeG (modSite s (curSid s) fun x => ddecLaunch x d ct e) b 0)
      else
        done 4 (writeG (onCur (fun c =>
          let c := { c with counters := tset c.counters d { ct with count := ct.count - n } }
          if ct.count = n then wakeCounter c d else c) s) b 0)

/-- DWAIT: until a counter is unbound or at zero (R305). -/
def execDwait (d : Nat) (s : State) : Res :=
  issue (.dwait d) s fun s =>
    match counterOf (curSite s).core d with
    | none => done 4 s
    | some ct => if ct.count = 0 then done 4 s else .next (onCur (fun c => setWait c (curKey s) (.counter d) 4) s)

end Sys2Proof.Machine
end

