-- ==== Sys2Proof/Machine/Remote.lean ====
section
/-! DEFINITION. Remote memory and atomics: requests, the release and acquire halves, deferred faults, MCST, the home's
checks, and answers (R309 to R328). -/

namespace Sys2Proof.Machine

/-! ### Reads of the local store line by line -/

/-- A run of bytes cut at 32-byte lines: addresses and lengths. -/
def linePieces (a n : Nat) : List (Nat × Nat) :=
  (upto ((a + n + 31) / 32 - a / 32)).map fun k =>
    let lo := max a (32 * (a / 32 + k))
    (lo, min (a + n) (32 * (a / 32 + k) + 32) - lo)
/-- n bytes of the local store from an address, over its pages. -/
-- DESIGN CHOICE: log 14.
-- DEDUCED: log 71.
def readRun (c : Core) (a n : Nat) : Nat :=
  (linePieces a n).foldl (fun v e => v + readLocal c e.1 e.2 * 256 ^ (e.1 - a)) 0
/-- The first uncorrectable word of a run, and the core with the correctable ones noted (R169). -/
-- DESIGN CHOICE: log 18.
def badRun (c : Core) (a n : Nat) : Option Nat := (linePieces a n).findSome? fun e => badLocal c e.1 e.2
def runBads (c : Core) (a n : Nat) : List Nat := badWords c.bad ((linePieces a n).map fun e => (physOf c e.1, e.2))
def noteRun (c : Core) (a n : Nat) : Core := (linePieces a n).foldl (fun c e => noteRead c (physOf c e.1) e.2) c
/-- A read that an instruction makes at issue: the machine, and MACHINE_CHECK or the value (R169, R388). -/
-- DESIGN CHOICE: log 18.
-- DEDUCED: log 71.
def issueRead (s : State) (a n stream : Nat) : State × Except TrapVal Nat :=
  let s := onCur (fun c => noteRun c a n) s
  match badRun (curSite s).core a n with
  | some _ => (modSite s (curSid s) fun x => countUes x (runBads x.core a n) 0,
      .error (trapVal s 0x13 (1 + stream * 2 ^ 8 + a % 2 ^ 32 * 2 ^ 32)))
  | none => (s, .ok (readRun (curSite s).core a n))

/-! ### Ordering and deferred faults (R316, R318, R320) -/

/-- The class of a scope: 0 the core itself, 1 its wafer, 2 every home (R316). -/
-- DEDUCED: log 161.
def scopeClass (c : Nat) : Nat := if c = 0 then 0 else if c ≤ 3 then 1 else 2
/-- Whether a home lies in a class. -/
def inClass (x : Site) (cls home : Nat) : Bool :=
  if cls = 0 then home == coreName x else if cls = 1 then home / 2 ^ 18 == siteW x.id else true
/-- The remote writes a context has issued that are not yet answered. -/
def remoteWrites (c : Core) (key : Nat) : List Outst := c.outs.filter fun o => o.key == key && !o.dead && isRemoteWrite o
/-- Whether a release half has something to wait for. -/
def releaseOpen (x : Site) (key cls : Nat) : Bool :=
  (x.core.accesses.any fun a => a.key == key) ||
  ((remoteWrites x.core key).any fun o => inClass x cls o.pkt.dest)
/-- The deferred fault that a release half delivers. -/
def releaseFault (x : Site) (key cls : Nat) : Option TrapVal := deferredDue x.core key fun e => inClass x cls e.2.1
/-- A deferred fault delivered at the instruction at hand (R320, R381). -/
-- DEDUCED: log 68.
def takeDeferred (s : State) (v : TrapVal) : State :=
  takeTrap (onCur (fun c => dropDeferred c (curKey s)) s) { v with pc := curPc s }
/-- The release half of an instruction with a scope: what it does then it does at once, or after its wait. -/
-- DEDUCED: log 68.
def releaseHalf (p : Pend) (len c : Nat) (s : State) (k : State → Res) : Res :=
  let x := curSite s
  let key := curKey s
  let cls := scopeClass c
  match releaseFault x key cls with
  | some v => .next (takeDeferred s v)
  | none =>
    if releaseOpen x key cls then
      .next (onCur (fun c => modStrand (setWait c key (.release cls) len) key fun st => { st with pend := some p }) s)
    else k s

/-- TRAP_INFO of REMOTE_FAULT, and of MESSAGE_LOST from a remote access (R321). -/
-- DEDUCED: log 67.
def remoteInfo (sub detail stream refusal seq home : Nat) : Word :=
  wordN (sub + detail * 2 ^ 4 + stream * 2 ^ 8 + refusal * 2 ^ 12 + seq % 2 ^ 16 * 2 ^ 16 + home % 2 ^ 20 * 2 ^ 32)
/-- REMOTE_FAULT at issue. -/
def remoteTrap (s : State) (sub stream home : Nat) : Res :=
  trapHere s 0x0C (remoteInfo sub 0 stream 0 0 home).toNat

/-! ### Requests (R309 to R311) -/

def remOffset (w : Word) : Nat := bits w 20 0
def remName (w : Word) : Nat := bits w 51 32
/-- The first of homes and offsets that fails the checks 3 and 4 of R324, by cause and TRAP_INFO: a null home before a misaligned
offset. -/
def homesFault (l : List (Nat × Nat)) (size stream : Nat) : Option (Nat × Word) :=
  match l.find? fun e => isNull e.1 with
  | some e => some (0x0C, remoteInfo 1 0 stream 0 0 e.1)
  | none => (l.find? fun e => e.2 % size != 0).map fun e => (0x05, wordN (e.2 * 2 ^ 32))
/-- The same of the instruction at hand. -/
-- DEDUCED: log 67.
def remoteCheck (s : State) (home off size stream : Nat) : Option Res :=
  (homesFault [(home, off)] size stream).map fun f => trapHere s f.1 f.2.toNat
/-- A remote request packet. -/
def remotePkt (s : State) (kind home off stream scope z op : Nat) (arg0 : Nat) (loggia : Bool) : Packet :=
  { dest := home, src := coreName (curSite s), kind := kind, stream := stream, scope := scope
    park := localPark (curSite s), ks := off + b2n loggia * 2 ^ 21, arg0 := wordN arg0
    arg1 := wordN (op + z * 2 ^ 3) }
/-- A request of an instruction of 4 bytes sent after its release half, where its ordering has one, the strand waiting for local
completion and for its answer where it is to. -/
def sendRequest (p : Packet) (k : OKind) (rep : Bool) (rel : Option Nat) (s : State) : Res :=
  let p := builtHere s p (some k) rep
  match rel with
  | none => .next (sendHere p 4 s)
  | some c => releaseHalf (.send p) 4 c s fun s => .next (sendHere p 4 s)
/-- The scope of the release half that an ordering has. -/
def relOf (o c : Nat) : Option Nat := if 2 ≤ o then some c else none
/-- Whether the acquire half of the instruction at hand has delivered a deferred fault: it repeats only its wait (R320). -/
def repeatsWait (s : State) : Bool := (strandOf (curSite s).core (curKey s)).acqAt == some (curPc s)
/-- The acquire half alone: a fault of this instruction recorded meanwhile traps again, and the strand waits while a write of it is
outstanding (R320). -/
-- DEDUCED: log 148.
def acquireOnly (len : Nat) (s : State) : Res :=
  let key := curKey s
  let b := (strandOf (curSite s).core key).acqBorn
  match deferredDue (curSite s).core key fun e => e.2.2 == b with
  | some v => .next (takeDeferred s v)
  | none =>
    let s := onCur (fun c => modStrand c key fun st => { st with acqAt := none }) s
    match (remoteWrites (curSite s).core key).find? fun o => o.acq && o.born == b with
    | some o => .next (onCur (fun c => setWait c key (.reply 6 o.seq) len) s)
    | none => done len s

/-- RLD: a load from a remote home (R325). -/
def execRld (d a st c o z : Nat) (s : State) : Res :=
  issue (.rld d a st c o z) s fun s =>
    let w := readG s a
    match remoteCheck s (remName w) (remOffset w) (2 ^ z) st with
    | some r => r
    | none => sendRequest (remotePkt s kRLOAD (remName w) (remOffset w) st c z 0 0 false) (.rld (destG d) (2 ^ z)) true
        (relOf o c) s

/-- A store to a remote home; a strand with 16 remote writes outstanding does not issue it (R318, R325). -/
def remoteStore (home off d st c o z : Nat) (loggia : Bool) (s : State) : Res :=
  if repeatsWait s then acquireOnly 4 s
  else if 16 ≤ (remoteWrites (curSite s).core (curKey s)).length then .next s
  else match remoteCheck s home off (2 ^ z) st with
    | some r => r
    | none => sendRequest (remotePkt s kRSTORE home off st c z 0 ((readG s d).toNat % 256 ^ 2 ^ z) loggia) .rst (o % 2 == 1)
        (relOf o c) s
/-- RST: a store to a remote home (R325). -/
def execRst (d a st c o z : Nat) (s : State) : Res :=
  issue (.rst d a st c o z) s fun s =>
    remoteStore (remName (readG s a)) (remOffset (readG s a)) d st c o z false s
/-- NST: a store into the loggia of a logical neighbour (R309, R325). -/
def execNst (d a st c o z : Nat) (s : State) : Res :=
  issue (.nst d a st c o z) s fun s =>
    remoteStore (reg (curSite s) (0x078 + bits (readG s a) 33 32) % 2 ^ 20) (remOffset (readG s a)) d st c o z true s

/-- A remote atomic: operation, and z 0 for .w, 1 for .d (R326). -/
def remoteAtomic (op d a st c o z : Nat) (s : State) : Res :=
  let w := readG s a
  let n := 4 * 2 ^ z
  match remoteCheck s (remName w) (remOffset w) n st with
  | some r => r
  | none =>
    let p := remotePkt s kRATOMIC (remName w) (remOffset w) st c (z + 2) op ((readG s d).toNat % 256 ^ n) false
    let p := if op = 7 then { p with len := 1, payload := [BitVec.ofNat 256 ((readG s (d + 1)).toNat % 256 ^ n)] } else p
    sendRequest p (.rld (destG d) n) true (relOf o c) s
/-- RADD (R326). -/
def execRadd (d a st c o z : Nat) (s : State) : Res :=
  issue (.radd d a st c o z) s (remoteAtomic 0 d a st c o z)
/-- RMIN (R326). -/
def execRmin (d a st c o z : Nat) (s : State) : Res :=
  issue (.rmin d a st c o z) s (remoteAtomic 1 d a st c o z)
/-- RMAX (R326). -/
def execRmax (d a st c o z : Nat) (s : State) : Res :=
  issue (.rmax d a st c o z) s (remoteAtomic 2 d a st c o z)
/-- RAND (R326). -/
def execRand (d a st c o z : Nat) (s : State) : Res :=
  issue (.rand d a st c o z) s (remoteAtomic 3 d a st c o z)
/-- ROR (R326). -/
def execRor (d a st c o z : Nat) (s : State) : Res :=
  issue (.ror d a st c o z) s (remoteAtomic 4 d a st c o z)
/-- RXOR (R326). -/
def execRxor (d a st c o z : Nat) (s : State) : Res :=
  issue (.rxor d a st c o z) s (remoteAtomic 5 d a st c o z)
/-- RSWP (R326). -/
def execRswp (d a st c o z : Nat) (s : State) : Res :=
  issue (.rswp d a st c o z) s (remoteAtomic 6 d a st c o z)
/-- RCAS (R326). -/
def execRcas (d a st c o z : Nat) (s : State) : Res :=
  issue (.rcas d a st c o z) s (remoteAtomic 7 d a st c o z)

/-! ### MCST (R327) -/

/-- The packet of a replica: MCST's packet with an entry's home and offset. -/
def replicaOf (p : PendSend) (e : Nat) : PendSend :=
  { p with pkt := { p.pkt with dest := remName (wordN e), ks := remOffset (wordN e) } }
/-- Whether an MCST that waits can go on: its release half has ended or delivers a fault, an entry can be sent, or it is to take its
turn among the requests. -/
def mcstActs (x : Site) (key : Nat) (rel : Option Nat) : Bool :=
  match rel with
  | some cls => (releaseFault x key cls).isSome || !releaseOpen x key cls
  | none => decide ((remoteWrites x.core key).length < 16) && (!mustWait x.core key 1 || !x.core.allowQ.contains key)
/-- Whether an MCST's release half has ended or delivers a fault, or an entry can be sent. -/
def mcstReady (x : Site) (key : Nat) (rel : Option Nat) : Bool :=
  match rel with
  | some cls => (releaseFault x key cls).isSome || !releaseOpen x key cls
  | none => decide ((remoteWrites x.core key).length < 16) && !mustWait x.core key 1
/-- The next entry of an MCST sent; the strand waits for the last one's local completion and, where it is to, for the answers. -/
def sendReplica (c : Core) (sid key time e : Nat) (left : List Nat) (p : PendSend) : Core :=
  if left = [] then sendOff c sid key time 8 (replicaOf p e)
  else setWait (putSend c sid key time (replicaOf p e)) key (.mcst left none) 8
/-- An MCST taken as far as its next entry, its strand SAVED or not; an entry that finds no place takes its turn among the requests. -/
def mcstGo (x : Site) (key time : Nat) (p : PendSend) (left : List Nat) (rel : Option Nat) : Site :=
  match rel.bind (releaseFault x key), left with
  | some v, _ => recordTrap (onCore (fun c => dropDeferred c key) x) key { v with pc := p.pc }
  | none, [] => x
  | none, e :: l =>
    if rel.isSome && !mcstReady x key rel then onCore (fun c => setWait c key (.mcst left rel) 8) x
    else if mcstReady x key none then onCore (fun c => sendReplica c x.id key time e l p) x
    else onCore (fun c =>
      setWait (if (remoteWrites c key).length < 16 then takeTurn key c else c) key (.mcst left none) 8) x
/-- The dwords of a list read as one number. -/
def dwords (v n : Nat) : List Nat := (upto n).map fun k => v / 2 ^ (64 * k) % 2 ^ 64
/-- The list of an MCST read: its entries are checked, and its release half begins. -/
def mcstListed (x : Site) (key time : Nat) : Site :=
  match (strandOf x.core key).pend with
  | some (.mcst p z n rel (some v)) =>
    let l := dwords v n
    match homesFault (l.map fun e => (remName (wordN e), remOffset (wordN e))) z p.pkt.stream with
    | some f => recordTrap x key { cause := f.1, pc := p.pc, info := f.2 }
    | none => mcstGo x key time p l rel
  | _ => x
/-- MCST: one value stored at up to 64 replicas (R327). The list is read as an access in its stream (R165). -/
def execMcst (z d a b st c o : Nat) (s : State) : Res :=
  issue (.mcst z d a b st c o) s fun s =>
    let n := (readG s b).toNat
    let ea := (readG s a).toNat
    if repeatsWait s then acquireOnly 8 s
    else if 64 < n then remoteTrap s 2 st 0
    else if n = 0 then done 8 s
    else match checkHere s ea (8 * n) 8 true false with
      | some f => .next (takeTrap s (accTrap f false st 0 ea (curPc s)))
      | none =>
        let key := curKey s
        let p := builtHere s (remotePkt s kRSTORE 0 0 st c z 0 ((readG s d).toNat % 256 ^ 2 ^ z) false) (some .rst) (o % 2 == 1)
        let s := addAccess s { id := 0, key := 0, stream := st, rd := true, wr := false, ea := ea, fin := .list
                               units := (linePieces ea (8 * n)).map fun e => .read e.1 e.2 (e.1 - ea) }
        .next (onCur (fun co => modStrand (setWait co key .list 8) key fun t =>
          { t with pend := some (.mcst p (2 ^ z) n (if 2 ≤ o then some (scopeClass c) else none) none) }) s)

/-! ### The home (R313, R315) -/

/-- Whether a store into a loggia is taken: the refusal's detail, none when it is (R72). -/
def loggiaFault (x : Site) (off src : Nat) : Option Nat :=
  let v := off / 4096
  let wins := (upto 4).filter fun k =>
    let w := reg x (0x07C + k)
    decide (bitsN w 8 0 ≤ v) && decide (v < bitsN w 8 0 + bitsN w 17 9)
  if wins = [] then some 1
  else if !eL (pmapAt x.core v) then some 2
  else if wins.any fun k => (upto 4).any fun d => bitN (reg x 0x080) (4 * k + d) && reg x (0x078 + d) % 2 ^ 20 == src then none
  else some 3
/-- The checks 2 to 8 of R313 on one page: refusal and detail. -/
def homeFault (x : Site) (q : Packet) (off : Nat) (loggia rd wr : Bool) : Option (Nat × Nat) :=
  let e := pmapAt x.core (off / 4096)
  if !eValid e then some (8, 1)
  else match (if loggia then loggiaFault x off q.src else none) with
    | some d => some (9, d)
    | none =>
      if !loggia && !eE e then some (8, 2)
      else if eS e then some (8, 4)
      else if (rd && !eR e) || (wr && !loggia && !eW e) then some (8, 3)
      else none
/-- A request refused at its home. -/
def homeNack (x : Site) (q : Packet) (r d : Nat) : Site :=
  onCore (fun c => injectAns c x.id (answerPkt x q kNACK (r + d * 16) 0)) x
/-- A remote atomic on an aligned word (R326). -/
def homeAtomic (x : Site) (q : Packet) (off n : Nat) : Site :=
  let old := readRun x.core off n
  let new := rmwNew (bits q.arg1 2 0) (8 * n)
    old (if bits q.arg1 2 0 = 7 then flitsNat q.payload % 256 ^ n else q.arg0.toNat % 256 ^ n) (q.arg0.toNat % 256 ^ n)
  reply (match new with | some v => onCore (fun c => writeLocal c off n v) x | none => x) q 2 (wordN old)
/-- A copy-form load (R312) begun: its lines are read one by one, in no fixed order (R331). -/
def copyLoad (x : Site) (q : Packet) : Site :=
  let lines := linePieces (bits q.arg0 20 0) (bits q.arg1 19 8)
  onCore (fun c => { c with landing := some { pkt := q, left := upto lines.length } }) x
/-- One of the lines left of a copy-form load; with the last one its REPLY, which carries the bytes. -/
def copyLoadLine (x : Site) (l : Landing) (i : Nat) : Site :=
  let q := l.pkt
  let off := bits q.arg0 20 0
  let n := bits q.arg1 19 8
  let (a, k) := (linePieces off n).getD (l.left.getD i 0) (off, 0)
  let x := onCore (fun c => noteRun { c with landing := none } a k) x
  match badRun x.core a k with
  | some _ => homeNack (countUes x (runBads x.core a k) 1) q 11 0
  | none =>
    let acc := l.acc + readRun x.core a k * 256 ^ (a - off)
    if 1 < l.left.length then onCore (fun c => { c with landing := some { l with left := l.left.eraseIdx i, acc := acc } }) x
    else
      let len := ceilDiv n 32
      onCore (fun c => injectAns c x.id { answerPkt x q kREPLY 4 q.arg0 with len := len, payload := natFlits acc len }) x
/-- A request performed at its home, or refused for an uncorrectable word. A store of a whole word meets none. -/
def perform (x : Site) (q : Packet) (off n : Nat) : Site :=
  if q.kind = kRLOAD ∧ bits q.arg1 5 5 = 1 then copyLoad x q else
  let whole := q.kind == kRSTORE && decide (8 ≤ n)
  let x := if whole then x else onCore (fun c => noteRun c off n) x
  match (if whole then none else badRun x.core off n) with
  | some _ => homeNack (countUes x (runBads x.core off n) 1) q 11 0
  | none =>
    if q.kind = kRSTORE then reply (onCore (fun c => writeLocal c off n (q.arg0.toNat % 256 ^ n)) x) q 3 0
    else if q.kind = kRATOMIC then homeAtomic x q off n
    else reply x q 2 (wordN (readRun x.core off n))
/-- A request checked and performed at a core (R313). -/
def homeServe (x : Site) (q : Packet) : Site :=
  let copy := q.kind == kRLOAD && bits q.arg1 5 5 == 1
  let n := if copy then bits q.arg1 19 8 else 2 ^ bits q.arg1 4 3
  let off := if copy then bits q.arg0 20 0 else q.ks % 2 ^ 21
  let loggia := q.kind == kRSTORE && bitN q.ks 21
  let firm := q.kind != kRLOAD && inFirmwareEntries x off n
  match (homeFault x q off loggia (q.kind != kRSTORE) (q.kind != kRLOAD)).or (if firm then some (8, 3) else none) with
  | some (r, d) => homeNack x q r d
  | none => perform x q off n
/-- Whether a packet is a remote arrival or wait on a hasp (R344). -/
def isHaspReq (p : Packet) : Bool := p.kind == kRATOMIC && bitN p.ks 21
/-- Whether an earlier write of the same strand and stream to the same home has been answered RETRY and is still to perform: the
request at hand comes too early, and is answered as it would have been then (R317, R334 case 2). -/
-- DEDUCED: log 171.
def behindRetry (s : State) (q : Packet) : Bool :=
  s.sites.any fun e => e.2.life == .live && coreName e.2 == q.src &&
    match findOut e.2.core q.seq with
    | none => false
    | some o => (e.2.core.outs.takeWhile fun w => w.seq != q.seq).any fun w =>
        w.kind == .rst && !w.dead && decide (0 < w.tries) && w.key == o.key && w.pkt.stream == o.pkt.stream && w.pkt.dest == o.pkt.dest
/-- REMOTE_REQUEST_ARRIVAL (R313): a request, or one of the lines left of a copy-form load. -/
def execRemoteRequestArrival (s : State) : Res :=
  .next (modSite s (argAt s 0) fun x =>
    match x.core.landing, nextArrival x with
    | some l, _ => if l.pkt.kind = kRLOAD then copyLoadLine x l (argAt s 1) else x
    | none, none => x
    | none, some q =>
      if !(q.kind == kRLOAD || q.kind == kRSTORE || q.kind == kRATOMIC) || isHaspReq q then x
      else if malformed x q then dropMalformed (popArrival x) q
      else if refuses x q || behindRetry s q then homeNack (popArrival x) q rRETRY 0
      else homeServe (popArrival x) q)

/-! ### Answers (R319, R320) -/

/-- The trap of a refused or lost request. -/
def remoteVal (o : Outst) (p : Packet) : TrapVal :=
  let r := refusalOf p
  let d := detailOf p
  if r = rLOST then
    { cause := 0x0E, pc := o.pc, info := remoteInfo (1 + d) d o.pkt.stream r o.seq o.pkt.dest }
  else
    let sub := if r = rUNREACHABLE ∨ r = rGUARD ∨ r = rMALFORMED then 4 else 3
    { cause := 0x0C, pc := o.pc, info := remoteInfo sub d o.pkt.stream r o.seq o.pkt.dest }
/-- Whether a context still exists: the supervisor's, or a strand that has not exited. -/
def lives (c : Core) (key : Nat) : Bool :=
  key == supKey || (match groupOf c (key / 16) with | some g => g.live.contains (key % 16) | none => false)
/-- A deferred fault recorded against a strand: the first is kept, with OVER set by a later one; one of a strand that
has exited is discarded and counted (R320). -/
def deferFault (x : Site) (o : Outst) (v : TrapVal) : Site :=
  if !lives x.core o.key then countLost x 1
  else onCore (fun c => modStrand c o.key fun st => match st.deferred with
    | none => { st with deferred := some { v with deferred := true }, deferredOf := [(o.pkt.stream, o.pkt.dest, o.born)] }
    | some w => { st with deferred := some { w with info := w.info ||| wordN (2 ^ 52) }
                          deferredOf := st.deferredOf ++ [(o.pkt.stream, o.pkt.dest, o.born)] }) x
/-- Whether a context waits in the acquire half of a remote write. -/
def acquiring (c : Core) (key : Nat) : Bool :=
  match (strandOf c key).wait with
  | .reply 6 q => !(c.outs.any fun o => o.seq == q && !isRemoteWrite o)
  | _ => false
/-- The deferred fault that the acquire half of the instruction that a context waits in delivers: one of that instruction's own
writes (R320). -/
def acquireFault (c : Core) (key : Nat) : Option TrapVal :=
  if acquiring c key then deferredDue c key fun e => e.2.2 == (strandOf c key).acqBorn else none
/-- A deferred fault delivered by the acquire half of the instruction at an address, which has then only its wait left (R320). -/
def acquireTrap (x : Site) (key : Nat) (pc : Word) (v : TrapVal) : Site :=
  recordTrap (onCore (fun c => modStrand (dropDeferred c key) key fun st => { st with acqAt := some pc }) x) key { v with pc := pc }
/-- The acquire half of a write answered: a fault of it is taken, or its strand goes on once all of its instruction's are answered
(R316). -/
def acquireEnd (x : Site) (o : Outst) : Site :=
  if !o.acq || !acquiring x.core o.key || (strandOf x.core o.key).acqBorn != o.born then x
  else match acquireFault x.core o.key with
    | some v => acquireTrap x o.key o.pc v
    | none => if (remoteWrites x.core o.key).any fun w => w.acq && w.born == o.born then x else onCore (fun c => endWait c o.key true) x

/-- Whether an operation is a remote access of a strand or one on a remote hasp. -/
def isRemote (k : OKind) : Bool :=
  match k with
  | .rld _ _ => true
  | .rst => true
  | .harrive _ => true
  | .hwait => true
  | _ => false
/-- The effect of a REPLY. -/
def remoteReply (x : Site) (o : Outst) (v : Word) : Site :=
  match o.kind with
  | .rld d n => onCore (fun c => endWait (deliverG? c o.key d (wordN (v.toNat % 256 ^ n))) o.key true) x
  | .harrive d => onCore (fun c => endWait (deliverG? c o.key d (wordN (v.toNat % 2 ^ 32))) o.key true) x
  | .hwait => onCore (fun c => endWait c o.key true) x
  | _ => acquireEnd x o
/-- An answer to a remote access (R319, R344). -/
def remoteAnswer (x : Site) (o : Outst) (p : Packet) (time : Nat) : Site :=
  let r := refusalOf p
  let hasp := match o.kind with | .harrive _ => true | .hwait => true | _ => false
  let gone := onCore (fun c => dropOut' c o.seq) x
  if p.kind = kREPLY then remoteReply gone o p.arg0
  else if r = rRETRY then planRetry x o.seq time false
  else if hasp && r == rFULL && decide (o.full < regF x 0x061 7 0) then planRetry x o.seq time true
  else if o.kind = .rst then acquireEnd (deferFault gone o (remoteVal o p)) o
  else recordTrap gone o.key (remoteVal o p)
/-- REMOTE_ANSWER (R319). -/
def execRemoteAnswer (s : State) : Res :=
  .next (modSite s (argAt s 0) fun x =>
    match nextArrival x with
    | none => x
    | some p =>
      if !(p.kind == kREPLY || p.kind == kNACK || p.kind == kFAULTREP) || !takesAnswers x || malformed x p then x
      else match findOut x.core p.seq with
        | some o => if o.dead || !isRemote o.kind then x else remoteAnswer (popArrival x) o p s.time
        | none => x)

end Sys2Proof.Machine
end

