-- ==== Sys2Proof/Machine/Hasp.lean ====
section
/-! DEFINITION. Hasps: arrivals, waits and expectations, local and remote (R341 to R352). -/

namespace Sys2Proof.Machine

def haspOf (c : Core) (k : Nat) : Hasp := tget {} c.hasps k
/-- Whether a phase token is complete (R342). -/
def tokenDone (h : Hasp) (t : Nat) : Bool :=
  let d := (h.phase + 2 ^ 32 - t % 2 ^ 32) % 2 ^ 32
  decide (1 ≤ d) && decide (d ≤ 2 ^ 31)
/-- An arrival applied to an OPEN hasp (R343). -/
def haspArrive (h : Hasp) (drop : Bool) : Hasp :=
  let left := h.left - 1
  let expect := if drop then h.expect - 1 else h.expect
  if left = 0 then
    { h with phase := (h.phase + 1) % 2 ^ 32, left := expect, expect := expect, st := if 0 < expect then 1 else 2 }
  else { h with left := left, expect := expect }
/-- An expectation applied (R343). -/
-- DEDUCED: log 70.
def haspExpect (h : Hasp) (n : Nat) (persist : Bool) : Hasp :=
  { h with left := h.left + n, expect := h.expect + (if persist then n else 0), st := if h.st = 2 then 1 else h.st }

/-- The waits on a hasp whose tokens are complete end (R344, R350). -/
def haspWake (x : Site) (k : Nat) : Site :=
  let h := haspOf x.core k
  let woken := x.core.strands.filter fun s => match s.2.wait with
    | .hasp j t => j == k && tokenDone h t
    | _ => false
  let x := onCore (fun c => woken.foldl (fun c s => endWait c s.1 true) c) x
  let due (w : Packet × Nat × Nat) : Bool := w.2.1 == k && tokenDone h w.2.2
  let x := (x.core.rwaits.filter due).foldl (fun x w => reply x w.1 2 (wordN h.phase)) x
  onCore (fun c => { c with rwaits := c.rwaits.filter fun w => !due w }) x
/-- A hasp replaced, and its waits evaluated. -/
def haspSet (x : Site) (k : Nat) (h : Hasp) : Site :=
  haspWake (onCore (fun c => { c with hasps := tset c.hasps k h }) x) k

/-- The stages of a cycle on a hasp (R343): 1 HINIT, 2 a router arrival, 3 a strand's arrival, 4 HEXPECT, 5 waits and tests. -/
def noteHasp (stage k : Nat) (x : Site) : Site := onCore (fun c => { c with haspAt := tset c.haspAt k stage }) x
/-- The instruction at hand has acted on a hasp in this cycle. -/
def haspHere (stage k : Nat) (s : State) : State := modSite s (curSid s) (noteHasp stage k)
/-- HASP (R352). -/
def haspTrap (sub k : Nat) (s : State) : Res := trapHere s 0x10 (sub + k * 2 ^ 8)

/-- HINIT (R348). -/
def execHinit (a b : Nat) (s : State) : Res :=
  issue (.hinit a b) s fun s =>
    let s := haspHere 1 a s
    let w := readG s b
    let c := (curSite s).core
    if bits w 15 0 = 0 then haspTrap 3 a s
    else if (c.strands.any fun t => match t.2.wait with | .hasp j _ => j == a | _ => false) ||
        c.rwaits.any fun e => e.2.1 == a then haspTrap 4 a s
    else
      let h : Hasp := { st := 1, remote := bit w 16, phase := (haspOf c a).phase, expect := bits w 15 0, left := bits w 15 0 }
      done 4 (onCur (fun c => { c with hasps := tset c.hasps a h }) s)

/-- HARRIVE at a local hasp: after its release half, its strand waits for the cycle in which the arrival is applied (R343, R349). -/
def execHarrive (d a x c : Nat) (s : State) : Res :=
  issue (.harrive d a x c) s fun s => releaseHalf (.arrive d a (x == 1)) 4 c s fun s =>
    .next (onCur (fun k => setWait k (curKey s) (.arriving (s.time + 1) d a (x == 1)) 4) s)
/-- The arrival applied in the cycle after its release half has ended, the strand SAVED or not. -/
def arriveLate (x : Site) (key d k : Nat) (drop : Bool) : Site :=
  let x := noteHasp 3 k x
  let h := haspOf x.core k
  if h.st = 1 then
    haspSet (onCore (fun c => endWait (deliverG c key d (wordN h.phase)) key true) x) k
      (haspArrive h drop)
  else recordTrap (onCore (fun c => seeFrame c key 0 8) x) key { cause := 0x10, pc := pcOf x.core key, info := wordN (h.st / 2 + 1 + k * 2 ^ 8) }

/-- A request to a remote hasp (R344): HOP 0 arrive, 1 arrive and drop, 2 wait. -/
def haspRequest (s : State) (w : Word) (hop scope : Nat) (arg0 : Nat) : Packet :=
  { remotePkt s kRATOMIC (remName w) (bits w 4 0 + hop * 2 ^ 5) 0 scope 0 0 arg0 true with arg1 := 0 }
/-- HARRIVE at a remote hasp, after its release half (R349). -/
def execHarriveRemote (d a x c : Nat) (s : State) : Res :=
  issue (.harriveRemote d a x c) s fun s =>
    let w := readG s a
    if isNull (remName w) then remoteTrap s 1 0 (remName w)
    else sendRequest (haspRequest s w x c 0) (.harrive (destG d)) true (some c) s

/-- HWAIT on a local hasp (R350). -/
-- DEDUCED: log 69.
def execHwait (a b : Nat) (s : State) : Res :=
  issue (.hwait a b) s fun s =>
    let s := haspHere 5 a s
    let t := (readG s b).toNat % 2 ^ 32
    let h := haspOf (curSite s).core a
    if h.st = 0 then haspTrap 1 a s
    else if tokenDone h t then done 4 s
    else if h.st = 2 then haspTrap 2 a s
    else .next (onCur (fun c => setWait c (curKey s) (.hasp a t) 4) s)
/-- HWAIT on a remote hasp (R350). -/
-- DEDUCED: log 69.
def execHwaitRemote (a b : Nat) (s : State) : Res :=
  issue (.hwaitRemote a b) s fun s =>
    let w := readG s a
    if isNull (remName w) then remoteTrap s 1 0 (remName w)
    else sendRequest (haspRequest s w 2 5 ((readG s b).toNat % 2 ^ 32)) .hwait true none s

/-- HEXPECT (R351). -/
def execHexpect (a b : Nat) (s : State) : Res :=
  issue (.hexpect a b) s fun s =>
    let s := haspHere 4 a s
    let w := readG s b
    let n := bits w 15 0
    let h := haspOf (curSite s).core a
    if h.st = 0 then haspTrap 1 a s
    else if n = 0 then done 4 s
    else if 65535 < h.left + n ∨ (bit w 16 ∧ 65535 < h.expect + n) then haspTrap 5 a s
    else done 4 (onCur (fun c => { c with hasps := tset c.hasps a (haspExpect h n (bit w 16)) }) s)

/-- HTEST (R350). -/
def execHtest (d a b : Nat) (s : State) : Res :=
  issue (.htest d a b) s fun s =>
    let s := haspHere 5 a s
    let t := (readG s b).toNat % 2 ^ 32
    let h := haspOf (curSite s).core a
    done 4 (writeG s d (wordN (b2n (tokenDone h t) + h.st * 2 + b2n h.remote * 2 ^ 3 + h.left * 2 ^ 8 + h.expect * 2 ^ 24 +
      h.phase % 2 ^ 24 * 2 ^ 40)))

/-- The checks of R344 on a remote request: refusal and detail. -/
def haspFault (c : Core) (h : Hasp) (wait : Bool) (t : Nat) : Option (Nat × Nat) :=
  if h.st = 0 ∨ !h.remote then some (rINVALID, 8)
  else if h.st ≠ 1 ∧ !(wait && tokenDone h t) then some (rINVALID, 9)
  else if wait ∧ !tokenDone h t ∧ 64 ≤ c.rwaits.length then some (rFULL, 4)
  else none
/-- A remote arrival or wait at its owner. -/
def haspServe (x : Site) (q : Packet) : Site :=
  let k := bitsN q.ks 4 0
  let hop := bitsN q.ks 6 5
  let t := q.arg0.toNat % 2 ^ 32
  let h := haspOf x.core k
  match haspFault x.core h (hop == 2) t with
  | some (r, d) => homeNack x q r d
  | none =>
    if hop = 2 then
      let x := noteHasp 5 k x
      if tokenDone h t then reply x q 2 (wordN h.phase)
      else onCore (fun c => { c with rwaits := c.rwaits ++ [(q, k, t)] }) x
    else haspSet (onCore (fun c => { c with routed := true }) (noteHasp 2 k (reply x q 2 (wordN h.phase)))) k (haspArrive h (hop == 1))
/-- The stage at which an instruction acts on a hasp, and the hasp; those of a remote hasp act on none. -/
def haspStage : Instr → Option (Nat × Nat)
  | .hinit a _ => some (1, a)
  | .harrive _ a _ _ => some (3, a)
  | .hexpect a _ => some (4, a)
  | .hwait a _ => some (5, a)
  | .htest _ a _ => some (5, a)
  | _ => none
/-- Whether an instruction may still act on its hasp in this cycle: no later stage of the cycle has (R343). -/
-- DEDUCED: log 149.
def haspInTurn (c : Core) (i : Instr) : Bool :=
  match haspStage i with
  | some (k, h) => decide (tget 0 c.haspAt h ≤ k)
  | none => true
/-- Whether a remote request may act on its hasp in this cycle, given the instruction that the core still is to issue in it. -/
-- DEDUCED: log 149.
def haspReqInTurn (c : Core) (q : Packet) (next : Option Instr) : Bool :=
  let h := bitsN q.ks 4 0
  let ahead := match next.bind haspStage with | some (k, j) => if j = h then k else 6 | none => 6
  if bitsN q.ks 6 5 = 2 then decide (5 ≤ ahead)
  else decide (2 ≤ ahead) && decide (tget 0 c.haspAt h ≤ 2) && !c.routed
/-- HASP_REMOTE_REQUEST (R344). -/
def execHaspRemoteRequest (s : State) : Res :=
  .next (modSite s (argAt s 0) fun x =>
    match nextArrival x with
    | none => x
    | some q =>
      if !isHaspReq q then x
      else if malformed x q then dropMalformed (popArrival x) q
      else if refuses x q then homeNack (popArrival x) q rRETRY 0
      else haspServe (popArrival x) q)

end Sys2Proof.Machine
end

