-- ==== Sys2Proof/Machine/Flags.lean ====
section
/-! DEFINITION. Number formats, rounding and the floating-point flags (R179 to R203): exact values, decoding,
one rounding into a format, and the flags it raises. -/

namespace Sys2Proof.Machine

/-! ### Flags (R199) -/

def fInvalid : Nat := 1
def fOverflow : Nat := 2
def fUnderflow : Nat := 4
def fInexact : Nat := 8
def fSaturate : Nat := 16
def fNanmap : Nat := 32

/-! ### Exact values (R180) -/

/-- An exact value or a special: a finite value is the magnitude m times 2^e. -/
inductive Num where
  | nan (neg sig : Bool)
  | inf (neg : Bool)
  | fin (neg : Bool) (m : Nat) (e : Int)
  deriving DecidableEq, Repr

def Num.neg : Num → Bool
  | .nan n _ => n
  | .inf n => n
  | .fin n _ _ => n
def Num.isNan : Num → Bool
  | .nan _ _ => true
  | _ => false
def Num.isSnan : Num → Bool
  | .nan _ s => s
  | _ => false
def Num.isInf : Num → Bool
  | .inf _ => true
  | _ => false
def Num.isZero : Num → Bool
  | .fin _ m _ => m == 0
  | _ => false
/-- The exact value of an integer. -/
def numOfInt (z : Int) : Num := .fin (decide (z < 0)) z.natAbs 0

/-- m · 2^k for a k of either sign as a fraction: numerator and denominator. -/
def fracOf (m : Nat) (k : Int) : Nat × Nat := if 0 ≤ k then (m * 2 ^ k.toNat, 1) else (m, 2 ^ (-k).toNat)

/-- floor(log2 (num / den)) of a positive fraction. -/
def floorLog2 (num den : Nat) : Int :=
  let k : Int := (bitLen num : Int) - (bitLen den : Int)
  let a := fracOf num (-k)
  if a.1 ≥ den * a.2 then k else k - 1

/-- Two finite magnitudes on a common exponent: signed integers and the exponent. -/
def alignInts (n1 : Bool) (m1 : Nat) (e1 : Int) (n2 : Bool) (m2 : Nat) (e2 : Int) : Int × Int × Int :=
  let e := if e1 ≤ e2 then e1 else e2
  let a : Int := (m1 * 2 ^ (e1 - e).toNat : Nat)
  let b : Int := (m2 * 2 ^ (e2 - e).toNat : Nat)
  (if n1 then -a else a, if n2 then -b else b, e)

/-- Whether x < y as extended reals, −0 equal to +0; false with a NaN. -/
def numLt (x y : Num) : Bool :=
  match x, y with
  | .nan _ _, _ => false
  | _, .nan _ _ => false
  | .inf a, .inf b => a && !b
  | .inf a, .fin _ _ _ => a
  | .fin _ _ _, .inf b => !b
  | .fin n1 m1 e1, .fin n2 m2 e2 =>
    let (a, b, _) := alignInts n1 m1 e1 n2 m2 e2
    decide (a < b)
/-- Whether x = y as extended reals; false with a NaN. -/
def numEq (x y : Num) : Bool := !x.isNan && !y.isNan && !numLt x y && !numLt y x

/-! ### Formats (R179, R181, R183) -/

/-- A floating-point format: exponent and fraction bits, and its specials: 0 IEEE, 1 FP8A's, 2 none. -/
structure FloatFmt where
  eb : Nat
  mb : Nat
  sp : Nat
  deriving DecidableEq, Repr

def FloatFmt.bias (f : FloatFmt) : Int := (2 ^ (f.eb - 1) - 1 : Nat)
/-- The largest finite value: magnitude and exponent. -/
def FloatFmt.maxM (f : FloatFmt) : Nat := 2 ^ (f.mb + 1) - (if f.sp = 1 then 2 else 1)
def FloatFmt.maxQ (f : FloatFmt) : Int :=
  (2 ^ f.eb - (if f.sp = 0 then 2 else 1) : Nat) - f.bias - f.mb
def FloatFmt.width (f : FloatFmt) : Nat := 1 + f.eb + f.mb

def fp32 : FloatFmt := { eb := 8, mb := 23, sp := 0 }
def bf16 : FloatFmt := { eb := 8, mb := 7, sp := 0 }
def fp16 : FloatFmt := { eb := 5, mb := 10, sp := 0 }
def fp8a : FloatFmt := { eb := 4, mb := 3, sp := 1 }
def fp8b : FloatFmt := { eb := 5, mb := 2, sp := 0 }
def fp6a : FloatFmt := { eb := 3, mb := 2, sp := 2 }
def fp6b : FloatFmt := { eb := 2, mb := 3, sp := 2 }
def fp4 : FloatFmt := { eb := 2, mb := 1, sp := 2 }
def tf19 : FloatFmt := { eb := 8, mb := 10, sp := 0 }

/-- What the elements of a code or lane type are: a float, an integer of a width, TRI, or a table of 8 or 4 bits. -/
inductive Kind where
  | flt (f : FloatFmt)
  | int (w : Nat) (signed : Bool)
  | tri
  | tab (w : Nat)
  deriving DecidableEq, Repr

/-- The kind of a format code that is not a block (R179). -/
def kindOfFmt (c : Nat) : Kind :=
  match c with
  | 0 => .flt fp32 | 1 => .flt bf16 | 2 => .flt fp16 | 3 => .flt fp8a | 4 => .flt fp8b
  | 5 => .flt fp6a | 6 => .flt fp6b | 7 => .flt fp4
  | 8 => .int 8 true | 9 => .int 8 false | 10 => .int 4 true | 11 => .int 4 false
  | 12 => .tri | 27 => .tab 4 | _ => .tab 8

/-- The kind of a lane type (R204). -/
def kindOfLane (t : Nat) : Kind :=
  match t with
  | 0 => .flt fp32 | 1 => .flt bf16 | 2 => .flt fp16
  | 4 => .int 32 true | 5 => .int 32 false | 6 => .int 16 true | 7 => .int 16 false
  | 8 => .int 8 true | _ => .int 8 false

/-- Bits of an element of a kind. -/
def Kind.width : Kind → Nat
  | .flt f => f.width
  | .int w _ => w
  | .tri => 2
  | .tab w => w
def Kind.isInt : Kind → Bool
  | .int _ _ => true
  | .tri => true
  | _ => false
/-- The range of an integer kind. -/
def Kind.range : Kind → Int × Int
  | .int w true => (-(2 ^ (w - 1) : Nat), (2 ^ (w - 1) : Nat) - 1)
  | .int w false => (0, (2 ^ w : Nat) - 1)
  | _ => (-1, 1)

/-! ### Decoding (R182, R183, R192) -/

/-- A float encoding's value (R182). -/
def decodeFloat (f : FloatFmt) (x : Nat) : Num :=
  let s := bitN x (f.eb + f.mb)
  let e := bitsN x (f.eb + f.mb - 1) f.mb
  let m := x % 2 ^ f.mb
  if f.sp = 0 ∧ e = 2 ^ f.eb - 1 then
    if m = 0 then .inf s else .nan s (!bitN m (f.mb - 1))
  else if f.sp = 1 ∧ e = 15 ∧ m = 7 then .nan s false
  else if e = 0 then .fin s m (1 - f.bias - f.mb)
  else .fin s (2 ^ f.mb + m) ((e : Int) - f.bias - f.mb)

/-- The TF19 bits of an entry of the T8 table, or of the T4 table at 256 and above (R192). -/
def tableBits (t : Tab Nat) (k : Nat) : Nat := (tget? t k).getD (tdecReset k)
def tableVal (t : Tab Nat) (w c : Nat) : Num := decodeFloat tf19 (tableBits t (if w = 8 then c else 256 + c))

/-- The value of an element and the flag its decoding raises (TRI 0b10). -/
def decodeKind (t : Tab Nat) (k : Kind) (x : Nat) : Num × Nat :=
  match k with
  | .flt f => (decodeFloat f x, 0)
  | .int w true => (numOfInt (sext x w), 0)
  | .int w false => (.fin false (x % 2 ^ w) 0, 0)
  | .tri => match x % 4 with
    | 1 => (.fin false 1 0, 0)
    | 3 => (.fin true 1 0, 0)
    | 2 => (.fin false 0 0, fInvalid)
    | _ => (.fin false 0 0, 0)
  | .tab w => (tableVal t w (x % 2 ^ w), 0)

/-! ### Rounding (R194, R195, R197) -/

/-- The mode in force for an integer or other destination: 6 is RTZ or RNE (R194). -/
def effMode (mode : Nat) (int : Bool) : Nat := if mode = 6 then (if int then 1 else 0) else mode

/-- A magnitude num / den in units rounded to an integer: the result and whether it differs from the exact
value. r is bits [23:0] of the LFSR state. -/
def roundMag (neg : Bool) (num den mode r : Nat) : Nat × Bool :=
  let lo := num / den
  let rm := num % den
  if rm = 0 then (lo, false)
  else
    let up := match mode with
      | 0 => decide (2 * rm > den) || (2 * rm == den && lo % 2 == 1)
      | 1 => false
      | 2 => neg
      | 3 => !neg
      | 4 => decide (2 * rm ≥ den)
      | _ => decide (rm * 2 ^ 24 / den + r ≥ 2 ^ 24)
    (if up then lo + 1 else lo, true)

/-- The encoding of a float with magnitude u · 2^q, u below 2^(mb + 1). -/
def packFloat (f : FloatFmt) (neg : Bool) (u : Nat) (q : Int) : Nat :=
  (if neg then 2 ^ (f.eb + f.mb) else 0) +
    (if u < 2 ^ f.mb then u else (q + f.bias + f.mb).toNat * 2 ^ f.mb + (u - 2 ^ f.mb))
def packMax (f : FloatFmt) (neg : Bool) : Nat := packFloat f neg f.maxM f.maxQ
def packInf (f : FloatFmt) (neg : Bool) : Nat :=
  (if neg then 2 ^ (f.eb + f.mb) else 0) + (2 ^ f.eb - 1) * 2 ^ f.mb
/-- The canonical quiet NaN (R182). -/
def packNan (f : FloatFmt) (neg : Bool) : Nat :=
  if f.sp = 1 then (if neg then 0xFF else 0x7F) else packInf f neg + 2 ^ (f.mb - 1)

/-- A magnitude of a float format before it is packed: its unit's exponent, the count of units, whether that differs
from the exact value, and whether the exact value lies below the least normal or beyond the largest finite value. -/
structure Rounded where
  q : Int
  u : Nat
  inexact : Bool
  tiny : Bool
  huge : Bool
/-- A non-zero magnitude num / den · 2^e rounded to a float format's units with an unbounded exponent (R194). -/
def roundUnits (f : FloatFmt) (neg : Bool) (num den : Nat) (e : Int) (mode r : Nat) : Rounded :=
  let fl := floorLog2 num den + e
  let emin := 1 - f.bias
  let q := (if fl < emin then emin else fl) - f.mb
  let a := fracOf num (e - q)
  let d := den * a.2
  let (u, inexact) := roundMag neg a.1 d mode r
  let (u, q') := if u = 2 ^ (f.mb + 1) then (2 ^ f.mb, q + 1) else (u, q)
  { q := q', u := u, inexact := inexact, tiny := decide (fl < emin)
    huge := decide (q > f.maxQ) || (q == f.maxQ && decide (a.1 > f.maxM * d)) }
/-- The bits and flags of a rounded magnitude that the format holds (R197). -/
def packRounded (f : FloatFmt) (neg : Bool) (x : Rounded) : Nat × Nat :=
  (packFloat f neg x.u x.q, if x.inexact then (if x.tiny then fUnderflow + fInexact else fInexact) else 0)

/-- A non-zero magnitude num / den · 2^e rounded into a float format: its bits and flags (R197). The overflow is judged
on the exact magnitude, as R194 and R225 put it. -/
-- DEDUCED: log 25.
def roundFloat (f : FloatFmt) (neg : Bool) (num den : Nat) (e : Int) (mode r : Nat) : Nat × Nat :=
  let x := roundUnits f neg num den e mode r
  if x.huge then
    if f.sp = 0 then
      let big := mode == 1 || (mode == 2 && !neg) || (mode == 3 && neg)
      (if big then packMax f neg else packInf f neg, fOverflow + fInexact)
    else (packMax f neg, fOverflow + fInexact + fSaturate)
  else packRounded f neg x

/-- A value rounded into a float format (R180, R197, R198). -/
-- DEDUCED: log 25.
def encodeFloat (f : FloatFmt) (x : Num) (mode r : Nat) : Nat × Nat :=
  match x with
  | .nan n s =>
    if f.sp = 2 then (packMax f n, fNanmap + fInvalid)
    else (packNan f n, if s then fInvalid else 0)
  | .inf n => if f.sp = 0 then (packInf f n, 0) else (packMax f n, fOverflow + fSaturate)
  | .fin n m e => if m = 0 then (packFloat f n 0 0, 0) else roundFloat f n m 1 e mode r

/-- A value rounded to an integer and clamped to a range (R183, R198). -/
def encodeInt (lo hi : Int) (x : Num) (mode r : Nat) : Int × Nat :=
  match x with
  | .nan n _ => (if n then lo else hi, fNanmap + fInvalid)
  | .inf n => (if n then lo else hi, fOverflow + fSaturate)
  | .fin n m e =>
    let a := fracOf m e
    let (u, inexact) := roundMag n a.1 a.2 mode r
    let z : Int := if n then -(u : Int) else (u : Int)
    if z > hi then (hi, fSaturate + fInexact)
    else if z < lo then (lo, fSaturate + fInexact)
    else (z, if inexact then fInexact else 0)

/-- Whether x ≤ v of a table entry, a NaN entry being greater than +∞ (R193). -/
def leEntry (x v : Num) : Bool := v.isNan || !numLt v x
def ltEntry (x v : Num) : Bool := v.isNan || numLt x v
/-- Whether x ≥ v and x > v of a table entry (R193). -/
def geEntry (x v : Num) : Bool := !v.isNan && !numLt x v
def gtEntry (x v : Num) : Bool := !v.isNan && numLt v x

/-- The search of R193, with as many steps as the table has bits. -/
def searchTable (val : Nat → Num) (x : Num) : Nat → Nat → Nat → Nat × Nat
  | 0, lo, hi => (lo, hi)
  | fuel + 1, lo, hi =>
    if hi - lo ≤ 1 then (lo, hi)
    else
      let mid := (lo + hi) / 2
      if geEntry x (val mid) then searchTable val x fuel mid hi else searchTable val x fuel lo mid

/-- |x − v| of finite values as a fraction-free pair (magnitude, exponent). -/
def distNum (x v : Num) : Option (Nat × Int) :=
  match x, v with
  | .fin n1 m1 e1, .fin n2 m2 e2 =>
    let (a, b, e) := alignInts n1 m1 e1 n2 m2 e2
    some ((a - b).natAbs, e)
  | _, _ => none

/-- Whether one magnitude is less than, or equal to, another. -/
def magLt (a b : Nat × Int) : Bool := numLt (.fin false a.1 a.2) (.fin false b.1 b.2)
/-- The magnitude of an entry, none for a special. -/
def magOf : Num → Option (Nat × Int)
  | .fin _ m e => some (m, e)
  | _ => none

/-- The choice between two neighbouring entries of a table (R193). Where the entries' values leave the rule without
an answer (a NaN or infinite neighbour, equal magnitudes), the choice is free. -/
-- DESIGN CHOICE: log 28.
def chooseEntry (val : Nat → Num) (x : Num) (lo hi mode r : Nat) : Nat :=
  let free := if Config.tableTie lo hi then hi else lo
  let dl := distNum x (val lo)
  let dh := distNum x (val hi)
  match mode with
  | 2 => lo
  | 3 => hi
  | 1 => match magOf (val lo), magOf (val hi) with
    | some a, some b => if magLt a b then lo else if magLt b a then hi else free
    | some _, none => lo
    | none, some _ => hi
    | none, none => free
  | 5 => match dl, distNum (val hi) (val lo) with
    | some (m1, e1), some (m2, e2) =>
      let k := e1 - e2
      let a := fracOf m1 k
      if m2 = 0 then free
      else if a.1 * 2 ^ 24 / (m2 * a.2) + r ≥ 2 ^ 24 then hi else lo
    | some _, none => if (val hi).isInf then lo else free
    | none, _ => free
  | _ => match dl, dh with
    | some a, some b =>
      if magLt a b then lo else if magLt b a then hi
      else if mode = 0 then (if lo % 2 = 0 then lo else hi)
      else match magOf (val lo), magOf (val hi) with
        | some p, some q => if magLt p q then hi else if magLt q p then lo else free
        | _, _ => free
    | some _, none => lo
    | none, some _ => hi
    | none, none => free

/-- The lowest code below n whose entry passes a test, and the highest. -/
def lowestCode (p : Nat → Bool) (n : Nat) : Option Nat := (upto n).find? p
def highestCode (p : Nat → Bool) (n : Nat) : Option Nat := (upto n).reverse.find? p

/-- A value encoded into a table format of w bits (R193). -/
def encodeTable (t : Tab Nat) (w : Nat) (x : Num) (mode r : Nat) : Nat × Nat :=
  let n := 2 ^ w
  let val := tableVal t w
  let sig := if x.isSnan then fInvalid else 0
  if x.isNan then
    match lowestCode (fun c => (val c).isNan) n with
    | some c => (c, sig)
    | none =>
      (if x.neg then 0 else (highestCode (fun c => !(val c).isNan) n).getD 0, fNanmap + fInvalid)
  else if leEntry x (val 0) then
    (0, if ltEntry x (val 0) then fSaturate + fInexact + (if x == .inf true then fOverflow else 0) else 0)
  else if geEntry x (val (n - 1)) then
    (n - 1, if gtEntry x (val (n - 1)) then fSaturate + fInexact + (if x == .inf false then fOverflow else 0) else 0)
  else
    let (lo, hi) := searchTable val x w 0 (n - 1)
    if numEq x (val lo) then (lo, 0)
    else (chooseEntry val x lo hi mode r, fInexact)

/-- A value rounded once into a kind: bits and flags. -/
def encodeKind (t : Tab Nat) (k : Kind) (x : Num) (mode r : Nat) : Nat × Nat :=
  let mode := effMode mode k.isInt
  match k with
  | .flt f => encodeFloat f x mode r
  | .tab w => encodeTable t w x mode r
  | k =>
    let (lo, hi) := k.range
    let (z, fl) := encodeInt lo hi x mode r
    (truncI z k.width, fl)

/-- An element converted between kinds (R180): to the same kind unchanged, a signalling NaN made quiet. -/
-- DEDUCED: log 174.
def convertKind (t : Tab Nat) (df sf : Kind) (x mode r : Nat) : Nat × Nat :=
  if df = sf then
    match (decodeKind t sf x).1 with
    | .nan n true => encodeKind t df (.nan n true) mode r
    | _ => (x % 2 ^ sf.width, 0)
  else
    let (v, f1) := decodeKind t sf x
    let (y, f2) := encodeKind t df v mode r
    (y, f1 ||| f2)

/-! ### The stochastic state (R195) -/

/-- One step of the LFSR. -/
def lfsrStep (s : Nat) : Nat :=
  let s := if s = 0 then 1 else s
  if s % 2 = 1 then (s / 2) ^^^ 0x80200003 else s / 2
/-- n steps. -/
def lfsrSteps : Nat → Nat → Nat
  | 0, s => s
  | n + 1, s => lfsrSteps n (lfsrStep s)
/-- The random bits of n elements in order and the state after them. -/
def lfsrDraws : Nat → Nat → List Nat × Nat
  | 0, s => ([], s)
  | n + 1, s => let (l, s') := lfsrDraws n (lfsrStep s); (s % 2 ^ 24 :: l, s')

/-- n random values and the state after them when the mode is RS, else zeros and the state as it was. -/
def drawsFor (mode n s : Nat) : List Nat × Nat := if mode = 5 then lfsrDraws n s else (List.replicate n 0, s)

/-! ### Exact arithmetic (R211) -/

/-- The first NaN of a list of operands, made quiet: the result of R211, with INVALID for a signalling one. -/
def nanResult (xs : List Num) : Option (Num × Nat) :=
  match xs.find? Num.isNan with
  | some x => some (.nan x.neg false, if xs.any Num.isSnan then fInvalid else 0)
  | none => none

/-- x · y for values that are no NaN. -/
-- DEDUCED: log 26.
def mulNum (x y : Num) : Num × Nat :=
  let s := x.neg != y.neg
  match x, y with
  | .fin _ m1 e1, .fin _ m2 e2 => (.fin s (m1 * m2) (e1 + e2), 0)
  | _, _ => if x.isZero || y.isZero then (.nan false false, fInvalid) else (.inf s, 0)

/-- x + y for values that are no NaN; an exact zero of unlike signs is +0, or −0 under RDN. -/
-- DEDUCED: log 26.
def addNum (x y : Num) (mode : Nat) : Num × Nat :=
  match x, y with
  | .inf a, .inf b => if a = b then (.inf a, 0) else (.nan false false, fInvalid)
  | .inf a, _ => (.inf a, 0)
  | _, .inf b => (.inf b, 0)
  | .fin n1 m1 e1, .fin n2 m2 e2 =>
    if m1 = 0 ∧ m2 = 0 ∧ n1 = n2 then (.fin n1 0 0, 0)
    else
      let (a, b, e) := alignInts n1 m1 e1 n2 m2 e2
      let z := a + b
      if z = 0 then (.fin (mode == 2) 0 0, 0) else (.fin (decide (z < 0)) z.natAbs e, 0)
  | x, _ => (x, 0)

def Num.negate : Num → Num
  | .nan n s => .nan n s
  | .inf n => .inf (!n)
  | .fin n m e => .fin (!n) m e

end Sys2Proof.Machine
end

