-- ==== Sys2Proof/Machine/Formats.lean ====
section
/-! DEFINITION. Block images (R184 to R191) and runs of elements or blocks in memory order, decoded and
encoded. -/

namespace Sys2Proof.Machine

/-- Element w-bit number i of a packed field (R184). -/
def elemAt (x w i : Nat) : Nat := x / 2 ^ (w * i) % 2 ^ w
/-- Elements packed from bit 0 (R184). -/
def packElems (w : Nat) : List Nat → Nat
  | [] => 0
  | x :: l => x % 2 ^ w + 2 ^ w * packElems w l

/-- Element kinds of the MX formats and SF4 (R186), MXINT8 apart. -/
def mxFloat (f : Nat) : FloatFmt :=
  match f with
  | 13 => fp8a | 14 => fp8b | 15 => fp6a | 16 => fp6b | _ => fp4
/-- emax of the MX formats (R188). -/
def mxEmax (f : Nat) : Int :=
  match f with
  | 13 => 8 | 14 => 15 | 15 => 4 | 16 => 2 | 17 => 2 | _ => 0
def isBm (f : Nat) : Bool := decide (20 ≤ f) && decide (f ≤ 25)
def isMx (f : Nat) : Bool := decide (13 ≤ f) && decide (f ≤ 18)

/-- Scale times element under IEEE rules (R187). -/
def scaled (s x : Num) : Num :=
  match s, x with
  | .nan n g, _ => .nan n g
  | _, .nan n g => .nan n g
  | s, x => (mulNum s x).1

/-- The μ bit of a pair in an image (R185). -/
def muOf (img p : Nat) : Nat := img / 2 ^ (16 + p) % 2

/-- The values of a block image, given as a number with byte 0 lowest (R186, R187, R190). -/
def decodeBlock (f img : Nat) : List Num :=
  let n := blockElems f
  let w := fmtBits f
  let hd := img % 256
  let el i := elemAt (img / 2 ^ 32) w i
  if isBm f then
    if hd = 0xFF then List.replicate n (.nan false false)
    else (upto n).map fun i =>
      let x := el i
      .fin (bitN x (w - 1)) (x % 2 ^ (w - 1)) ((hd : Int) - 127 - muOf img (i / 2) - (w - 1 : Nat))
  else if f = 19 then
    let s := decodeFloat fp8a hd
    (upto n).map fun i => scaled s (decodeFloat fp4 (el i))
  else
    let s : Num := if hd = 0xFF then .nan false false else .fin false 1 ((hd : Int) - 127)
    (upto n).map fun i =>
      scaled s (if f = 18 then
          match numOfInt (sext (el i) 8) with
          | .fin ng m e => .fin ng m (e - 6)
          | x => x
        else decodeFloat (mxFloat f) (el i))

/-- The larger of two magnitudes of values that are no NaN. -/
def maxMag (a b : Num) : Num :=
  let pos : Num → Num := fun | .fin _ m e => .fin false m e | .inf _ => .inf false | x => x
  if numLt (pos a) (pos b) then pos b else pos a
/-- The greatest magnitude of a block (R188). -/
def blockMax (xs : List Num) : Num := xs.foldl maxMag (.fin false 0 0)

/-- A float rounded into an element format that saturates where it rounds beyond the format's largest magnitude: bits,
flags (R188, R189). -/
def satFloat (f : FloatFmt) (neg : Bool) (num den : Nat) (e : Int) (mode r : Nat) : Nat × Nat :=
  if num = 0 then (packFloat f neg 0 0, 0)
  else
    let x := roundUnits f neg num den e mode r
    if x.q > f.maxQ ∨ (x.q = f.maxQ ∧ x.u > f.maxM) then (packMax f neg, fSaturate + fInexact) else packRounded f neg x

/-- The flags a NaN block raises at each element: INVALID for a signalling one (R198). -/
def nanFlags (xs : List Num) : List Nat := xs.map fun x => if x.isSnan then fInvalid else 0

/-- The MX quantiser (R188): scale byte and elements with flags. -/
-- DEDUCED: log 27.
def encodeMx (f : Nat) (xs : List Num) (mode : Nat) (rs : List Nat) : Nat × List (Nat × Nat) :=
  if xs.any Num.isNan then (0xFF, (nanFlags xs).map fun fl => (0, fl))
  else
    let s : Int := match blockMax xs with
      | .fin _ m e => if m = 0 then 0 else
          let k := floorLog2 m 1 + e - mxEmax f + 127
          if k < 0 then 0 else if k > 254 then 254 else k
      | _ => 254
    (s.toNat, (xs.zip rs).map fun (x, r) =>
      match x with
      | .fin n m e =>
        if f = 18 then
          let a := fracOf m (e + 6 - s + 127)
          let (u, inexact) := roundMag n a.1 a.2 mode r
          let fl := if u > 127 then fSaturate + fInexact
            else if u = 0 ∧ m ≠ 0 then fUnderflow + fInexact else if inexact then fInexact else 0
          let u := Nat.min u 127
          (truncI (if n then -(u : Int) else u) 8, fl)
        else satFloat (mxFloat f) n m 1 (e - s + 127) mode r
      | x =>
        (if f = 18 then (if x.neg then 256 - 127 else 127) else packMax (mxFloat f) x.neg, fSaturate + fOverflow))

/-- The SF4 quantiser (R189). A scale that saturates raises SATURATE at the block's first element. -/
-- DEDUCED: log 27.
def encodeSf4 (xs : List Num) (mode : Nat) (rs : List Nat) : Nat × List (Nat × Nat) :=
  if xs.any Num.isNan then (0x7F, (nanFlags xs).map fun fl => (0, fl))
  else
    let (s, sat) := match blockMax xs with
      | .fin _ m e => if m = 0 then (0, 0) else
          let y := satFloat fp8a false m 6 e 3 0
          (y.1, y.2 &&& fSaturate)
      | _ => (0x7E, fSaturate)
    let sv := decodeFloat fp8a s
    let (sm, se) := match sv with | .fin _ m e => (m, e) | _ => (1, 0)
    let els := (xs.zip rs).map fun (x, r) =>
      match x with
      | .fin n m e =>
        if s = 0 then (packFloat fp4 n 0 0, 0) else satFloat fp4 n m sm (e - se) mode r
      | x => (packMax fp4 x.neg, fSaturate + fOverflow)
    (s, match els with
      | (y, fl) :: l => (y, fl ||| sat) :: l
      | [] => [])

/-- Whether a magnitude lies below 2^k. -/
def below2 (x : Num) (k : Int) : Bool :=
  match x with
  | .fin _ m e => m == 0 || decide (floorLog2 m 1 + e < k)
  | _ => false

/-- The BM quantiser (R191): E, the μ bits and the elements with flags. -/
def encodeBm (f : Nat) (xs : List Num) (mode : Nat) (rs : List Nat) : Nat × Nat × List (Nat × Nat) :=
  let w := fmtBits f
  let top := 2 ^ (w - 1) - 1
  if xs.any Num.isNan then (0xFF, 0, (nanFlags xs).map fun fl => (0, fl))
  else
    let E : Int := match blockMax xs with
      | .fin _ m e => if m = 0 then 0 else
          let k := floorLog2 m 1 + e + 128
          if k < 0 then 0 else if k > 254 then 254 else k
      | _ => 254
    let mus := (upto (blockElems f / 2)).map fun p =>
      b2n (below2 (xs.getD (2 * p) (.fin false 0 0)) (E - 128) && below2 (xs.getD (2 * p + 1) (.fin false 0 0)) (E - 128))
    let els := ((upto xs.length).zip (xs.zip rs)).map fun (i, x, r) =>
      match x with
      | .fin n m e =>
        let a := fracOf m (e + (w - 1 : Nat) + 127 + mus.getD (i / 2) 0 - E)
        let (u, inexact) := roundMag n a.1 a.2 mode r
        let fl := if u > top then fSaturate + fInexact
          else if u = 0 ∧ m ≠ 0 then fUnderflow + fInexact else if inexact then fInexact else 0
        (b2n n * 2 ^ (w - 1) + Nat.min u top, fl)
      | x => (b2n x.neg * 2 ^ (w - 1) + top, fOverflow + fSaturate)
    (E.toNat, packElems 1 mus, els)

/-- A block image of values with the flags of each element (R185, R188, R189, R191). -/
def encodeBlock (f : Nat) (xs : List Num) (mode : Nat) (rs : List Nat) : Nat × List Nat :=
  let mode := effMode mode false
  let w := fmtBits f
  if isBm f then
    let (e, mu, els) := encodeBm f xs mode rs
    (e + mu * 2 ^ 16 + packElems w (els.map fun y => y.1) * 2 ^ 32, els.map fun y => y.2)
  else
    let (s, els) := if f = 19 then encodeSf4 xs mode rs else encodeMx f xs mode rs
    (s + packElems w (els.map fun y => y.1) * 2 ^ 32, els.map fun y => y.2)

/-! ### Runs (R235) -/

/-- Bytes of a run of k elements of a code (R235). -/
def runBytes (f k : Nat) : Nat := if isBlock f then ceilDiv k (blockElems f) * imageBytes f else ceilDiv (k * fmtBits f) 8

/-- The values of a run of k elements given as a number with byte 0 lowest, and the flags its decoding raises. -/
def decodeRun (t : Tab Nat) (f k x : Nat) : List Num × Nat :=
  if isBlock f then
    let z := 8 * imageBytes f
    let n := blockElems f
    ((((upto (ceilDiv k n)).map fun b => decodeBlock f (x / 2 ^ (z * b) % 2 ^ z)).flatten).take k, 0)
  else
    let w := fmtBits f
    let l := (upto k).map fun i => decodeKind t (kindOfFmt f) (elemAt x w i)
    (l.map fun y => y.1, l.foldl (fun fl y => fl ||| y.2) 0)

/-- Groups of n of a list, the last filled with z. -/
def chunksOf {α : Type} (n : Nat) (z : α) : Nat → List α → List (List α)
  | 0, _ => []
  | k + 1, l => ((l.take n) ++ List.replicate (n - (l.take n).length) z) :: chunksOf n z k (l.drop n)

/-- Elements of a run, padding of the last block included: what RS steps for (R195, R240). -/
def runSteps (f k : Nat) : Nat := if isBlock f then ceilDiv k (blockElems f) * blockElems f else k

/-- A run of values encoded, with its flags; rs are the random bits of its elements in order (R180, R185, R248). -/
def encodeRun (t : Tab Nat) (f : Nat) (xs : List Num) (mode : Nat) (rs : List Nat) : Nat × Nat :=
  if isBlock f then
    let n := blockElems f
    let k := ceilDiv xs.length n
    let bs := (chunksOf n (.fin false 0 0) k xs).zip (chunksOf n 0 k rs)
    let ys := bs.map fun (b, r) => encodeBlock f b mode r
    (packElems (8 * imageBytes f) (ys.map fun y => y.1), ys.foldl (fun fl y => y.2.foldl (fun a b => a ||| b) fl) 0)
  else
    let ys := (xs.zip rs).map fun (x, r) => encodeKind t (kindOfFmt f) x mode r
    (packElems (fmtBits f) (ys.map fun y => y.1), ys.foldl (fun fl y => fl ||| y.2) 0)

end Sys2Proof.Machine
end

