-- ==== Sys2Proof/Machine/Trans.lean ====
section
/-! DEFINITION. The transcendental functions of R217, correctly rounded: each value is enclosed between two
fixed-point numbers until the enclosure tells every rounding decision. -/

namespace Sys2Proof.Machine

/-- The integer square root of x, found from bit k - 1 down. -/
def isqrtFrom : Nat → Nat → Nat → Nat
  | 0, _, r => r
  | k + 1, x, r => let c := r + 2 ^ k; if c * c ≤ x then isqrtFrom k x c else isqrtFrom k x r
def isqrt (x : Nat) : Nat := isqrtFrom (bitLen x / 2 + 1) x 0

/-- A value strictly between n and n + 1 units of 2^e: every boundary that a rounding tells is a multiple of the
unit, so the middle stands for it. -/
def between (neg : Bool) (n : Nat) (e : Int) : Num := .fin neg (2 * n + 1) (e - 1)

/-- Partial sums of e^y from below and above, y in units of 2^-P below 1: fuel, index, term, sum. -/
def expLo (P y : Nat) : Nat → Nat → Nat → Nat → Nat
  | 0, _, _, s => s
  | f + 1, k, t, s => let t := t * y / 2 ^ P / (k + 1); expLo P y f (k + 1) t (s + t)
def expHi (P y : Nat) : Nat → Nat → Nat → Nat → Nat
  | 0, _, t, s => s + t
  | f + 1, k, t, s => let t := ceilDiv (t * y) (2 ^ P * (k + 1)); expHi P y f (k + 1) t (s + t)
/-- Bounds of e^y for bounds of y. -/
def expBounds (P lo hi : Nat) : Nat × Nat :=
  let n := P / 6 + 32
  (expLo P lo n 0 (2 ^ P) (2 ^ P), expHi P hi n 0 (2 ^ P) (2 ^ P))

/-- Partial sums of atanh z from below and above: fuel, power, index, sum. -/
def atanhLo (P z2 : Nat) : Nat → Nat → Nat → Nat → Nat
  | 0, _, _, s => s
  | f + 1, p, k, s => atanhLo P z2 f (p * z2 / 2 ^ P) (k + 2) (s + p / k)
def atanhHi (P z2 : Nat) : Nat → Nat → Nat → Nat → Nat
  | 0, p, _, s => s + p
  | f + 1, p, k, s => atanhHi P z2 f (ceilDiv (p * z2) (2 ^ P)) (k + 2) (s + ceilDiv p k)
/-- Bounds of ln (num / den) for a fraction from 1 to 2. -/
def lnBounds (P num den : Nat) : Nat × Nat :=
  let zl := (num - den) * 2 ^ P / (num + den)
  let zh := ceilDiv ((num - den) * 2 ^ P) (num + den)
  let n := P / 3 + 8
  (2 * atanhLo P (zl * zl / 2 ^ P) n zl 1 0, 2 * atanhHi P (ceilDiv (zh * zh) (2 ^ P)) n zh 1 0)

/-- Squares of bounds, n times. -/
def squareBounds (P : Nat) : Nat → Nat × Nat → Nat × Nat
  | 0, b => b
  | n + 1, b => squareBounds P n (b.1 * b.1 / 2 ^ P, ceilDiv (b.2 * b.2) (2 ^ P))

/-- The common floor of two bounds in units of 2^(P - 64) below the leading bit, if they have one: the floor and the
unit's exponent relative to 2^-P. -/
def commonFloor (lo hi : Nat) : Option (Nat × Nat) :=
  let k := bitLen lo - 64
  if lo / 2 ^ k = hi / 2 ^ k ∧ lo ≠ 0 then some (lo / 2 ^ k, k) else none

/-- The first precision of a list at which bounds have a common floor; the last bounds' floor where none has. -/
def settle (bounds : Nat → Nat × Nat) : List Nat → Nat × Int
  | [] => (0, 0)
  | [P] => let b := bounds P; let k := bitLen b.1 - 64; (b.1 / 2 ^ k, (k : Int) - P)
  | P :: l =>
    let b := bounds P
    match commonFloor b.1 b.2 with
    | some (n, k) => (n, (k : Int) - P)
    | none => settle bounds l

def precisions : List Nat := [192, 384, 768, 1536]

/-- 1/√x of a positive x = m · 2^e. -/
def rsqrtNum (m : Nat) (e : Int) : Num :=
  let (m, e) := if e % 2 = 0 then (m, e) else (2 * m, e - 1)
  let P := 96 + bitLen m
  let n := isqrt (2 ^ (2 * P) / m)
  let x := -(P : Int) - e / 2
  if n * n * m = 2 ^ (2 * P) then .fin false n x else between false n x

/-- 2^x of a finite x that is not zero. -/
def exp2Num (neg : Bool) (m : Nat) (e : Int) : Num :=
  let a := fracOf m e
  let z : Int := if neg then -(a.1 : Int) else a.1
  let n := z / (a.2 : Int)
  let f := (z - n * a.2).toNat
  if n ≥ 4096 then .fin false 1 4096
  else if n < -4096 then .fin false 1 (-4096)
  else if f = 0 then .fin false 1 n
  else
    let bounds (P : Nat) : Nat × Nat :=
      let l := lnBounds P 2 1
      expBounds P (l.1 * f / a.2) (ceilDiv (l.2 * f) a.2)
    let (u, k) := settle bounds precisions
    between false u (k + n)

/-- log2 x of a positive x = m · 2^e. -/
def log2Num (m : Nat) (e : Int) : Num :=
  let b := bitLen m - 1
  let k : Int := (b : Int) + e
  if m = 2 ^ b then .fin (decide (k < 0)) k.natAbs 0
  else
    let bounds (P : Nat) : Nat × Nat :=
      let t := lnBounds P m (2 ^ b)
      let l := lnBounds P 2 1
      let lo := t.1 * 2 ^ P / l.2
      let hi := ceilDiv (t.2 * 2 ^ P) l.1
      if k < 0 then (k.natAbs * 2 ^ P - hi, k.natAbs * 2 ^ P - lo) else (k.toNat * 2 ^ P + lo, k.toNat * 2 ^ P + hi)
    let (u, x) := settle bounds precisions
    between (decide (k < 0)) u x

/-- tanh of a finite magnitude that is not zero. -/
def tanhNum (neg : Bool) (m : Nat) (e : Int) : Num :=
  let fl := floorLog2 m 1 + e
  if fl < -30 then between neg (m * 2 ^ 64 - 1) (e - 64)
  else if fl ≥ 6 then between neg (2 ^ 64 - 1) (-64)
  else
    let bounds (P : Nat) : Nat × Nat :=
      let a := fracOf m (e - 7 + P)
      let y := (a.1 / a.2, ceilDiv a.1 a.2)
      let x := squareBounds P 8 (expBounds P y.1 y.2)
      ((x.1 - 2 ^ P) * 2 ^ P / (x.1 + 2 ^ P), ceilDiv ((x.2 - 2 ^ P) * 2 ^ P) (x.2 + 2 ^ P))
    let (u, k) := settle bounds precisions
    between neg u k

/-- The five functions of R217. -/
inductive TFun where
  | rcp | rsq | exp2 | log2 | tanh
  deriving DecidableEq, Repr

/-- A function of a value, rounded into a float format: bits and flags, with the specials of R217. -/
def transKind (fn : TFun) (f : FloatFmt) (x : Num) (mode r : Nat) : Nat × Nat :=
  match x with
  | .nan n s => (packNan f n, if s then fInvalid else 0)
  | .inf n => match fn with
    | .rcp => (packFloat f n 0 0, 0)
    | .rsq => if n then (packNan f false, fInvalid) else (packFloat f false 0 0, 0)
    | .exp2 => if n then (packFloat f false 0 0, 0) else (packInf f false, 0)
    | .log2 => if n then (packNan f false, fInvalid) else (packInf f false, 0)
    | .tanh => encodeFloat f (.fin n 1 0) mode r
  | .fin n m e =>
    if m = 0 then
      match fn with
      | .rcp => (packInf f n, fOverflow)
      | .rsq => (packInf f n, fOverflow)
      | .exp2 => encodeFloat f (.fin false 1 0) mode r
      | .log2 => (packInf f true, fOverflow)
      | .tanh => (packFloat f n 0 0, 0)
    else match fn with
      | .rcp => roundFloat f n 1 m (-e) mode r
      | .rsq => if n then (packNan f false, fInvalid) else encodeFloat f (rsqrtNum m e) mode r
      | .exp2 => encodeFloat f (exp2Num n m e) mode r
      | .log2 => if n then (packNan f false, fInvalid) else encodeFloat f (log2Num m e) mode r
      | .tanh => encodeFloat f (tanhNum n m e) mode r

end Sys2Proof.Machine
end

