-- ==== Sys2Proof/Machine/Vector.lean ====
section
/-! DEFINITION. Vector instructions (R204 to R225) and their completion. -/

namespace Sys2Proof.Machine

/-! ### Issue and completion (R206, R207) -/

/-- What a vector instruction comes to: its results, the flags of its lanes in order, the state after its draws
when it rounds with RS, and its unit. -/
structure VOut where
  gd : Option (Nat × Word) := none
  vd : Option (Nat × Vec) := none
  qd : Option (Nat × Mask) := none
  flags : List Nat := []
  lfsr : Option Nat := none
  lat : Nat := 2
  trans : Bool := false
  tables : Bool := false
  canRaise : Bool := false
  deriving DecidableEq, Repr

/-- The rounding mode and the trap enables of the agent at hand (R200). -/
def roundMode (s : State) : Nat := bits (curCtx s).fpctl 2 0
def trapEnables (s : State) : Nat := bits (curCtx s).fpctl 9 4
/-- The stochastic state of the agent at hand. -/
def lfsrOf (s : State) : Nat := bits (curCtx s).lfsr 31 0
/-- The T8 and T4 tables of the agent at hand; a management core has the reset tables. -/
def tablesOf (s : State) : Tab Nat := match s.cur with | .mgmt _ => [] | _ => (curSite s).core.tdec

/-- TRAP_INFO of FP_TRAP: the flags raised, those enabled, and the lowest lane that raised one (R201). -/
def fpInfo (te : Nat) (fl : List Nat) : Nat :=
  let all := fl.foldl (fun a b => a ||| b) 0
  let lane := (((upto fl.length).zip fl).find? fun e => e.2 &&& te != 0).map fun e => e.1
  all + (all &&& te) * 2 ^ 8 + lane.getD 0 * 2 ^ 16

/-- A vector instruction issued: its results go in flight, and RS has taken its values (R206, R207). -/
def vecIssue (o : VOut) (s : State) : Res :=
  let all := o.flags.foldl (fun a b => a ||| b) 0
  let te := trapEnables s
  let p : VPending :=
    { key := curKey s, pc := curPc s, gd := o.gd, vd := o.vd, qd := o.qd, flags := all, traps := all &&& te != 0,
      info := wordN (fpInfo te o.flags), lfsr := o.lfsr.map fun _ => (curCtx s).lfsr, trans := o.trans,
      tables := o.tables, canRaise := o.canRaise, ready := s.time + o.lat }
  let s := match o.lfsr with
    | some v => modCurCtx s fun x => { x with lfsr := wordN v }
    | none => s
  done 4 (match s.cur with
    | .mgmt k => modMgmt s k fun m => { m with vectors := m.vectors ++ [p] }
    | _ => modSite s (curSid s) (onCore fun c => { c with vectors := c.vectors ++ [p] }))

/-- The results of a vector instruction written to a context. -/
def vecResults (x : Ctx) (p : VPending) : Ctx :=
  let x := match p.vd with | some (d, v) => vSet x d v | none => x
  let x := match p.qd with | some (d, v) => qSet x d v | none => x
  { x with fpflags := x.fpflags ||| wordN p.flags }
/-- What FP_TRAP leaves in the context: the flags, and the LFSR as it stood (R201). -/
def vecTrapped (x : Ctx) (p : VPending) : Ctx :=
  { x with fpflags := x.fpflags ||| wordN p.flags, lfsr := p.lfsr.getD x.lfsr }
/-- FP_TRAP of a vector instruction. -/
def vecTrap (p : VPending) : TrapVal := { cause := 0x09, pc := p.pc, info := p.info }

/-- VECTOR_COMPLETION (R206): a vector instruction writes its results, or traps FP_TRAP with none written. -/
def execVectorCompletion (s : State) : Res :=
  let k := argAt s 0
  if argAt s 2 = 1 then
    match (getMgmt s k).vectors[argAt s 1]? with
    | some p =>
      if s.time < p.ready then .next s
      else .next (modMgmt s k fun m =>
        let m := { m with vectors := m.vectors.eraseIdx (argAt s 1) }
        if p.traps then mgmtTrap { m with ctx := vecTrapped m.ctx p } (vecTrap p)
        else
          let x := vecResults m.ctx p
          { m with ctx := match p.gd with | some (d, v) => setResident x d v | none => x })
    | none => .next s
  else
    match (getSite s k).core.vectors[argAt s 1]? with
    | some p =>
      if s.time < p.ready then .next s
      else .next (modSite s k fun x =>
        let c := { x.core with vectors := x.core.vectors.eraseIdx (argAt s 1) }
        if p.traps then recordTrap { x with core := modCtxOf c p.key fun y => vecTrapped y p } p.key (vecTrap p)
        else
          let c := modCtxOf c p.key fun y => vecResults y p
          { x with core := match p.gd with | some (d, v) => deliverG c p.key d v | none => c })
    | none => .next s

/-! ### Lanes (R204, R205) -/

/-- The lanes of a register of width w, the lowest first. -/
def lanes (w : Nat) (v : Vec) : List Nat := (upto (1024 / w)).map fun i => elemAt v.toNat w i
/-- A register of lanes of width w. -/
def ofLanes (w : Nat) (l : List Nat) : Vec := BitVec.ofNat 1024 (packElems w l)
/-- The vector register a of the agent at hand, as lanes of width w. -/
def readLanes (s : State) (w a : Nat) : List Nat := lanes w (vGet (curCtx s) a)
/-- Whether lane i of width w is enabled by a mask. -/
def laneOn (q : Mask) (w i : Nat) : Bool := bitN q.toNat (w / 8 * i)
/-- Lane width of a width code (R209). -/
def codeBits (w : Nat) : Nat := 32 / 2 ^ w
/-- The format of a float lane type. -/
def laneFloat (t : Nat) : FloatFmt := if t = 0 then fp32 else if t = 1 then bf16 else fp16
/-- The greater flag when RS draws values: the state after n draws. -/
def afterDraws (mode n st : Nat) : Option Nat := if mode = 5 then some (lfsrSteps n st) else none
/-- Operands of a lane in the order va, vb, vd. -/
def zip3 (a b d : List Nat) : List (Nat × Nat × Nat) := a.zip (b.zip d)

/-! ### Arithmetic (R211, R212) -/

/-- The float operations of R211. -/
inductive FOp where
  | add | sub | mul | fma
  deriving DecidableEq, Repr

/-- The exact result of a float operation with the flags of its specials. -/
def floatOp (o : FOp) (mode : Nat) (x y z : Num) : Num × Nat :=
  let ops := match o with | .fma => [x, y, z] | _ => [x, y]
  match nanResult ops with
  | some r => r
  | none => match o with
    | .add => addNum x y mode
    | .sub => addNum x y.negate mode
    | .mul => mulNum x y
    | .fma =>
      let p := mulNum x y
      if p.1.isNan then p else addNum p.1 z mode

/-- Float lanes computed and rounded once (R211). -/
def floatLanes (o : FOp) (d a b t lat : Nat) (s : State) : Res :=
  let f := laneFloat t
  let w := f.width
  let md := roundMode s
  let mode := effMode md false
  let rs := (drawsFor md (1024 / w) (lfsrOf s)).1
  let ys := ((zip3 (readLanes s w a) (readLanes s w b) (readLanes s w d)).zip rs).map fun ((x, y, z), r) =>
    let (v, f1) := floatOp o mode (decodeFloat f x) (decodeFloat f y) (decodeFloat f z)
    let (e, f2) := encodeFloat f v mode r
    (e, f1 ||| f2)
  vecIssue { vd := some (d, ofLanes w (ys.map fun y => y.1)), flags := ys.map fun y => y.2,
             lfsr := afterDraws md (1024 / w) (lfsrOf s), lat := lat, canRaise := true } s

/-- Integer lanes computed lane by lane, no flag raised (R212). -/
def intLanes (op : Nat → Nat → Nat) (d a b t lat : Nat) (s : State) : Res :=
  let w := laneBits t
  let ys := ((readLanes s w a).zip (readLanes s w b)).map fun (x, y) => op x y % 2 ^ w
  vecIssue { vd := some (d, ofLanes w ys), lat := lat } s

/-- VADD (R211, R212). -/
def execVadd (d a b t : Nat) (s : State) : Res :=
  issue (.vadd d a b t) s fun s =>
    if isFloatT t then floatLanes .add d a b t 2 s else intLanes (fun x y => x + y) d a b t 2 s

/-- VSUB (R211, R212). -/
def execVsub (d a b t : Nat) (s : State) : Res :=
  issue (.vsub d a b t) s fun s =>
    if isFloatT t then floatLanes .sub d a b t 2 s
    else intLanes (fun x y => x + (2 ^ laneBits t - y)) d a b t 2 s

/-- VMUL (R211, R212). -/
def execVmul (d a b t : Nat) (s : State) : Res :=
  issue (.vmul d a b t) s fun s =>
    if isFloatT t then floatLanes .mul d a b t 4 s else intLanes (fun x y => x * y) d a b t 4 s

/-- VFMA: x · y + z with one rounding (R211). -/
def execVfma (d a b t : Nat) (s : State) : Res :=
  issue (.vfma d a b t) s (floatLanes .fma d a b t 4)

/-- The lesser (max false) or greater of two float encodings, −0 below +0, a NaN made canonical (R211). -/
def floatPick (f : FloatFmt) (max : Bool) (x y : Nat) : Nat × Nat :=
  let a := decodeFloat f x
  let b := decodeFloat f y
  match nanResult [a, b] with
  | some (v, fl) => (packNan f v.neg, fl)
  | none =>
    let less := if numLt a b then true else if numLt b a then false else a.neg
    (if less != max then x else y, 0)

/-- The lesser or greater of two integer lanes of a type (R212). -/
def intPick (t : Nat) (max : Bool) (x y : Nat) : Nat :=
  let w := laneBits t
  let less := if isSignedT t then decide (sext x w < sext y w) else decide (x < y)
  if less != max then x else y

/-- VMIN and VMAX over all lanes. -/
def pickLanes (max : Bool) (d a b t : Nat) (s : State) : Res :=
  if isFloatT t then
    let f := laneFloat t
    let w := f.width
    let ys := ((readLanes s w a).zip (readLanes s w b)).map fun (x, y) => floatPick f max x y
    vecIssue { vd := some (d, ofLanes w (ys.map fun y => y.1)), flags := ys.map fun y => y.2, canRaise := true } s
  else intLanes (intPick t max) d a b t 2 s

/-- VMIN (R211, R212). -/
def execVmin (d a b t : Nat) (s : State) : Res := issue (.vmin d a b t) s (pickLanes false d a b t)
/-- VMAX (R211, R212). -/
def execVmax (d a b t : Nat) (s : State) : Res := issue (.vmax d a b t) s (pickLanes true d a b t)

/-- Lanes of one operand changed without rounding or flags. -/
def mapLanes (w : Nat) (op : Nat → Nat) (d a : Nat) (s : State) : Res :=
  vecIssue { vd := some (d, ofLanes w ((readLanes s w a).map op)) } s

/-- VABS: the sign bit cleared, or the magnitude (R211, R212). -/
def execVabs (d a t : Nat) (s : State) : Res :=
  issue (.vabs d a t) s fun s =>
    let w := laneBits t
    mapLanes w (fun x => if isFloatT t then x % 2 ^ (w - 1) else (sext x w).natAbs % 2 ^ w) d a s

/-- VNEG: the sign bit inverted, or the negative (R211, R212). -/
def execVneg (d a t : Nat) (s : State) : Res :=
  issue (.vneg d a t) s fun s =>
    let w := laneBits t
    mapLanes w (fun x => if isFloatT t then (x + 2 ^ (w - 1)) % 2 ^ w else (2 ^ w - x) % 2 ^ w) d a s

/-- VSHL: integer lanes shifted left (R213). -/
def execVshl (d a b t : Nat) (s : State) : Res :=
  issue (.vshl d a b t) s (intLanes (fun x n => if n < laneBits t then x * 2 ^ n else 0) d a b t 2)

/-- A lane shifted right (R213). -/
def shrLane (t x n : Nat) : Nat :=
  let w := laneBits t
  if isSignedT t then truncI (sext x w / (2 ^ Nat.min n (w - 1) : Nat)) w else if n < w then x / 2 ^ n else 0

/-- VSHR: integer lanes shifted right, arithmetically for signed types (R213). -/
def execVshr (d a b t : Nat) (s : State) : Res :=
  issue (.vshr d a b t) s (intLanes (shrLane t) d a b t 2)

/-! ### Bitwise, compare and select (R214 to R216) -/

/-- A bitwise combination of two registers (R214). -/
def bitwise (op : Vec → Vec → Vec) (d a b : Nat) (s : State) : Res :=
  vecIssue { vd := some (d, op (vGet (curCtx s) a) (vGet (curCtx s) b)) } s

/-- VAND (R214). -/
def execVand (d a b : Nat) (s : State) : Res := issue (.vand d a b) s (bitwise (fun x y => x &&& y) d a b)
/-- VOR (R214). -/
def execVor (d a b : Nat) (s : State) : Res := issue (.vor d a b) s (bitwise (fun x y => x ||| y) d a b)
/-- VXOR (R214). -/
def execVxor (d a b : Nat) (s : State) : Res := issue (.vxor d a b) s (bitwise (fun x y => x ^^^ y) d a b)

/-- The conditions of R215. -/
inductive Cond where
  | eq | lt | le
  deriving DecidableEq, Repr

/-- A lane comparison: its outcome and flags (R215). -/
def cmpLane (c : Cond) (t x y : Nat) : Bool × Nat :=
  if isFloatT t then
    let f := laneFloat t
    let a := decodeFloat f x
    let b := decodeFloat f y
    let nan := a.isNan || b.isNan
    let snan := a.isSnan || b.isSnan
    match c with
    | .eq => (numEq a b, if snan then fInvalid else 0)
    | .lt => (numLt a b, if nan then fInvalid else 0)
    | .le => (numLt a b || numEq a b, if nan then fInvalid else 0)
  else
    let w := laneBits t
    let z (v : Nat) : Int := if isSignedT t then sext v w else (v : Int)
    match c with
    | .eq => (x == y, 0)
    | .lt => (decide (z x < z y), 0)
    | .le => (decide (z x ≤ z y), 0)

/-- VCMP under a condition: every mask bit of lane i is its outcome (R215). -/
def cmpLanes (c : Cond) (d a b t : Nat) (s : State) : Res :=
  let w := laneBits t
  let ys := ((readLanes s w a).zip (readLanes s w b)).map fun (x, y) => cmpLane c t x y
  let m := packElems (w / 8) (ys.map fun y => if y.1 then 2 ^ (w / 8) - 1 else 0)
  vecIssue { qd := some (d, BitVec.ofNat 128 m), flags := ys.map fun y => y.2, canRaise := isFloatT t } s

/-- VCMP eq (R215). -/
def execVcmpEq (d a b t : Nat) (s : State) : Res := issue (.vcmpEq d a b t) s (cmpLanes .eq d a b t)
/-- VCMP lt (R215). -/
def execVcmpLt (d a b t : Nat) (s : State) : Res := issue (.vcmpLt d a b t) s (cmpLanes .lt d a b t)
/-- VCMP le (R215). -/
def execVcmpLe (d a b t : Nat) (s : State) : Res := issue (.vcmpLe d a b t) s (cmpLanes .le d a b t)

/-- VSEL: enabled lanes of va, the others as vd held them (R216). -/
def execVsel (d a b w : Nat) (s : State) : Res :=
  issue (.vsel d a b w) s fun s =>
    let n := codeBits w
    let q := qGet (curCtx s) b
    let ys := ((upto (1024 / n)).zip ((readLanes s n a).zip (readLanes s n d))).map fun (i, x, y) =>
      if laneOn q n i then x else y
    vecIssue { vd := some (d, ofLanes n ys) } s

/-! ### Transcendental functions and reductions (R217 to R219) -/

/-- A function of R217 on every lane. -/
def transLanes (fn : TFun) (d a t : Nat) (s : State) : Res :=
  let f := laneFloat t
  let w := f.width
  let md := roundMode s
  let rs := (drawsFor md (1024 / w) (lfsrOf s)).1
  let ys := ((readLanes s w a).zip rs).map fun (x, r) => transKind fn f (decodeFloat f x) (effMode md false) r
  vecIssue { vd := some (d, ofLanes w (ys.map fun y => y.1)), flags := ys.map fun y => y.2,
             lfsr := afterDraws md (1024 / w) (lfsrOf s), lat := 12, trans := true, canRaise := true } s

/-- VRCP: the reciprocal of each lane (R217). -/
def execVrcp (d a t : Nat) (s : State) : Res := issue (.vrcp d a t) s (transLanes .rcp d a t)

/-- VRSQ: the reciprocal square root of each lane (R217). -/
def execVrsq (d a t : Nat) (s : State) : Res := issue (.vrsq d a t) s (transLanes .rsq d a t)

/-- VEXP2: 2 to the power of each lane (R217). -/
def execVexp2 (d a t : Nat) (s : State) : Res := issue (.vexp2 d a t) s (transLanes .exp2 d a t)

/-- VLOG2: the base-2 logarithm of each lane (R217). -/
def execVlog2 (d a t : Nat) (s : State) : Res := issue (.vlog2 d a t) s (transLanes .log2 d a t)

/-- VTANH: the hyperbolic tangent of each lane (R217). -/
def execVtanh (d a t : Nat) (s : State) : Res := issue (.vtanh d a t) s (transLanes .tanh d a t)

/-- The exact sum of finite values: a signed integer and its exponent. -/
def sumFinite (xs : List Num) : Int × Int :=
  let e0 := xs.foldl (fun m x => match x with | .fin _ _ e => if e < m then e else m | _ => m) 0
  (xs.foldl (fun z x => match x with
    | .fin n m e => let v : Int := (m * 2 ^ (e - e0).toNat : Nat); if n then z - v else z + v
    | _ => z) 0, e0)

/-- The exact sum of values with the specials of R218. -/
def sumNum (xs : List Num) : Num × Nat :=
  match nanResult xs with
  | some r => r
  | none =>
    if xs.contains (.inf false) && xs.contains (.inf true) then (.nan false false, fInvalid)
    else match xs.find? Num.isInf with
      | some x => (x, 0)
      | none =>
        let (z, e) := sumFinite xs
        if z = 0 then (.fin (xs.all fun x => x.isZero && x.neg) 0 0, 0)
        else (.fin (decide (z < 0)) z.natAbs e, 0)

/-- VSUM: all lanes summed exactly and rounded once into FP32, or kept in 64 bits (R218). -/
def execVsum (d a t : Nat) (s : State) : Res :=
  issue (.vsum d a t) s fun s =>
    let w := laneBits t
    let ls := readLanes s w a
    if isFloatT t then
      let md := roundMode s
      let (v, f1) := sumNum (ls.map (decodeFloat (laneFloat t)))
      let (y, f2) := encodeFloat fp32 v (effMode md false) ((drawsFor md 1 (lfsrOf s)).1.headD 0)
      vecIssue { vd := some (d, BitVec.ofNat 1024 y), flags := [f1 ||| f2],
                 lfsr := afterDraws md 1 (lfsrOf s), lat := 6, canRaise := true } s
    else if isSignedT t then
      vecIssue { vd := some (d, BitVec.ofNat 1024 (truncI (ls.foldl (fun z x => z + sext x w) 0) 64)), lat := 6 } s
    else vecIssue { vd := some (d, BitVec.ofNat 1024 (ls.foldl (fun z x => z + x) 0)), lat := 6 } s

/-- VRMAX: the greatest lane in lane 0 (R219). -/
def execVrmax (d a t : Nat) (s : State) : Res :=
  issue (.vrmax d a t) s fun s =>
    let w := laneBits t
    let ls := readLanes s w a
    if isFloatT t then
      let f := laneFloat t
      let (y, fl) := match nanResult (ls.map (decodeFloat f)) with
        | some (v, fl) => (packNan f v.neg, fl)
        | none => (ls.foldl (fun m x => (floatPick f true m x).1) (ls.headD 0), 0)
      vecIssue { vd := some (d, BitVec.ofNat 1024 y), flags := [fl], lat := 6, canRaise := true } s
    else vecIssue { vd := some (d, BitVec.ofNat 1024 (ls.foldl (intPick t true) (ls.headD 0))), lat := 6 } s

/-! ### Moving lanes (R220) -/

/-- VPERM: lane i is the lane that vb names (R220). -/
def execVperm (d a b w : Nat) (s : State) : Res :=
  issue (.vperm d a b w) s fun s =>
    let n := codeBits w
    let src := readLanes s n a
    vecIssue { vd := some (d, ofLanes n ((readLanes s n b).map fun j => src.getD j 0)) } s

/-- VEXT: one lane into a general register, zero-extended (R220). -/
def execVext (d a b w : Nat) (s : State) : Res :=
  issue (.vext d a b w) s fun s =>
    let n := codeBits w
    vecIssue { gd := some (d, wordN ((readLanes s n a).getD (readG s b).toNat 0)), lat := 3 } s

/-- VINS: a general register into one lane (R220). -/
def execVins (d a b w : Nat) (s : State) : Res :=
  issue (.vins d a b w) s fun s =>
    let n := codeBits w
    vecIssue { vd := some (d, ofLanes n ((readLanes s n d).set (readG s b).toNat ((readG s a).toNat % 2 ^ n))) } s

/-- VBCAST: a general register into every lane (R220). -/
def execVbcast (d a w : Nat) (s : State) : Res :=
  issue (.vbcast d a w) s fun s =>
    let n := codeBits w
    vecIssue { vd := some (d, ofLanes n (List.replicate (1024 / n) ((readG s a).toNat % 2 ^ n))) } s

/-! ### Conversion and quantisation (R221 to R225) -/

/-- Elements converted between kinds with capacities cd and cs, part p (R222, R223). -/
-- DESIGN CHOICE: log 175.
def convert (dk sk : Kind) (cd cs d a p : Nat) (tables : Bool) (s : State) : Res :=
  let n := Nat.min cd cs
  let md := roundMode s
  let t := tablesOf s
  let src := (vGet (curCtx s) a).toNat
  let old := (vGet (curCtx s) d).toNat
  let from0 := if cs > n then p * n else 0
  let to0 := if cd > n then p * n else 0
  let rs := (drawsFor md n (lfsrOf s)).1
  let ys := ((upto n).zip rs).map fun (i, r) => convertKind t dk sk (elemAt src sk.width (from0 + i)) md r
  let new := packElems dk.width (ys.map fun y => y.1)
  let lo := dk.width * to0
  let v := if cd > n then old - old / 2 ^ lo % 2 ^ (dk.width * n) * 2 ^ lo + new * 2 ^ lo else new
  vecIssue { vd := some (d, BitVec.ofNat 1024 v), flags := ys.map fun y => y.2,
             lfsr := afterDraws md n (lfsrOf s), lat := 4, tables := tables, canRaise := true } s

/-- VCVT, format form (R222). -/
def execVcvt (d a f sf p : Nat) (s : State) : Res :=
  issue (.vcvt d a f sf p) s
    (convert (kindOfFmt f) (kindOfFmt sf) (capacity f) (capacity sf) d a p (decide (26 ≤ f) || decide (26 ≤ sf)))

/-- VCVT, lane form (R223). -/
def execVcvtLane (d a f sf p : Nat) (s : State) : Res :=
  issue (.vcvtLane d a f sf p) s (convert (kindOfLane f) (kindOfLane sf) (laneCount f) (laneCount sf) d a p false)

/-- VQNT: float lanes quantised into block images at part p (R224). -/
def execVqnt (d a f sf p : Nat) (s : State) : Res :=
  issue (.vqnt d a f sf p) s fun s =>
    let n := blockElems f
    let k := capacity sf / n
    let bytes := k * imageBytes f
    let md := roundMode s
    let xs := (readLanes s (fmtBits sf) a).map (decodeFloat (laneFloat sf))
    let rs := (drawsFor md (capacity sf) (lfsrOf s)).1
    let ys := ((chunksOf n (.fin false 0 0) k xs).zip (chunksOf n 0 k rs)).map fun (b, r) => encodeBlock f b md r
    let new := packElems (8 * imageBytes f) (ys.map fun y => y.1)
    let old := (vGet (curCtx s) d).toNat
    let lo := 8 * (p * bytes)
    vecIssue { vd := some (d, BitVec.ofNat 1024 (old - old / 2 ^ lo % 2 ^ (8 * bytes) * 2 ^ lo + new * 2 ^ lo)),
               flags := (ys.map fun y => y.2).flatten, lfsr := afterDraws md (capacity sf) (lfsrOf s), lat := 6,
               canRaise := true } s

/-- VDQNT: block images at part p decoded into float lanes (R225). -/
def execVdqnt (d a f sf p : Nat) (s : State) : Res :=
  issue (.vdqnt d a f sf p) s fun s =>
    let k := capacity f / blockElems sf
    let z := 8 * imageBytes sf
    let md := roundMode s
    let src := (vGet (curCtx s) a).toNat / 2 ^ (p * k * z)
    let xs := ((upto k).map fun b => decodeBlock sf (src / 2 ^ (z * b) % 2 ^ z)).flatten
    let rs := (drawsFor md (capacity f) (lfsrOf s)).1
    let ys := (xs.zip rs).map fun (x, r) => encodeFloat (laneFloat f) x (effMode md false) r
    vecIssue { vd := some (d, ofLanes (fmtBits f) (ys.map fun y => y.1)), flags := ys.map fun y => y.2,
               lfsr := afterDraws md (capacity f) (lfsrOf s), lat := 4, canRaise := true } s

end Sys2Proof.Machine
end

