-- ==== Sys2Proof/Machine/Reduce.lean ====
section
/-! DEFINITION. Reduction trees: blocks, their fold, RENORM, delivery, and FRED, FBCAST and FRWAIT (R355 to R371). -/

namespace Sys2Proof.Machine

/-! ### Blocks (R357 to R360) -/

/-- One step of shifting: m / 2 rounded to nearest, ties to even (R358). -/
def rne1 (m : Int) : Int := m / 2 + (if m % 2 = 1 ∧ m / 2 % 2 = 1 then 1 else 0)
/-- Whether a mantissa lies outside −2^23 … 2^23 − 1. -/
def outside (m : Int) : Bool := decide (m < -(2 ^ 23 : Nat)) || decide (((2 ^ 23 : Nat) : Int) ≤ m)
def mantTop : Int := ((2 ^ 23 : Nat) : Int) - 1
/-- A block with its exponent one step up. -/
def shiftUp (b : RBlock) : RBlock := { b with e := b.e + 1, m := b.m.map rne1 }
/-- A block shifted up to an exponent, step by step. -/
def shiftTo (e : Nat) : Nat → RBlock → RBlock
  | 0, b => b
  | n + 1, b => if b.e < e then shiftTo e n (shiftUp b) else b
/-- The pairs of a block that have μ set and a mantissa out of range lose μ. -/
def dropMu (b : RBlock) : RBlock :=
  (upto 16).foldl (fun b p =>
    let x := b.m.getD (2 * p) 0
    let y := b.m.getD (2 * p + 1) 0
    if bitN b.mu p && (outside x || outside y) then
      { b with mu := b.mu - 2 ^ p, m := (b.m.set (2 * p) (rne1 x)).set (2 * p + 1) (rne1 y) }
    else b) b
/-- The mantissas brought into range by raising the exponent. -/
def raise : Nat → RBlock → RBlock
  | 0, b => b
  | n + 1, b =>
    if !b.m.any outside then b
    else if b.e = 254 then
      { b with m := b.m.map fun m => if m < -mantTop then -mantTop else if mantTop < m then mantTop else m
               flags := b.flags ||| fSaturate ||| fOverflow }
    else raise n (shiftUp b)
/-- Normalisation (R358). -/
def normalise (b : RBlock) : RBlock := raise 256 (dropMu b)
/-- The NaN block. -/
def nanBlock (b : RBlock) : RBlock := { b with e := 255, mu := 0, m := List.replicate 32 0 }
/-- A pair's mantissas doubled where the other side has μ set and this one has not. -/
def doubled (b : RBlock) (mu : Nat) : List Int :=
  b.m.zipIdx.map fun e => if bitN mu (e.2 / 2) && !bitN b.mu (e.2 / 2) then 2 * e.1 else e.1
/-- One fold step (R360). -/
def combine (acc x : RBlock) : RBlock :=
  let fl := acc.flags ||| x.flags
  let mis := acc.mismatch || x.mismatch
  if acc.e = 255 ∨ x.e = 255 then { nanBlock acc with flags := fl, mismatch := mis }
  else
    let y := shiftTo acc.e 256 x
    let a := shiftTo y.e 256 acc
    let mu := a.mu ||| y.mu
    let m := ((doubled a mu).zip (doubled y mu)).map fun e =>
      if acc.rop = 0 then e.1 + e.2 else if acc.rop = 1 then (if e.1 < e.2 then e.2 else e.1) else if e.2 < e.1 then e.2 else e.1
    normalise { a with m := m, mu := mu, flags := fl, mismatch := mis }

/-- A contribution's block of 32 values (R359). -/
def quantise (xs : List Num) : RBlock :=
  let xs := xs ++ List.replicate (32 - xs.length) (.fin false 0 0)
  if xs.any Num.isNan then
    { nanBlock {} with flags := (nanFlags xs).foldl (fun a b => a ||| b) 0 }
  else
    let E : Int := match blockMax xs with
      | .fin _ m e => if m = 0 then 0 else
          let k := floorLog2 m 1 + e + 128
          if k < 0 then 0 else if k > 254 then 254 else k
      | _ => 254
    let mus := (upto 16).map fun p =>
      b2n (below2 (xs.getD (2 * p) (.fin false 0 0)) (E - 128) && below2 (xs.getD (2 * p + 1) (.fin false 0 0)) (E - 128))
    let els := xs.zipIdx.map fun e =>
      match e.1 with
      | .fin n m ex =>
        let a := fracOf m (ex + 150 + mus.getD (e.2 / 2) 0 - E)
        let (u, inexact) := roundMag n a.1 a.2 0 0
        ((if n then -(u : Int) else u), if u = 0 ∧ m ≠ 0 then fUnderflow + fInexact else if inexact then fInexact else 0)
      | x => ((if x.neg then -mantTop else mantTop), fOverflow + fSaturate)
    normalise { e := E.toNat, mu := packElems 1 mus, m := els.map fun y => y.1, flags := els.foldl (fun a y => a ||| y.2) 0 }
/-- The exact values of a block (R357). -/
def blockVals (b : RBlock) : List Num :=
  if b.e = 255 then List.replicate 32 (.nan false false)
  else b.m.zipIdx.map fun y => .fin (decide (y.1 < 0)) y.1.natAbs ((b.e : Int) - 150 - b2n (bitN b.mu (y.2 / 2)))

/-! ### Tree packets (R362) -/

/-- A block as 96 payload bytes. -/
def blockFlits (b : RBlock) : List Flit := natFlits (packElems 24 (b.m.map fun m => truncI m 24)) 3
/-- A packet of a block: RED, or BCAST in block form. -/
def blockPkt (sid name park tree kind : Nat) (b : RBlock) : Packet :=
  let len := if kind = kRED ∧ b.nblk = 0 then 0 else 3
  { dest := name, src := name, kind := kind, vc := 3, park := park, fmt := b.fmt, len := len
    payload := (blockFlits b).take len, origin := sid, cargo := { absent := b2n b.absent }
    ks := tree + b.rop * 2 ^ 3 + b.e * 2 ^ 5 + b.epoch * 2 ^ 13 + (if kind = kRED then b2n b.all * 2 ^ 21 else 0)
    arg0 := wordN (b.mu + b.blk * 2 ^ 16 + b.nblk * 2 ^ 32), arg1 := wordN (b.flags + b2n b.mismatch * 2 ^ 6) }
def pktTree (p : Packet) : Nat := bitsN p.ks 2 0
def pktEpoch (p : Packet) : Nat := bitsN p.ks 20 13
/-- The block a packet carries. -/
def pktBlock (p : Packet) : RBlock :=
  let v := flitsNat p.payload
  { e := bitsN p.ks 12 5, mu := bits p.arg0 15 0, m := (upto 32).map fun i => sext (elemAt v 24 i) 24
    flags := bits p.arg1 5 0, mismatch := bit p.arg1 6, absent := p.cargo.absent == 1
    blk := bits p.arg0 31 16, nblk := bits p.arg0 47 32, epoch := pktEpoch p, fmt := p.fmt
    rop := bitsN p.ks 4 3, all := bitN p.ks 21 }

/-! ### Nodes (R355) -/

/-- A router's part of a tree as it is written: PARENT, children and LOCAL. -/
def treeCfg (x : Site) (tree : Nat) : Nat := (tget 7 x.router.rtree tree).toNat % 512
def treeParent (x : Site) (tree : Nat) : Nat := bitsN (treeCfg x tree) 2 0
def treeLocal (x : Site) (tree : Nat) : Bool := bitN (treeCfg x tree) 8
def nodeOf (x : Site) (tree : Nat) : TreeNode := tget {} x.router.trees tree
def modNode (s : State) (sid tree : Nat) (f : TreeNode → TreeNode) : State :=
  modSite s sid (onRouter fun r => { r with trees := tmod {} r.trees tree f })
/-- The inputs of a node in fold order: 0 local, 1 north, 2 east, 3 south, 4 west, 5 edge (R360). -/
def nodeInputs (x : Site) (tree : Nat) : List Nat :=
  (if treeLocal x tree then [0] else []) ++ ((upto 5).filter fun k => bitN (treeCfg x tree) (3 + k)).map fun k => k + 1
/-- The ports of a node's children: 0 to 3 mesh, 5 edge. -/
def childPorts (x : Site) (tree : Nat) : List Nat :=
  (nodeInputs x tree).filterMap fun i => if i = 0 then none else some (if i = 5 then 5 else i - 1)
/-- The port of a node's parent. -/
def parentPort (x : Site) (tree : Nat) : Option Nat :=
  let p := treeParent x tree
  if 1 ≤ p ∧ p ≤ 4 then some (p - 1) else if p = 5 then some 5 else none
/-- A tree packet put on a link of the tree; one that has no link is discarded and counted. -/
def putTree (s : State) (sid port : Nat) (p : Packet) : State :=
  if port = 5 then (if (bridgeAt sid).isSome then toBridge s sid p else countGuard s sid)
  else if linkUp (getSite s sid) port then putLink s sid port p
  else countGuard s sid
/-- The name a node's packets bear: its core's, or 0 at a transit router (R362). -/
def treeName (x : Site) (tree : Nat) : Nat := if treeLocal x tree then coreName x else 0
/-- RTREE_DATA.BUSY (R355): a reduction or a broadcast is in progress at the router, or held there for a core being switched. -/
def treeBusy (x : Site) (tree : Nat) : Bool :=
  let nd := nodeOf x tree
  nd.head.isSome || nd.ins.any (fun e => e.2 != []) || nd.waits != 0 || nd.raw ||
    (x.core.redOps.any fun r => r.tree == tree && r.bcast && !r.sentAll) ||
    (treeLocal x tree && evicted x && x.router.inq.any fun e => e.2.2.kind == kBCAST && pktTree e.2.2 == tree)

/-! ### Delivery (R364, R370) -/

/-- The status word of an operation (R370). -/
-- DEDUCED: log 56.
-- DEDUCED: log 95.
def redStatus (r : RedOp) : Nat :=
  r.flags + b2n r.mismatch * 2 ^ 6 + b2n r.access * 2 ^ 7 + b2n r.cntref * 2 ^ 8
/-- Whether the core's part of an operation has ended. -/
def redEnded (r : RedOp) : Bool := r.sentAll && (!r.receives || r.delivered)
/-- The ticket of an operation. -/
def redTicket (r : RedOp) : Nat := r.tree + r.count % 256 * 2 ^ 3
/-- FRWAIT's result given to a context, with its flags. -/
def giveStatus (c : Core) (key d st : Nat) : Core := endWait (deliverFlags (deliverG c key d (wordN st)) key (st % 64)) key true
/-- Only the last four statuses of a tree are kept. -/
-- DEDUCED: log 95.
def trimOps (l : List RedOp) (tree : Nat) : List RedOp :=
  let old := ((l.filter fun r => r.tree == tree && redEnded r).map fun r => r.count).reverse.drop 4
  l.filter fun r => !(r.tree == tree && redEnded r && old.contains r.count)
/-- An operation changed; where it has ended, the strands that wait for it go on. -/
def setRedOp (c : Core) (r : RedOp) : Core :=
  let c := { c with redOps := c.redOps.map fun q => if q.tree == r.tree && q.count == r.count then r else q }
  if !redEnded r then c
  else
    let c := { c with redOps := trimOps c.redOps r.tree }
    (c.strands.filterMap fun st => match st.2.wait with
      | .reduction t d => if t = redTicket r then some (st.1, d) else none
      | _ => none).foldl (fun c e => giveStatus c e.1 e.2 (redStatus r)) c
/-- The words that such a write of n bytes covers in part and that are uncorrectable: counted (R169). -/
def routerBads (x : Site) (a n : Nat) : List Nat :=
  (linePieces a n).flatMap fun e =>
    if decide (e.1 < 0x200000) && eValid (pmapAt x.core (e.1 / 4096)) then partialBads x.core e.1 e.2 else []
/-- Whether the router may write a page: VALID with W, and a pool page only while the group that it writes for, by its number and
identity, still holds it (R364, R371). -/
-- DEDUCED: log 183.
def routerMay (x : Site) (own : Option (Nat × Nat)) (v : Nat) : Bool :=
  let e := pmapAt x.core v
  eValid e && eW e && (match own with
    | some (g, uid) => !ePool x e || (eOwner e == g && (groupOf x.core g).any fun gr => gr.uid == uid)
    | none => true)
/-- Bytes written at local addresses in the router class, line by line where the page may be written and holds no firmware
entry there (R31); whether all were. -/
-- DEDUCED: log 183.
def routerWrite (x : Site) (a n v : Nat) (own : Option (Nat × Nat) := none) : Core × Bool :=
  (linePieces a n).foldl (fun r e =>
    if decide (e.1 < 0x200000) && routerMay x own (e.1 / 4096) && !inFirmwareEntries x e.1 e.2 then
      (writeLocal (notePartial r.1 (physOf r.1 e.1) e.2) e.1 e.2 (v / 256 ^ (e.1 - a) % 256 ^ e.2), r.2)
    else (r.1, false)) (x.core, true)
/-- The counter of a delivery decremented (R448): the site and whether it was refused. -/
def redCount (x : Site) (k : Nat) : Site × Bool := if k = 0 then (x, false) else localDecrement x k
/-- A block of the result delivered to the oldest operation of the core that awaits one. -/
def deliverBlock (x : Site) (tree : Nat) (b : RBlock) : Site :=
  match x.core.redOps.find? fun r => r.tree == tree && r.receives && !r.delivered with
  | none => x
  | some r =>
    let n := min 32 (r.elems - 32 * b.blk)
    let y := encodeRun (x.core.tdec) r.df ((blockVals b).take n) 0 (List.replicate 32 0)
    let a := r.dst + runBytes r.df 32 * b.blk
    let w := if n = 0 then (x.core, true) else routerWrite x a (runBytes r.df n) y.1 (some (r.grp, r.uid))
    let r := { r with flags := r.flags ||| b.flags ||| (if n = 0 then 0 else y.2), mismatch := r.mismatch || b.mismatch
                      access := r.access || !w.2 }
    let x := { countUes x (if n = 0 then [] else routerBads x a (runBytes r.df n)) 1 with core := w.1 }
    if b.blk + 1 < max 1 b.nblk then onCore (fun c => setRedOp c r) x
    else
      let z := redCount x r.cnt
      onCore (fun c => setRedOp c { r with delivered := true, cntref := z.2 }) z.1

/-! ### The fold (R360 to R364) -/

/-- Whether two inputs may be combined (R363). -/
def sameRed (a b : RBlock) : Bool :=
  a.epoch == b.epoch && a.fmt == b.fmt && a.rop == b.rop && a.all == b.all && a.nblk == b.nblk
/-- Whether a RED packet of a tree is on its way into a router by a port. -/
def redComing (x : Site) (tree port : Nat) : Bool :=
  x.router.inq.any fun e => e.1 == port && e.2.2.kind == kRED && pktTree e.2.2 == tree
/-- RENORM sent to the children whose inputs come later and have not been sent (R361). -/
def sendRenorm (s : State) (sid tree after : Nat) (h : RBlock) (blk e : Nat) : State :=
  let x := getSite s sid
  let nd := nodeOf x tree
  let later := (nodeInputs x tree).filter fun i => decide (after < i) && (tget [] nd.ins i).isEmpty && !nd.mism.contains i
  later.foldl (fun s i =>
    let port := if i = 5 then 5 else i - 1
    if redComing x tree port then s
    else putTree s sid port { dest := treeName x tree, src := treeName x tree, kind := kRENORM, vc := 3, park := localPark x,
                              ks := tree + e * 2 ^ 5 + h.epoch * 2 ^ 13, arg0 := wordN (blk * 2 ^ 16), origin := sid }) s
/-- A packet passed to every child of a node. -/
def toChildren (s : State) (sid tree : Nat) (p : Packet) : State :=
  (childPorts (getSite s sid) tree).foldl (fun s port => putTree s sid port p) s
/-- A block finished at a node: sent to the parent with the shifts RENORM asks for, or the result at the root. -/
def emitBlock (s : State) (sid tree : Nat) (b : RBlock) : State :=
  let x := getSite s sid
  match parentPort x tree with
  | some port =>
    let nd := nodeOf x tree
    let e := (nd.renorm.filter fun r => r.1 == b.epoch && r.2.1 == b.blk).foldl (fun m r => max m r.2.2) 0
    let b := if b.e = 255 ∨ b.absent then b else shiftTo e 256 b
    let s := modNode s sid tree fun nd => { nd with renorm := nd.renorm.filter fun r => !(r.1 == b.epoch && r.2.1 == b.blk) }
    putTree s sid port (blockPkt sid (treeName x tree) (localPark x) tree kRED b)
  | none =>
    let s := if b.all then toChildren s sid tree (blockPkt sid (treeName x tree) (localPark x) tree kBCAST b) else s
    if treeLocal x tree && x.life == .live && !x.dead then modSite s sid fun x => deliverBlock x tree b else s

/-- The node with its block finished: on to the next one, or the reduction has passed. -/
def nextBlock (nd : TreeNode) (h : RBlock) (root : Bool) : TreeNode :=
  if nd.blk + 1 < max 1 h.nblk then { nd with blk := nd.blk + 1, pos := 0, acc := none }
  else { nd with head := none, blk := 0, pos := 0, acc := none, mism := [], sentOps := (h.epoch :: nd.sentOps).take 8
                 waits := nd.waits + (if root || !h.all then 0 else 1) }
/-- What a node tells its parent once none of its inputs supplies anything any more (R363). -/
-- DESIGN CHOICE: log 158.
def mutePkt (x : Site) (tree : Nat) : Packet :=
  { dest := treeName x tree, src := treeName x tree, kind := kRED, vc := 3, park := localPark x, origin := x.id, ks := tree
    arg1 := wordN (2 ^ 6), cargo := { absent := 2 } }
/-- The block of a node none of whose inputs is present: nothing is stated of what it holds (R363). -/
-- DESIGN CHOICE: log 158.
def absentOf (sid : Nat) (h : RBlock) (blk : Nat) : RBlock :=
  let v := Config.absentBlock sid h.epoch blk
  { h with absent := true, flags := 0, e := v % 2 ^ 8, mu := v / 2 ^ 8 % 2 ^ 16, m := (upto 32).map fun i => sext (elemAt (v / 2 ^ 24) 24 i) 24 }
/-- An input's block taken out of its queue. -/
-- DESIGN CHOICE: log 96.
def takeIn (nd : TreeNode) (i : Nat) : TreeNode := { nd with ins := tset nd.ins i (tget [] nd.ins i).tail }

/-- One step of a node, none where it has to wait. -/
-- DESIGN CHOICE: log 96.
def treeStep (s : State) (sid tree : Nat) : Option State :=
  let x := getSite s sid
  let nd := nodeOf x tree
  let ins := nodeInputs x tree
  let root := treeParent x tree == 0
  let put (nd : TreeNode) : State := modNode s sid tree fun _ => nd
  let gone (i : Nat) : Bool := ((i == 0 && x.dead) || nd.mute.contains i) && (tget [] nd.ins i).isEmpty
  match ins.find? fun i => decide (0 < tget 0 nd.owe i) && !(tget [] nd.ins i).isEmpty with
  | some i => some (put { takeIn nd i with owe := tset nd.owe i (tget 0 nd.owe i - 1) })
  | none =>
    if treeParent x tree = 7 || (root && treeLocal x tree && (evicted x || landsOnCounter x.core)) then none
    else match nd.head with
    | none =>
      match ins.filter fun i => !gone i with
      | [] => match parentPort x tree with
        | some port => if nd.muted || ins == [] then none else some (putTree (put { nd with muted := true }) sid port (mutePkt x tree))
        | none => none
      | i :: _ =>
        match tget 0 nd.owe i, tget [] nd.ins i with
        | 0, b :: _ => some (put { nd with head := some b, blk := 0, pos := 0, acc := none, mism := [] })
        | _, _ => none
    | some h =>
      match ins.filter fun i => decide (nd.pos ≤ i) with
      | [] =>
        let b := match nd.acc with | some b => b | none => absentOf sid h nd.blk
        let b := { b with blk := nd.blk, nblk := h.nblk, epoch := h.epoch, fmt := h.fmt, rop := h.rop, all := h.all
                          mismatch := b.mismatch || nd.mism != [] }
        some (modNode (emitBlock s sid tree b) sid tree fun nd => nextBlock nd h root)
      | i :: _ =>
        if nd.mism.contains i then some (put { nd with pos := i + 1 })
        else if gone i then some (put { nd with pos := i + 1, mism := i :: nd.mism })
        else match tget 0 nd.owe i, tget [] nd.ins i with
          | 0, b :: _ =>
            if !sameRed h b then
              some (put { nd with pos := i + 1, mism := i :: nd.mism, owe := tset nd.owe i (max 1 b.nblk) })
            else if b.absent then
              some (put { takeIn nd i with pos := i + 1, acc := nd.acc.map fun a => { a with mismatch := true }
                                           mism := if nd.acc.isNone then 6 :: nd.mism else nd.mism })
            else match nd.acc with
              | none => some (put { takeIn nd i with pos := i + 1, acc := some b })
              | some a =>
                let c := combine a b
                let s := put { takeIn nd i with pos := i + 1, acc := some c }
                some (if a.e < c.e then sendRenorm s sid tree i h nd.blk c.e else s)
          | _, _ => none
/-- A node taken as far as it can go. -/
def treeRun : Nat → State → Nat → Nat → State
  | 0, s, _, _ => s
  | n + 1, s, sid, tree =>
    match treeStep s sid tree with
    | some s => treeRun n s sid tree
    | none => s
/-- The steps a node may have to take: a few per block and input. -/
def treeGo (s : State) (sid tree : Nat) : State :=
  let nd := nodeOf (getSite s sid) tree
  treeRun (16 * (1 + nd.ins.foldl (fun k e => k + e.2.length) 0)) s sid tree
/-- A block received at a node by an input. -/
def treeInput (s : State) (sid tree i : Nat) (b : RBlock) : State :=
  treeGo (modNode s sid tree fun nd => { nd with ins := tmod [] nd.ins i fun l => l ++ [b] }) sid tree

/-- The packet of a kind at a place of a router's input, past its guard. -/
def treeArrival (s : State) (kind : Nat) (body : State → Nat → Nat → Packet → State) : Res :=
  let sid := argAt s 0
  match inputAt s sid (argAt s 1) with
  | none => .next s
  | some (port, p) =>
    if p.kind ≠ kind then .next s
    else
      let (s, ok) := admitInput (takeInput s sid (argAt s 1)) sid port p
      .next (if ok then body s sid port p else s)
/-- RED_BLOCK_ARRIVAL (R355, R360): a block from a child. -/
def execRedBlockArrival (s : State) : Res :=
  treeArrival s kRED fun s sid port p =>
    if (childPorts (getSite s sid) (pktTree p)).contains port then
      if p.cargo.absent = 2 then
        treeGo (modNode s sid (pktTree p) fun nd => { nd with mute := (if port = 5 then 5 else port + 1) :: nd.mute }) sid (pktTree p)
      else treeInput s sid (pktTree p) (if port = 5 then 5 else port + 1) (pktBlock p)
    else countGuard s sid
/-- Whether a node has sent a block already. -/
def hasSent (nd : TreeNode) (epoch blk : Nat) : Bool :=
  match nd.head with
  | some h => if h.epoch = epoch then decide (blk < nd.blk) else nd.sentOps.contains epoch
  | none => nd.sentOps.contains epoch
/-- RENORM_ARRIVAL (R361): the exponent is recorded for a block not yet sent. -/
def execRenormArrival (s : State) : Res :=
  treeArrival s kRENORM fun s sid port p =>
    let tree := pktTree p
    if parentPort (getSite s sid) tree ≠ some port then countGuard s sid
    else modNode s sid tree fun nd =>
      if hasSent nd (pktEpoch p) (bits p.arg0 31 16) then nd
      else { nd with renorm := nd.renorm ++ [(pktEpoch p, bits p.arg0 31 16, bitsN p.ks 12 5)] }

/-- The bytes of a raw broadcast packet written at a member, and after the last one its counter decremented (R369). -/
-- DEDUCED: log 56.
def deliverRaw (x : Site) (p : Packet) : Site :=
  let n := p.cargo.bytes
  let a := bits p.arg0 20 0
  let x := if n = 0 then x else { countUes x (routerBads x a n) 1 with core := (routerWrite x a n (flitsNat p.payload)).1 }
  if p.cargo.last then (redCount x (bits p.arg0 46 41)).1 else x
/-- A broadcast at a member: written there. -/
def deliverBcast (x : Site) (p : Packet) : Site :=
  if !treeLocal x (pktTree p) || x.life != .live || x.dead then x
  else if bitN p.ks 21 then deliverRaw x p else deliverBlock x (pktTree p) (pktBlock p)
/-- BCAST_ARRIVAL (R364, R369): a broadcast goes on to the children and is delivered; it waits for a core that is being
switched (R406), or that deposits a packet to a counter (R40). -/
def execBcastArrival (s : State) : Res :=
  let sid := argAt s 0
  let x := getSite s sid
  match inputAt s sid (argAt s 1) with
  | some (_, p) =>
    if treeLocal x (pktTree p) && (evicted x || landsOnCounter x.core) then .next s
    else treeArrival s kBCAST fun s sid port p =>
      let tree := pktTree p
      if parentPort (getSite s sid) tree ≠ some port then countGuard s sid
      else
        let s := toChildren s sid tree p
        let last := decide (max 1 (bits p.arg0 47 32) ≤ bits p.arg0 31 16 + 1)
        let s := modNode s sid tree fun nd =>
          if bitN p.ks 21 then { nd with raw := !p.cargo.last } else { nd with waits := nd.waits - b2n last }
        modSite s sid fun x => deliverBcast x p
  | none => .next s

/-! ### The contribution (R359, R369) -/

/-- The source bytes of an engine that reads in the copy-engine class: a line that is not mapped or is uncorrectable
yields data the manual does not fix. -/
-- DESIGN CHOICE: log 72.
def engineRead (x : Site) (time a n : Nat) : Site × Nat :=
  (linePieces a n).foldl (fun r e =>
    let c := r.1.core
    let open' := 256 ^ (e.1 - a) * (Config.badData time e.1 % 256 ^ e.2)
    if !eValid (pmapAt c (e.1 / 4096)) then (r.1, r.2 + open')
    else
      let x := onCore (fun c => noteRead c (physOf c e.1) e.2) r.1
      match badLocal c e.1 e.2 with
      | some _ => (countUes x (badWords c.bad [(physOf c e.1, e.2)]) 3, r.2 + open')
      | none => (x, r.2 + 256 ^ (e.1 - a) * readLocal c e.1 e.2)) (x, 0)
/-- Whether the local writes that come before an engine's reads have performed (R266). -/
def writesDone (c : Core) (key stream before : Nat) : Bool :=
  !(c.accesses.any fun a => a.key == key && a.stream == stream && a.wr && decide (a.id < before))
/-- The next block of a contribution fed to its node. -/
-- DESIGN CHOICE: log 72.
-- DEDUCED: log 97.
def feedBlock (s : State) (sid : Nat) (r : RedOp) : State :=
  let b := r.sent
  let n := min 32 (r.elems - 32 * b)
  let (x, v) := engineRead (getSite s sid) s.time (r.src + runBytes r.sf 32 * b) (runBytes r.sf n)
  let (xs, fl) := decodeRun x.core.tdec r.sf n v
  let nblk := ceilDiv r.elems 32
  let q := quantise xs
  let q := { q with flags := q.flags ||| fl, blk := b, nblk := nblk, epoch := r.count % 256, fmt := r.sf, rop := r.rop
                    all := r.all }
  let r := { r with sent := b + 1, sentAll := decide (nblk ≤ b + 1), flags := if r.receives then r.flags else r.flags ||| q.flags }
  treeInput (setSite s sid (onCore (fun c => setRedOp c r) x)) sid r.tree 0 q
/-- The next packet of a broadcast sent down. -/
def feedBcast (s : State) (sid : Nat) (r : RedOp) : State :=
  let n := min (32 * max 1 (msgMax (getSite s sid))) (r.elems - r.sent)
  let (x, v) := engineRead (getSite s sid) s.time (r.src + r.sent) n
  let len := ceilDiv n 32
  let last := decide (r.elems ≤ r.sent + n)
  let p : Packet :=
    { dest := treeName x r.tree, src := treeName x r.tree, kind := kBCAST, vc := 3, park := localPark x, len := len
      payload := natFlits v len, origin := sid, ks := r.tree + r.count % 256 * 2 ^ 13 + 2 ^ 21
      arg0 := wordN ((r.dst + r.sent) % 2 ^ 21 + r.cnt * 2 ^ 41)
      cargo := { bytes := n, last := last } }
  toChildren (setSite s sid (onCore (fun c => setRedOp c { r with sent := r.sent + n, sentAll := last }) x)) sid r.tree p
/-- The operation of a tree that sends next. -/
-- DEDUCED: log 97.
def nextContribution (x : Site) (tree : Nat) : Option RedOp :=
  match x.core.redOps.find? fun r => r.tree == tree && !r.sentAll with
  | some r => if x.life == .live && !x.dead && !evicted x && writesDone x.core r.key r.stream r.startAcc then some r else none
  | none => none
/-- LOCAL_CONTRIBUTION_BLOCK (R369): the next block of the core's own is sent (0), or a node that had to wait for its core goes
on (1). -/
def execLocalContributionBlock (s : State) : Res :=
  let sid := argAt s 0
  if argAt s 2 = 1 then .next (treeGo s sid (argAt s 1))
  else match nextContribution (getSite s sid) (argAt s 1) with
  | some r => .next (if r.bcast then feedBcast s sid r else feedBlock s sid r)
  | none => .next s

/-! ### FRED, FBCAST, FRWAIT (R368 to R370) -/

/-- Whether a code is a 32-bit or block format, or a 16-bit one (R264). -/
def runAlign (f : Nat) : Nat := if isBlock f || fmtBits f == 32 then 4 else if fmtBits f == 16 then 2 else 1
/-- COPY_FAULT at issue (R277). -/
def copyTrap (sub addr : Nat) (s : State) : Res := trapHere s 0x0B (sub + addr % 2 ^ 32 * 2 ^ 32)
/-- A run checked by R163. -/
def runFault (s : State) (a n al stream : Nat) (wr : Bool) : Option TrapVal :=
  (checkHere s a n al (!wr) wr).map fun f => accTrap f wr stream 0 a (curPc s)

/-- The operation a descriptor describes. -/
def redOpOf (v tree stream : Nat) (bcast : Bool) (s : State) : RedOp :=
  let c := (curSite s).core
  { tree := tree, count := 0, key := curKey s, grp := actGrp s, uid := (actGroupVal s).uid, bcast := bcast, src := bitsN v 20 0
    sf := bitsN v 25 21, df := bitsN v 30 26, rop := bitsN v 35 34, all := bitN v 36, dst := bitsN v 84 64
    elems := bitsN v 104 85, cnt := bitsN v 110 105, stream := stream, startAcc := c.accIds
    receives := !bcast && (treeParent (curSite s) tree == 0 || bitN v 36) }
/-- The checks on an operation's runs. -/
def redRuns (r : RedOp) (s : State) : Option TrapVal :=
  let al := max (runAlign r.sf) (runAlign r.df)
  let n := if r.bcast then r.elems else runBytes r.sf r.elems
  match runFault s r.src n al r.stream false with
  | some v => some v
  | none =>
    if r.receives then runFault s r.dst (runBytes r.df r.elems) al r.stream true
    else if r.dst % al ≠ 0 then some (accTrap .misaligned true r.stream 0 r.dst (curPc s))
    else none
/-- Whether a tree can take another operation of the core (R368). -/
def treeFree (c : Core) (tree : Nat) : Bool := decide ((c.redOps.filter fun q => q.tree == tree && !redEnded q).length < 4)
/-- An operation started: its epoch taken and its ticket written. -/
def beginRed (c : Core) (r : RedOp) (key d : Nat) : Core :=
  let r := { r with count := tget 0 c.epochs r.tree + 1 }
  deliverG { c with redOps := c.redOps ++ [r], epochs := tset c.epochs r.tree r.count } key d (wordN (redTicket r))
/-- An operation that has waited for its tree is started, and its strand goes on (R368). -/
-- DEDUCED: log 21.
def resumeRed (c : Core) (key : Nat) : Core :=
  match (strandOf c key).wait, (strandOf c key).redJob with
  | .treeSlot tree d, some r =>
    if treeFree c tree then endWait (modStrand (beginRed c r key d) key fun st => { st with redJob := none }) key true else c
  | _, _ => c
/-- FRED or FBCAST with its descriptor read. -/
def startRed (bcast : Bool) (d ea stream v : Nat) (s : State) : Res :=
  let x := curSite s
  let tree := bitsN v 33 31
  let bad := bitsN v 63 37 != 0 || bitsN v 127 111 != 0 || decide (28 ≤ bitsN v 25 21) || decide (28 ≤ bitsN v 30 26) ||
    bitsN v 35 34 == 3 || (bcast && (bitsN v 30 21 != 0 || bitsN v 36 34 != 0))
  if bad then copyTrap 13 ea s
  else if treeParent x tree = 7 ∨ !treeLocal x tree ∨ (bcast ∧ treeParent x tree ≠ 0) then copyTrap 12 0 s
  else
    let r := redOpOf v tree stream bcast s
    match redRuns r s with
    | some t => .next (takeTrap s t)
    | none =>
      let key := curKey s
      if treeFree x.core tree then done 4 (onCur (fun c => beginRed c r key d) s)
      else .next (onCur (fun c => modStrand (setWait c key (.treeSlot tree d) 4) key fun st => { st with redJob := some r }) s)
/-- FRED or FBCAST: the descriptor is read at issue as one access (R368). -/
def reduction (bcast : Bool) (d a stream : Nat) (s : State) : Res :=
  let ea := (readG s a).toNat
  match runFault s ea 16 16 stream false with
  | some t => .next (takeTrap s t)
  | none => match issueRead s ea 16 stream with
    | (s, .error t) => .next (takeTrap s t)
    | (s, .ok v) => startRed bcast d ea stream v s
/-- FRED (R369). -/
def execFred (d a st : Nat) (s : State) : Res := issue (.fred d a st) s (reduction false d a st)
/-- FBCAST (R369). -/
def execFbcast (d a st : Nat) (s : State) : Res := issue (.fbcast d a st) s (reduction true d a st)
/-- FRWAIT: waits for the core's part of an operation and writes its status (R370). -/
def execFrwait (d a : Nat) (s : State) : Res :=
  issue (.frwait d a) s fun s =>
    let t := (readG s a).toNat
    let c := (curSite s).core
    let n := tget 0 c.epochs (t % 8)
    let back := (n + 256 - bitsN t 10 3) % 256
    if n ≤ back then copyTrap 15 0 s
    else match c.redOps.find? fun r => r.tree == t % 8 && r.count == n - back with
      | none => done 4 (writeG s d (wordN (2 ^ 9)))
      | some r =>
        if redEnded r then
          let s := writeG s d (wordN (redStatus r))
          done 4 (modCurCtx s fun x => { x with fpflags := x.fpflags ||| wordN (redStatus r % 64) })
        else .next (onCur (fun c => setWait c (curKey s) (.reduction (redTicket r) d) 4) s)

end Sys2Proof.Machine
end

