-- ==== Sys2Proof/Machine/Tensor.lean ====
section
/-! DEFINITION. The tensor engine: slots, its queue, chunk sums, drains and steered drains (R202, R203, R226 to
R256). -/

namespace Sys2Proof.Machine

/-! ### Chunk sums (R202, R203) -/

/-- The sign of a NaN that comes from NaNs of these signs (R182); where they differ it is free. -/
-- DESIGN CHOICE: log 154.
def nanSign (l : List Bool) : Bool := if l.all id then !l.isEmpty else if l.any id then Config.mixedNan l else false
/-- An exact product, and whether it is 0 × ∞. A NaN keeps the sign of the operand it came from (R182). -/
def prodNum (x y : Num) : Num × Bool :=
  if x.isNan || y.isNan then (.nan (nanSign (([x, y].filter Num.isNan).map Num.neg)) false, false)
  else match mulNum x y with
    | (.nan _ _, _) => (.nan false false, true)
    | (p, _) => (p, false)
/-- The canonical NaN of FP32. -/
def qnan32 : Nat := 0x7FC00000
/-- What terms with a NaN or an infinity make of an accumulator (R203). A NaN keeps the sign of the NaN it came from; one
that the sum creates from infinities has a clear sign (R182). -/
-- DEDUCED: log 31.
def specialSum (ts : List Num) (inv : Bool) : Option (Nat × Nat) :=
  let pos := ts.contains (.inf false)
  let neg := ts.contains (.inf true)
  let clash := pos && neg
  let nans := (ts.filter Num.isNan).map Num.neg ++ (if clash then [false] else [])
  if nans ≠ [] then some (packNan fp32 (nanSign nans), if inv || clash then fInvalid else 0)
  else if pos then some (0x7F800000, 0)
  else if neg then some (0xFF800000, 0)
  else none
/-- An exact finite sum rounded into FP32; an exact zero is −0 only where every term is. -/
def roundSum (z e : Int) (ts : List Num) : Nat × Nat :=
  if z = 0 then (if ts.all fun t => t.isZero && t.neg then 0x80000000 else 0, 0)
  else encodeFloat fp32 (.fin (decide (z < 0)) z.natAbs e) 0 0
/-- A chunk of blocks or integers added to an FP32 accumulator (R202). -/
def chunkExact (acc : Nat) (ps : List (Num × Bool)) : Nat × Nat :=
  let ts := decodeFloat fp32 acc :: ps.map fun p => p.1
  match specialSum ts (ps.any fun p => p.2) with
  | some r => r
  | none => let (z, e) := sumFinite ts; roundSum z e ts
/-- A chunk of integers added to an INT32 accumulator (R202). -/
def chunkInt (acc : Nat) (ps : List (Num × Bool)) : Nat × Nat :=
  let (z, e) := sumFinite (numOfInt (sext acc 32) :: ps.map fun p => p.1)
  let v : Int := z * (2 ^ e.toNat : Nat) / (2 ^ (-e).toNat : Nat)
  let top : Int := ((2 ^ 31 : Nat) : Int) - 1
  if top < v then (truncI top 32, fSaturate)
  else if v < -top - 1 then (truncI (-top - 1) 32, fSaturate)
  else (truncI v 32, 0)
/-- A finite term truncated toward zero to a multiple of 2^u, and whether a bit is lost. -/
def truncTerm (u : Int) : Num → Num × Bool
  | .fin n m e =>
    if u ≤ e then (.fin n m e, false)
    else
      let k := 2 ^ (u - e).toNat
      (.fin n (m / k) u, m % k != 0)
  | x => (x, false)
/-- The greatest floor(log2 |t|) of the non-zero finite terms. -/
def topExp (ts : List Num) : Option Int :=
  ts.foldl (fun b t => match t with
    | .fin _ m e => if m = 0 then b else
        let k := floorLog2 m 1 + e
        match b with | some x => if x < k then some k else b | none => some k
    | _ => b) none
/-- A chunk with a float operand (R203). -/
def chunkTrunc (acc : Nat) (ps : List (Num × Bool)) : Nat × Nat :=
  let ts := decodeFloat fp32 acc :: ps.map fun p => p.1
  match specialSum ts (ps.any fun p => p.2) with
  | some r => r
  | none =>
    match topExp ts with
    | none => roundSum 0 0 ts
    | some k =>
      let cut := ts.map (truncTerm (k - 40))
      let (z, e) := sumFinite (cut.map fun c => c.1)
      let r := roundSum z e ts
      (r.1, r.2 ||| (if cut.any fun c => c.2 then fInexact else 0))

/-- How a pair of formats sums: 0 by R202, 1 by R203 in chunks, 2 one element at a time. -/
def sumPath (af bf : Nat) : Nat :=
  let exact (f : Nat) : Bool := decide (8 ≤ f) && decide (f ≤ 25)
  if exact af && exact bf then 0 else if af = 0 ∧ bf = 0 then 2 else 1
/-- One chunk of an element. -/
-- DEDUCED: log 31.
def chunkSum (path : Nat) (int : Bool) (acc : Nat) (xs ys : List Num) : Nat × Nat :=
  let ps := (xs.zip ys).map fun e => prodNum e.1 e.2
  if path = 0 then (if int then chunkInt acc ps else chunkExact acc ps)
  else if path = 2 then chunkExact acc ps
  else chunkTrunc acc ps
/-- An element's chunks in ascending K (R229). -/
def elemSum (path : Nat) (int : Bool) (acc : Nat) (xs ys : List Num) : Nat × Nat :=
  let n := if path = 2 then 1 else 32
  let z : Num := .fin false 0 0
  let k := ceilDiv xs.length n
  ((chunksOf n z k xs).zip (chunksOf n z k ys)).foldl (fun r c =>
    let y := chunkSum path int r.1 c.1 c.2
    (y.1, r.2 ||| y.2)) (acc, 0)

/-! ### Slots and the queue -/

def tslotOf (c : Core) (j : Nat) : TSlot := tget {} c.tensor.slots j
def modTslot (c : Core) (j : Nat) (f : TSlot → TSlot) : Core :=
  { c with tensor := { c.tensor with slots := tmod {} c.tensor.slots j f } }
/-- TENSOR_SLOT (R254). -/
def tslotTrap (sub j : Nat) (s : State) : Res := trapHere s 0x0A (sub + j * 2 ^ 8)
/-- The checks 1 and 2 of R244, for an instruction that enters the queue; while the queue is full it does not issue
(R232). -/
def tensorIssue (j : Nat) (poison : Bool) (s : State) (body : TSlot → State → Res) : Res :=
  let c := (curSite s).core
  if 4 ≤ c.tensor.queue.length then .next s
  else if !holdsTslot c (actGrp s) j then tslotTrap 1 j s
  else if poison && (tslotOf c j).poison then trapHere s 0x13 (3 + j * 2 ^ 8)
  else body (tslotOf c j) s
/-- An operation put in the queue. -/
def enqueueOp (o : TOp) (s : State) : State :=
  onCur (fun c => { c with tensor := { c.tensor with queue := c.tensor.queue ++ [o] } }) s
/-- An operation of the agent at hand on a slot. -/
def newOp (kind : TKind) (j : Nat) (s : State) : TOp := { kind := kind, slot := j, key := curKey s, grp := actGrp s }
/-- An operation with an access of its strand put in the queue: reads, or rows to write. -/
def enqueueAccess (o : TOp) (rd : Bool) (ea : Nat) (units : List AUnit) (s : State) : State :=
  let id := (curSite s).core.accIds
  let s := addAccess s { id := 0, key := 0, stream := o.stream, rd := rd, wr := !rd, counts := false, ea := ea, units := units, fin := .engine }
  enqueueOp { o with acc := some id } s
/-- The first failing check of runs of n bytes (R238). -/
def runsFault (s : State) (starts : List Nat) (n al stream : Nat) (wr : Bool) : Option TrapVal :=
  starts.findSome? fun a => runFault s a n al stream wr
/-- The reads of runs of n bytes, one after another in the result from an offset. -/
def runReads (starts : List Nat) (n off : Nat) : List AUnit :=
  starts.zipIdx.flatMap fun e => (linePieces e.1 n).map fun p => .read p.1 p.2 (off + n * e.2 + (p.1 - e.1))

/-- TCFG and TCFG.z (R245). -/
def configure (z : Bool) (d a b mm nn af bf acc : Nat) (s : State) : Res :=
  tensorIssue d false s fun sl s =>
    let k := bits (readG s b) 16 0
    let w := readG s a
    if sl.live && !z then tslotTrap 3 d s
    else if k = 0 ∨ 65536 < k then tslotTrap 4 d s
    else if bits w 20 0 % 4 ≠ 0 ∨ bits w 52 32 % 4 ≠ 0 then tslotTrap 5 d s
    else
      let conf : TConf := { m := mm + 1, n := nn + 1, k := k, af := af, bf := bf, int := acc == 1,
                            astride := bits w 20 0, bstride := bits w 52 32 }
      let s := onCur (fun c => modTslot c d fun sl =>
        { sl with conf := some conf, live := false, sf := 0, poison := sl.poison && !z }) s
      done 8 (enqueueOp (newOp .tcfg d s) s)
/-- TCFG: a slot configured (R245). -/
def execTcfg (d a b mm nn af bf acc : Nat) (s : State) : Res :=
  issue (.tcfg d a b mm nn af bf acc) s (configure false d a b mm nn af bf acc)
/-- TCFG.z: a slot configured, its contents discarded (R245). -/
def execTcfgZ (d a b mm nn af bf acc : Nat) (s : State) : Res :=
  issue (.tcfgZ d a b mm nn af bf acc) s (configure true d a b mm nn af bf acc)

/-- TMMA: a product added to a slot (R246). -/
def execTmma (d a b st : Nat) (s : State) : Res :=
  issue (.tmma d a b st) s fun s => tensorIssue d true s fun sl s =>
    match sl.conf with
    | none => tslotTrap 2 d s
    | some cf =>
      let rows := (upto cf.m).map fun i => (readG s a).toNat + i * cf.astride
      let cols := (upto cf.n).map fun j => (readG s b).toNat + j * cf.bstride
      let ra := runBytes cf.af cf.k
      let rb := runBytes cf.bf cf.k
      match (runsFault s rows ra 4 st false).or (runsFault s cols rb 4 st false) with
      | some t => .next (takeTrap s t)
      | none =>
        let o := { newOp .tmma d s with conf := cf, fresh := !sl.live, stream := st }
        let s := onCur (fun c => modTslot c d fun sl => { sl with live := true }) s
        done 4 (enqueueAccess o true (readG s a).toNat (runReads rows ra 0 ++ runReads cols rb (ra * cf.m)) s)

/-- TZERO: a slot zeroed (R247). -/
def execTzero (d : Nat) (s : State) : Res :=
  issue (.tzero d) s fun s => tensorIssue d false s fun _ s =>
    let s := onCur (fun c => modTslot c d fun sl => { sl with live := false, poison := false, sf := 0 }) s
    done 4 (enqueueOp (newOp .tzero d s) s)

/-- The bytes of a drained row (R248). -/
def rowBytes (f raw n : Nat) : Nat := if raw = 1 then 4 * n else runBytes f n
/-- A draining or loading operation with the rounding state it takes at issue, and the strand's LFSR stepped (R240). -/
def convOp (kind : TKind) (d f raw st : Nat) (cf : TConf) (live : Bool) (s : State) : TOp × State :=
  let rm := roundMode s
  let n := cf.m * (if kind = .tldacc then cf.n else runSteps f cf.n)
  let o := { newOp kind d s with conf := cf, fresh := !live, fmt := f, raw := raw == 1, stream := st, rm := rm, lfsr := lfsrOf s }
  let s := onCur (fun c => modTslot c d fun sl => { sl with live := kind == .tldacc }) s
  (o, if raw = 0 ∧ rm = 5 then modCurCtx s fun x => { x with lfsr := wordN (lfsrSteps n (bits x.lfsr 31 0)) } else s)
/-- TDRAIN and TLDACC (R248, R249). -/
def drainLoad (kind : TKind) (d a b f raw st : Nat) (s : State) : Res :=
  tensorIssue d true s fun sl s =>
    match sl.conf with
    | none => tslotTrap 2 d s
    | some cf =>
      let stride := bits (readG s b) 20 0
      let n := rowBytes f raw cf.n
      let rows := (upto cf.m).map fun r => (readG s a).toNat + r * stride
      let wr := kind == .tdrain
      if stride % 4 ≠ 0 then tslotTrap 5 d s
      else match runsFault s rows n 4 st wr with
        | some t => .next (takeTrap s t)
        | none =>
          let (o, s) := convOp kind d f raw st cf sl.live s
          let o := { o with aAddr := (readG s a).toNat, stride := stride }
          done 8 (enqueueAccess o (!wr) o.aAddr (if wr then [] else runReads rows n 0) s)
/-- TDRAIN: a slot written to rows of the local store (R248). -/
def execTdrain (d a b f raw st : Nat) (s : State) : Res :=
  issue (.tdrain d a b f raw st) s (drainLoad .tdrain d a b f raw st)
/-- TLDACC: a slot loaded from rows of the local store (R249). -/
def execTldacc (d a b f raw st : Nat) (s : State) : Res :=
  issue (.tldacc d a b f raw st) s (drainLoad .tldacc d a b f raw st)
/-- TDRAIN.F: a slot's rows sent to the destinations their steering values select (R250). -/
def execTdrainF (d a b f raw st : Nat) (s : State) : Res :=
  issue (.tdrainF d a b f raw st) s fun s => tensorIssue d true s fun sl s =>
    match sl.conf with
    | none => tslotTrap 2 d s
    | some cf =>
      let ea := (readG s a).toNat
      if msgMax (curSite s) < ceilDiv (rowBytes f raw cf.n) 32 then tslotTrap 6 d s
      else match runFault s ea cf.m 1 st false with
        | some t => .next (takeTrap s t)
        | none =>
          let tag := readG s b
          let (o, s) := convOp .tdrainF d f raw st cf sl.live s
          done 8 (enqueueAccess { o with tag := tag } true ea (runReads [ea] cf.m 0) s)

/-- TSTAT: a slot's state at issue (R253). -/
def execTstat (d a : Nat) (s : State) : Res :=
  issue (.tstat d a) s fun s =>
    let c := (curSite s).core
    let sl := tslotOf c a
    let v := if !holdsTslot c (actGrp s) a then 0
      else 1 + b2n sl.conf.isSome * 2 + b2n sl.live * 2 ^ 2 + b2n (tslotBusy c a) * 2 ^ 3 + b2n sl.poison * 2 ^ 4 +
        b2n (c.tensor.active == a) * 2 ^ 5 + sl.sf * 2 ^ 8 +
        (match sl.conf with
          | some cf => (cf.m - 1) * 2 ^ 16 + (cf.n - 1) * 2 ^ 21 + cf.af * 2 ^ 26 + cf.bf * 2 ^ 31 + b2n cf.int * 2 ^ 36 +
              cf.k * 2 ^ 37
          | none => 0)
    done 4 (writeG s d (wordN v))

/-! ### Execution -/

/-- The engine past an operation: the oldest that executes is done. -/
def engineDone (e : Tensor) : Tensor :=
  match e.fired with
  | _ :: l => { e with fired := l }
  | [] => { e with cur := none }
/-- An operation ended: its flags go to its slot and its strand (R239), and its access is gone. -/
def closeOp (c : Core) (o : TOp) : Core :=
  let c := modTslot c o.slot fun sl => { sl with sf := sl.sf ||| o.flags }
  let c := { c with accesses := c.accesses.filter fun a => some a.id != o.acc }
  deliverFlags c o.key o.flags
/-- The oldest operation that executes ended. -/
def endOp (c : Core) (o : TOp) : Core := closeOp { c with tensor := engineDone c.tensor } o
/-- Whether the head of the queue may start: the engine is free, or both it and the operation at hand are TMMAs of one slot
and the latter has read all its operands (R232, R234). -/
-- DESIGN CHOICE: log 155.
def mayStart (e : Tensor) : Bool :=
  match e.cur, e.queue with
  | _, [] => false
  | none, _ :: _ => e.fired == []
  | some p, o :: _ => p.kind == .tmma && o.kind == .tmma && p.slot == o.slot && p.data.isSome
/-- TENSOR_OP_START (R232, R233): the head of the queue begins. TCFG and TZERO act at once; the others make their slot
active. A steered drain takes a copy of the steering table (R250). -/
def startOp (c : Core) : Core :=
  match c.tensor.queue with
  | [] => c
  | o :: rest =>
    if c.evict.st ≠ .run ∨ !mayStart c.tensor then c
    else
      let c := { c with tensor := { c.tensor with queue := rest, fired := c.tensor.fired ++ c.tensor.cur.toList, cur := none } }
      if o.kind = .tcfg ∨ o.kind = .tzero then closeOp (modTslot c o.slot fun sl => { sl with words := [] }) o
      else { c with tensor := { c.tensor with cur := some { o with table := c.steer, tdec := c.tdec }, active := o.slot } }
def execTensorOpStart (s : State) : Res := .next (modSite s (argAt s 0) (onCore startOp))

/-- The words of a slot as an operation finds them. -/
def slotWord (sl : TSlot) (fresh : Bool) (i j : Nat) : Nat := if fresh then 0 else (tget 0 sl.words (32 * i + j)).toNat
/-- The words of M rows of N from a function. -/
def slotWords (m n : Nat) (f : Nat → Nat → Nat) : Tab (BitVec 32) :=
  tabOf ((upto m).flatMap fun i => (upto n).map fun j => (32 * i + j, BitVec.ofNat 32 (f i j)))
/-- A matrix of results and flags from elements, in row-major order. -/
def gather2 (m n : Nat) (f : Nat → Nat → Nat × Nat) : Tab (BitVec 32) × Nat :=
  let l := (upto m).flatMap fun i => (upto n).map fun j => (32 * i + j, f i j)
  (tabOf (l.map fun e => (e.1, BitVec.ofNat 32 e.2.1)), l.foldl (fun fl e => fl ||| e.2.2) 0)
/-- A product of operands read, given as a number (R246). -/
def product (o : TOp) (sl : TSlot) (v : Nat) : Tab (BitVec 32) × Nat :=
  let cf := o.conf
  let ra := runBytes cf.af cf.k
  let rb := runBytes cf.bf cf.k
  let rows := (upto cf.m).map fun i => decodeRun o.tdec cf.af cf.k (v / 256 ^ (ra * i) % 256 ^ ra)
  let cols := (upto cf.n).map fun j => decodeRun o.tdec cf.bf cf.k (v / 256 ^ (ra * cf.m + rb * j) % 256 ^ rb)
  let path := sumPath cf.af cf.bf
  let r := gather2 cf.m cf.n fun i j =>
    elemSum path cf.int (slotWord sl o.fresh i j) (rows.getD i ([], 0)).1 (cols.getD j ([], 0)).1
  (r.1, (rows ++ cols).foldl (fun fl e => fl ||| e.2) r.2)
/-- The random values of the elements of a row. -/
def rowDraws (o : TOp) (r steps : Nat) : List Nat :=
  (((drawsFor o.rm (o.conf.m * steps) o.lfsr).1).drop (r * steps)).take steps
/-- Rows read into a slot, given as a number (R249). -/
def loadRows (o : TOp) (v : Nat) : Tab (BitVec 32) × Nat :=
  let cf := o.conf
  let n := rowBytes o.fmt (b2n o.raw) cf.n
  let df : Kind := if cf.int then .int 32 true else .flt fp32
  let row (i : Nat) : Nat := v / 256 ^ (n * i) % 256 ^ n
  let draw (i j : Nat) : Nat := (rowDraws o i cf.n).getD j 0
  if o.raw then (slotWords cf.m cf.n fun i j => elemAt (row i) 32 j, 0)
  else if isBlock o.fmt then
    gather2 cf.m cf.n fun i j => encodeKind o.tdec df ((decodeRun o.tdec o.fmt cf.n (row i)).1.getD j (.fin false 0 0)) o.rm (draw i j)
  else gather2 cf.m cf.n fun i j =>
    convertKind o.tdec df (kindOfFmt o.fmt) (elemAt (row i) (fmtBits o.fmt) j) o.rm (draw i j)
/-- Every word of a slot at the value an uncorrectable operand leaves (R241). -/
def poisoned (cf : TConf) : Tab (BitVec 32) := slotWords cf.m cf.n fun _ _ => if cf.int then 0x80000000 else qnan32
/-- The oldest operation that executes, where its operands have been read and it writes its slot. -/
def toWrite (e : Tensor) : Option TOp :=
  match e.fired ++ e.cur.toList with
  | o :: _ => if o.data.isSome && (o.kind == .tmma || o.kind == .tldacc) then some o else none
  | [] => none
/-- TENSOR_SLOT_WRITE (R234, R246, R249): the operands read, the operation's results enter its slot; a stopping core still
completes what has been fired (R256). -/
def slotWrite (c : Core) : Core :=
  match toWrite c.tensor with
  | none => c
  | some o =>
    match o.data with
    | none => c
    | some v =>
      if o.bad then
        endOp (modTslot c o.slot fun sl => { sl with words := poisoned o.conf, poison := true, sf := sl.sf ||| fInvalid }) { o with flags := 0 }
      else
        let (w, fl) := if o.kind = .tmma then product o (tslotOf c o.slot) v else loadRows o v
        endOp (modTslot c o.slot fun sl => { sl with words := w }) { o with flags := fl }
def execTensorSlotWrite (s : State) : Res := .next (modSite s (argAt s 0) (onCore slotWrite))

/-- A row of a slot converted, as a number, with its flags (R248). -/
def drainRow (o : TOp) (sl : TSlot) (r : Nat) : Nat × Nat :=
  let cf := o.conf
  let ws := (upto cf.n).map fun j => slotWord sl o.fresh r j
  let sf : Kind := if cf.int then .int 32 true else .flt fp32
  let steps := runSteps o.fmt cf.n
  let rs := rowDraws o r steps
  if o.raw then (packElems 32 ws, 0)
  else if isBlock o.fmt then encodeRun o.tdec o.fmt (ws.map fun w => (decodeKind o.tdec sf w).1) o.rm rs
  else
    let ys := (ws.zip rs).map fun e => convertKind o.tdec (kindOfFmt o.fmt) sf e.1 o.rm e.2
    (packElems (fmtBits o.fmt) (ys.map fun y => y.1), ys.foldl (fun fl y => fl ||| y.2) 0)
/-- A row's start and length. -/
def rowStart (o : TOp) : Nat := o.aAddr + o.row * o.stride
def rowLen (o : TOp) : Nat := rowBytes o.fmt (b2n o.raw) o.conf.n
/-- The operation past a row: the next row, or its end. -/
def nextRow (c : Core) (o : TOp) : Core :=
  if o.row + 1 < o.conf.m then { c with tensor := { c.tensor with cur := some { o with row := o.row + 1, way := 0, left := none } } }
  else endOp c o
/-- The pieces of the current row left to be written. -/
def rowLeft (o : TOp) : List (Nat × Nat) := o.left.getD (linePieces (rowStart o) (rowLen o))
/-- Whether no earlier access of its strand and stream is before an operation's. -/
def accessFirst (c : Core) (o : TOp) : Bool :=
  !((c.accesses.takeWhile fun a => some a.id != o.acc).any fun a => a.key == o.key && a.stream == o.stream)
/-- The physical offsets of words that a write of a run covers in part. -/
def partWords (p n : Nat) : List Nat :=
  ((upto ((p + n + 7) / 8 - p / 8)).map fun k => 8 * (p / 8 + k)).filter fun b =>
    !(decide (p ≤ b) && decide (b + 8 ≤ p + n))
/-- DRAIN_ROW_WRITE (R248): a line of the row at hand is written; the row's last one takes the drain on. A word covered in
part is read and rewritten: a correctable one is found (R169), an uncorrectable one stays so and is counted. -/
def rowWrite (x : Site) (k : Nat) : Site :=
  let c := x.core
  match c.tensor.cur with
  | none => x
  | some o =>
    match (rowLeft o)[k]? with
    | none => x
    | some (a, n) =>
      if o.kind ≠ .tdrain ∨ c.evict.st ≠ .run ∨ !accessFirst c o then x
      else
        let (v, fl) := drainRow o (tslotOf c o.slot) o.row
        let p := physVia c ((c.accesses.find? fun y => some y.id == o.acc).elim [] fun y => y.via) a
        let part := partWords p n
        let x := (part.filter c.bad.contains).foldl (fun x w => countUe x w 2) x
        let left := (rowLeft o).eraseIdx k
        onCore (fun c =>
          let c := storePhys (part.foldl (fun c b => noteRead c b 8) c) p n (v / 256 ^ (a - rowStart o) % 256 ^ n)
          let o := { o with left := some left, flags := o.flags ||| fl }
          if left = [] then nextRow c o else { c with tensor := { c.tensor with cur := some o } }) x
def execDrainRowWrite (s : State) : Res := .next (modSite s (argAt s 0) fun x => rowWrite x (argAt s 1))

/-- The steering value of a row. -/
def steerVal (o : TOp) (r : Nat) : Nat := o.data.getD 0 / 256 ^ r % 16
/-- The packet of a row and way (R251). -/
def steeredPkt (x : Site) (o : TOp) (w : Word) (v : Nat) : Packet :=
  let len := ceilDiv (rowLen o) 32
  let i := bits w 29 20
  { dest := bits w 19 0, src := coreName x, kind := kDATA, handler := if bit w 30 then 0 else i
    counter := if bit w 30 then i else 0, len := len, stream := o.stream, scope := 5, fmt := if o.raw then 0 else o.fmt
    park := localPark x, arg0 := o.tag
    arg1 := wordN (o.row + steerVal o o.row * 2 ^ 8 + b2n o.raw * 2 ^ 12 + o.slot * 2 ^ 13), payload := natFlits v len }
/-- The next valid way of a steered drain from its row and way on, none when there is no more in the row. -/
def nextWay (o : TOp) : Option Nat :=
  (upto 4).find? fun w => decide (o.way ≤ w) && bit (tget 0 o.table (4 * steerVal o o.row + w)) 31
/-- STEERED_ROW_SEND (R250): the next packet of a steered drain is sent, or its row has none left, or it ends. -/
-- DESIGN CHOICE: log 176.
def steeredSend (x : Site) (time : Nat) : Site :=
  let c := x.core
  match c.tensor.cur with
  | none => x
  | some o =>
    if o.kind ≠ .tdrainF ∨ o.data.isNone ∨ c.evict.st ≠ .run then x
    else match nextWay o with
      | none =>
        if o.row + 1 < o.conf.m then onCore (fun c => nextRow c o) x
        else if c.inj0.any fun j => some j.id == o.sent && !j.done then x
        else onCore (fun c => endOp c o) x
      | some w =>
        let (v, fl) := drainRow o (tslotOf c o.slot) o.row
        let p := steeredPkt x o (tget 0 o.table (4 * steerVal o o.row + w)) v
        if mustWait c steerTurn (1 + p.len) then onCore (takeTurn steerTurn) x
        else onCore (fun c =>
          let (c, q) := takeSeq (leaveTurn steerTurn c)
          let id := c.injIds
          let c := inject c x.id { p with seq := q } none false time
          { c with tensor := { c.tensor with cur := some { o with way := w + 1, sent := some id, flags := o.flags ||| fl } } }) x
def execSteeredRowSend (s : State) : Res := .next (modSite s (argAt s 0) fun x => steeredSend x s.time)

end Sys2Proof.Machine
end

