-- ==== Sys2Proof/Machine/Copies.lean ====
section
/-! DEFINITION. The copy engine: geometry, conversion, its packets, reductions at a destination, completion, multicast,
HALO and the feed registers (R175, R176, R257 to R278). -/

namespace Sys2Proof.Machine

/-! ### Geometry (R263, R264) -/

/-- EXTENT₀ of an array, and its number of runs. -/
def legElems (l : Leg) : Nat := match l.dims with | d :: _ => d.1 | [] => 0
def legRuns (l : Leg) : Nat := if l.dims.any fun d => d.1 == 0 then 0 else l.dims.tail.foldl (fun n d => n * d.1) 1
/-- How far run r lies from the base: extents and strides, the innermost first. -/
def runOffset : List (Nat × Int) → Nat → Int
  | [], _ => 0
  | (e, st) :: l, r => ((r % e : Nat) : Int) * st + runOffset l (r / e)
/-- The source and destination addresses of run r. -/
def srcAt (l : Leg) (r : Nat) : Int := (l.sbase : Int) + runOffset (l.dims.tail.map fun d => (d.1, d.2.1)) r
def dstAt (l : Leg) (r : Nat) : Int := (l.dbase : Int) + runOffset (l.dims.tail.map fun d => (d.1, d.2.2)) r
/-- Whether the source, or the destination, is an array of cells (R271). -/
def cellsSrc (h : Chan) : Bool := h.shape.cells && h.kind != .cpyr
def cellsDst (h : Chan) : Bool := h.shape.cells && h.kind == .cpyr
/-- The bytes of a run at its two ends. -/
def srcLen (h : Chan) (l : Leg) : Nat := if cellsSrc h then 16 * legElems l else runBytes h.shape.sf (legElems l)
def dstLen (h : Chan) (l : Leg) : Nat := if cellsDst h then 16 * legElems l else runBytes h.shape.df (legElems l)
/-- The bits of an element of a destination that is no block format. -/
-- DEDUCED: log 84.
def dstBits (h : Chan) : Nat := if cellsDst h then 128 else fmtBits h.shape.df
/-- The array a place is in. -/
def legAt (h : Chan) (p : Place) : Leg := h.legs.getD p.leg {}
/-- The first array from number k on that has a run. -/
def nextLeg (h : Chan) (k : Nat) : Nat :=
  ((upto h.legs.length).find? fun i => decide (k ≤ i) && legRuns (h.legs.getD i {}) != 0).getD h.legs.length
/-- The place n bytes on in runs of a length. -/
def nextPlace (h : Chan) (p : Place) (n len : Nat) : Place :=
  if p.off + n < len then { p with off := p.off + n }
  else if p.run + 1 < legRuns (legAt h p) then { p with run := p.run + 1, off := 0 }
  else { leg := nextLeg h (p.leg + 1), run := 0, off := 0 }
/-- Whether a place is past the last array. -/
def pastEnd (h : Chan) (p : Place) : Bool := decide (h.legs.length ≤ p.leg)
/-- Whether a run of n bytes lies in its space (R264). -/
def runIn (space : Nat) (a : Int) (n : Nat) : Bool :=
  decide (0 ≤ a) && decide (a + n ≤ (if space < 2 then ((2 ^ 21 : Nat) : Int) else ((2 ^ 52 : Nat) : Int)))

/-! ### Elements and conversion (R265, R271) -/

/-- The elements that n bytes at an offset of a destination run hold a bit of; of a reduction, those whose first bit they
hold: the first one, and how many. -/
def dstElems (h : Chan) (l : Leg) (lo n : Nat) : Nat × Nat :=
  let e0 := legElems l
  if isBlock h.shape.df && !cellsDst h then
    let b := lo / imageBytes h.shape.df
    (b * blockElems h.shape.df, min e0 (ceilDiv (lo + n) (imageBytes h.shape.df) * blockElems h.shape.df) - b * blockElems h.shape.df)
  else
    let w := dstBits h
    let e := if h.kind = .cpyr then ceilDiv (8 * lo) w else 8 * lo / w
    (e, min e0 (ceilDiv (8 * (lo + n)) w) - e)
/-- The source bytes of k elements from element e: first and past the last. -/
def srcRange (h : Chan) (e k : Nat) : Nat × Nat :=
  let f := h.shape.sf
  if cellsSrc h then (16 * e, 16 * (e + k))
  else if isBlock f then (e / blockElems f * imageBytes f, ceilDiv (e + k) (blockElems f) * imageBytes f)
  else (e * fmtBits f / 8, ceilDiv ((e + k) * fmtBits f) 8)
/-- The values of k elements from element e, from the bytes of `srcRange`, and the flags of decoding them. -/
def srcVals (h : Chan) (e k data : Nat) : List Num × Nat :=
  let f := h.shape.sf
  if cellsSrc h then
    ((upto k).map fun i => match numOfInt (sext (elemAt data 128 i) 128) with
      | .fin n m x => .fin n m (x - 64)
      | y => y, 0)
  else if isBlock f then
    let r := decodeRun h.tdec f (e % blockElems f + k) data
    (r.1.drop (e % blockElems f), r.2)
  else decodeRun h.tdec f k (data / 2 ^ (e * fmtBits f % 8))
/-- Whether a copy moves bits unchanged. -/
def plainBits (h : Chan) : Bool := h.shape.sf == h.shape.df && !h.shape.cells && h.kind != .cpyr
/-- The source bytes that n destination bytes at an offset need. -/
def needs (h : Chan) (l : Leg) (lo n : Nat) : Nat × Nat :=
  if plainBits h then (lo, lo + n) else
  let e := dstElems h l lo n
  srcRange h e.1 e.2
/-- A run's bytes unchanged, the bits past its last element zero. -/
def plainPart (h : Chan) (l : Leg) (lo n data : Nat) : Nat :=
  if isBlock h.shape.df then data % 256 ^ n
  else data % 2 ^ min (8 * n) (fmtBits h.shape.df * legElems l - 8 * lo)
/-- n destination bytes at an offset of a run that a copy writes, and the flags raised. -/
def convertPart (h : Chan) (l : Leg) (run lo n data : Nat) : Nat × Nat :=
  if plainBits h then (plainPart h l lo n data, 0)
  else
    let f := h.shape.df
    let (e, k) := dstElems h l lo n
    let (xs, fl) := srcVals h e k data
    let first := run * runSteps f (legElems l) + e
    let rs := (drawsFor h.shape.rm (runSteps f k) (if h.shape.rm = 5 then lfsrSteps first h.lfsr else 0)).1
    let y := encodeRun h.tdec f xs h.shape.rm rs
    let base := if isBlock f then 8 * (lo / imageBytes f * imageBytes f) else e * fmtBits f
    (y.1 / 2 ^ (8 * lo - base) % 256 ^ n, fl ||| y.2)

/-- A value as a cell's contribution: clamped, then truncated to a multiple of 2^−64; a NaN has none that the manual
gives (R271). -/
-- DESIGN CHOICE: log 80.
def cellOf (x : Num) (free : Nat) : Nat × Nat :=
  let top : Nat := 2 ^ 127 - 1
  match x with
  | .fin n m e =>
    let a := fracOf m (e + 64)
    if !n && decide (top * a.2 < a.1) then (top, fSaturate)
    else if n && decide (2 ^ 127 * a.2 < a.1) then (2 ^ 127, fSaturate)
    else
      let z : Int := if n then -((a.1 / a.2 : Nat) : Int) else ((a.1 / a.2 : Nat) : Int)
      (truncI z 128, if a.1 % a.2 = 0 then 0 else fInexact)
  | .inf n => (if n then 2 ^ 127 else top, fSaturate)
  | .nan _ _ => (free % 2 ^ 128, 0)
/-- A contribution combined into a cell. -/
-- DESIGN CHOICE: log 80.
def cellOp (rop old c : Nat) : Nat :=
  if rop = 0 then (old + c) % 2 ^ 128
  else if rop = 1 then (if sext old 128 < sext c 128 then c else old)
  else (if sext c 128 < sext old 128 then c else old)
/-- VADD, VMAX or VMIN of a destination element and a contribution, exactly (R211). -/
def ropNum (rop mode : Nat) (x y : Num) : Num × Nat :=
  match nanResult [x, y] with
  | some r => r
  | none =>
    if rop = 0 then addNum x y mode
    else
      let less (a b : Num) : Bool := numLt a b || (a.isZero && b.isZero && a.neg && !b.neg)
      (if rop = 1 then (if less x y then y else x) else (if less y x then y else x), 0)
/-- A contribution folded into a destination element by one rounding (R271). -/
def elemOp (t : Tab Nat) (df rop rm old : Nat) (c : Num) : Nat × Nat :=
  let r := ropNum rop rm (decodeKind t (kindOfFmt df) old).1 c
  let y := encodeKind t (kindOfFmt df) r.1 rm 0
  (y.1, r.2 ||| y.2)
/-- A value as a packet carries it, and back. -/
-- DESIGN CHOICE: log 81.
def packNum : Num → Nat × Nat × Int
  | .fin n m e => (b2n n, m, e)
  | .inf n => (2 + b2n n, 0, 0)
  | .nan n q => (4 + b2n n + 2 * b2n q, 0, 0)
-- DESIGN CHOICE: log 81.
def unpackNum (x : Nat × Nat × Int) : Num :=
  if x.1 < 2 then .fin (x.1 == 1) x.2.1 x.2.2 else if x.1 < 4 then .inf (x.1 == 3) else .nan (bitN x.1 0) (decide (6 ≤ x.1))

/-! ### The engine's packets and progress -/

def chanOf (c : Core) (ch : Nat) : Chan := tget {} c.chans ch
def modChan (c : Core) (ch : Nat) (f : Chan → Chan) : Core := { c with chans := tmod {} c.chans ch f }
/-- Whether a channel may put n flits in the injection buffer: earlier requests come first (R283). -/
def engineRoom (c : Core) (ch n : Nat) : Bool := !mustWait c (chanTurn ch) n
/-- A channel that finds no places waits for its turn (R283). -/
def engineWaits (x : Site) (ch : Nat) : Site := onCore (takeTurn (chanTurn ch)) x
/-- A packet of a copy sent (R267, R282). -/
def sendCopy (x : Site) (ch : Nat) (k : OKind) (p : Packet) (time : Nat) : Site :=
  onCore (fun c =>
    let h := chanOf c ch
    let (c, q) := takeSeq (leaveTurn (chanTurn ch) c)
    let p := { p with seq := q, src := coreName x, stream := h.stream, scope := h.scope, park := localPark x }
    let c := inject c x.id p none false time
    let o : Outst := { seq := q, key := h.key, grp := h.grp, uid := h.uid, kind := k, pkt := originate x.id p, pc := h.pc }
    modChan { c with outs := c.outs ++ [o] } ch fun h => { h with firstSeq := some (h.firstSeq.getD q) }) x
/-- The name that serves an address of a space (R259, R260). -/
def spaceName (x : Site) (space a name : Nat) : Nat :=
  let cfg := reg x 0x063
  if space < 2 then name
  else if space = 2 then
    bitsN a 51 50 * 2 ^ 18 +
      (bitsN cfg 37 20 + bitsN cfg 6 0 + bitsN a 49 0 / 2 ^ bitsN cfg 19 15 % bitsN cfg 14 7) % 2 ^ 18
  else siteW x.id * 2 ^ 18 + (bitsN cfg 55 38 + name) % 2 ^ 18
/-- The longest payload of a copy's packet, in bytes. -/
def longest (x : Site) : Nat := 32 * max 1 (msgMax x)
/-- ARG1 of a COPYDATA (R267). -/
def copyArg (h : Chan) (ch : Nat) (last : Bool) : Nat :=
  let sh := h.shape
  let cls := if h.kind = .cpym then 3 else if h.kind = .cpyr then (if sh.cells then 2 else 1) else 0
  ch + (if cls = 1 then sh.ord * 2 ^ 6 + sh.tag * 2 ^ 14 else 0) + cls * 2 ^ 17 + sh.rop * 2 ^ 19 + b2n last * 2 ^ 21 +
    b2n (h.kind == .halo) * 2 ^ 22 + (if cls = 3 then h.tree * 2 ^ 23 else 0)
/-- The page check of an engine's local access for the copy's group (R266). -/
-- DEDUCED: log 35.
-- DEDUCED: log 83.
def engineFault (x : Site) (h : Chan) (rd wr : Bool) (a n : Nat) : Bool :=
  ((pagesOf a n).any fun v => (pageFault x (some h.grp) rd wr v).isSome) || (wr && inFirmwareEntries x a n)

/-- n bytes of a destination run from a place performed (R270); a reduction performs whole elements, those whose first bit the
bytes hold. -/
def notePerformed (h : Chan) (p : Place) (n : Nat) : Chan :=
  if h.kind = .cpyr then { h with runs := h.runs + (dstElems h (legAt h p) p.off n).2 } else
  let near (e : Place × Nat) : Bool := e.1.leg == p.leg && e.1.run == p.run && (e.1.off + e.2 == p.off || p.off + n == e.1.off)
  let lo := (h.spans.filter near).foldl (fun m e => min m e.1.off) p.off
  let hi := (h.spans.filter near).foldl (fun m e => max m (e.1.off + e.2)) (p.off + n)
  let rest := h.spans.filter fun e => !near e
  if lo = 0 ∧ hi = dstLen h (legAt h p) then { h with spans := rest, runs := h.runs + legElems (legAt h p) }
  else { h with spans := ({ p with off := lo }, hi - lo) :: rest }
/-- The elements all of whose bytes lie in a span. -/
def spanElems (h : Chan) (e : Place × Nat) : Nat :=
  let e0 := legElems (legAt h e.1)
  let lo := e.1.off
  let hi := e.1.off + e.2
  let f := h.shape.df
  if isBlock f && !cellsDst h then min e0 (hi / imageBytes f * blockElems f) - ceilDiv lo (imageBytes f) * blockElems f
  else min e0 (8 * hi / dstBits h) - ceilDiv (8 * lo) (dstBits h)
/-- ARG0 of the COPYACK. -/
def doneElems (h : Chan) : Nat := h.runs + h.spans.foldl (fun n e => n + spanElems h e) 0

/-! ### Completion (R270, R277) -/

/-- The result word of a channel's last copy. -/
-- DESIGN CHOICE: log 87.
def resultWord (h : Chan) : Word :=
  wordN (h.status + 2 ^ 4 + 2 ^ 5 + h.flags * 2 ^ 8 + doneElems h % 2 ^ 32 * 2 ^ 32)
/-- The failing address of a copy: statuses 1 to 5 and 8 have one (R270). -/
def failOf (h : Chan) : Nat := if (1 ≤ h.status ∧ h.status ≤ 5) ∨ h.status = 8 then h.failAddr else 0
/-- COPY_FAULT from a copy's status (R277). -/
def statusInfo (h : Chan) (ch : Nat) : Nat := h.status + ch * 2 ^ 4 + failOf h % 2 ^ 32 * 2 ^ 32
def statusVal (h : Chan) (ch : Nat) (pc : Word) : TrapVal :=
  { cause := 0x0B, pc := pc, info := wordN (statusInfo h ch), deferred := true }
/-- Every CPYW on a channel ends. -/
-- DEDUCED: log 75.
def wakeCopy (x : Site) (ch : Nat) : Site :=
  let h := chanOf x.core ch
  (x.core.strands.filterMap fun st => match st.2.wait with
    | .copyEnd k d => if k = ch then some (st.1, d) else none
    | _ => none).foldl (fun x e =>
      if h.status = 0 then onCore (fun c => endWait (deliverG c e.1 e.2 (resultWord h)) e.1 true) x
      else recordTrap (onCore (fun c => seeFrame c e.1 0 8) x) e.1 (statusVal h ch (pcOf x.core e.1))) x
/-- Whether a copy is to end: it sends nothing more and every packet is answered or lost. -/
-- DEDUCED: log 75.
def copyOver (c : Core) (ch : Nat) : Bool :=
  let h := chanOf c ch
  chanRuns h && (h.status != 0 || (h.started && pastEnd h h.wr && h.owed == [])) &&
    !(c.outs.any fun o => o.kind.chan? == some ch)
/-- A copy ends: its counter is decremented once, its flags are given to its strand, and the CPYWs on it go on. -/
-- DESIGN CHOICE: log 92.
def endCopy (x : Site) (ch : Nat) : Site :=
  let h := chanOf x.core ch
  let z := if h.shape.ackcnt = 0 then (x, false) else localDecrement x h.shape.ackcnt
  let h := { h with ended := true, status := if h.status = 0 then h.worst else h.status, cntref := z.2, pieces := [] }
  wakeCopy (onCore (fun c => deliverFlags (modChan c ch fun _ => h) h.key h.flags) z.1) ch
/-- A copy that has nothing left to do ends, its counter not decremented while a packet to a counter is being deposited. -/
def endIfOver (x : Site) (ch : Nat) : Site :=
  if copyOver x.core ch && !((chanOf x.core ch).shape.ackcnt != 0 && landsOnCounter x.core) then endCopy x ch else x
/-- The COPYACK of a copy (R270). -/
-- DEDUCED: log 47.
-- DESIGN CHOICE: log 92.
def copyAck (x : Site) (ch : Nat) : Packet :=
  let h := chanOf x.core ch
  let st := h.status
  { dest := coreName x, src := coreName x, kind := kCOPYACK, vc := 1, seq := h.firstSeq.getD 0, park := localPark x
    ks := ch + st * 2 ^ 6 + h.flags * 2 ^ 10 + b2n h.cntref * 2 ^ 16, arg0 := wordN (doneElems h)
    arg1 := wordN (failOf h), origin := x.id }
/-- A channel free: where its group has released it, the group gives it back (R128, R129). -/
def freeChan (c : Core) (ch : Nat) : Core :=
  let h := chanOf c ch
  let c := modChan c ch fun h => { h with busy := false, leaves := false }
  if h.leaves then released (modGroup c h.grp fun gr => { gr with chans := gr.chans - 1 }) else c
/-- COPYACK_PLACEMENT (R270, R288): the COPYACK is placed once there is room, and the channel is free. -/
def execCopyackPlacement (s : State) : Res :=
  let ch := argAt s 1
  .next (modSite s (argAt s 0) fun x =>
    let h := chanOf x.core ch
    if !h.busy || !h.ended then x
    else match putReport x (copyAck x ch) 1 (some h.grp) with
      | some x => onCore (fun c => freeChan c ch) x
      | none => x)

/-! ### The engine at work (R266) -/

/-- A copy started once the local writes before it in its stream have performed: it takes the tables in force. -/
def serveStart (x : Site) (ch : Nat) : Site :=
  let h := chanOf x.core ch
  if h.started || h.status != 0 || !writesDone x.core h.key h.stream h.startAcc then x
  else
    let at' : Place := { leg := nextLeg h 0 }
    onCore (fun c => modChan c ch fun h => { h with started := true, tdec := c.tdec, rd := at', wr := at' }) x

/-- A source piece asked for, with its data where they have come. -/
def addPiece (c : Core) (ch n : Nat) (data : Option Nat) : Core :=
  modChan c ch fun h =>
    { h with pieces := h.pieces ++ [{ id := h.ids, src := h.rd, n := n, data := data }], ids := h.ids + 1
             rd := nextPlace h h.rd n (srcLen h (legAt h h.rd)) }
/-- A local line read (R266). -/
def engineLine (x : Site) (ch a n : Nat) : Site :=
  let h := chanOf x.core ch
  if engineFault x h true false a n then onCore (fun c => failChan c ch 3 a) x
  else
    let x := onCore (fun c => noteRun c a n) x
    match badRun x.core a n with
    | some _ => onCore (fun c => failChan c ch 5 a) (countUes x (runBads x.core a n) 3)
    | none => onCore (fun c => addPiece c ch n (some (readRun c a n))) x
/-- The next line or packet of source bytes. -/
-- DESIGN CHOICE: log 74.
def serveRead (x : Site) (ch time : Nat) : Site :=
  let h := chanOf x.core ch
  let l := legAt h h.rd
  let len := srcLen h l
  let s0 := srcAt l h.rd.run
  if !h.started || h.status != 0 || pastEnd h h.rd then x
  else if h.kind = .halo ∧ isNull l.dname then onCore (fun c => failChan c ch 4 l.dbase) x
  else if !runIn h.sspace s0 len then onCore (fun c => failChan c ch (if h.sspace < 2 then 3 else 1) (truncI s0 64)) x
  else
    let a := s0.toNat + h.rd.off
    if h.sspace = 0 then engineLine x ch a (min (32 - a % 32) (len - h.rd.off))
    else if !engineRoom x.core ch 1 then engineWaits x ch
    else
      let n := min (min (len - h.rd.off) (longest x)) (4096 - a % 4096)
      let p : Packet := { dest := spaceName x h.sspace a l.sname, kind := kRLOAD, arg0 := wordN a, arg1 := wordN (2 ^ 5 + n * 2 ^ 8) }
      onCore (fun c => addPiece c ch n none) (sendCopy x ch (.copyRead ch h.ids) p time)

/-- The source bytes from lo up to hi of a run, once all of them have come. -/
def gathered (h : Chan) (p : Place) (lo hi : Nat) : Option Nat :=
  let l := h.pieces.filter fun q => q.src.leg == p.leg && q.src.run == p.run && decide (q.src.off < hi) && decide (lo < q.src.off + q.n)
  let got := l.foldl (fun n q => n + (min hi (q.src.off + q.n) - max lo q.src.off)) 0
  if decide (got < hi - lo) || l.any fun q => q.data.isNone then none
  else some (l.foldl (fun v q =>
    let d := q.data.getD 0
    v + (if q.src.off ≤ lo then d / 256 ^ (lo - q.src.off) else d * 256 ^ (q.src.off - lo))) 0 % 256 ^ (hi - lo))
/-- The write place moved past n bytes, with the pieces that are no longer needed dropped. -/
def moveWr (h : Chan) (n : Nat) : Chan :=
  let l := legAt h h.wr
  let wr := nextPlace h h.wr n (dstLen h l)
  let lo := (needs h (legAt h wr) wr.off 1).1
  let keep (q : CPiece) : Bool :=
    decide (wr.leg < q.src.leg) ||
    (q.src.leg == wr.leg && (decide (wr.run < q.src.run) || (q.src.run == wr.run && decide (lo < q.src.off + q.n))))
  { h with wr := wr, pieces := h.pieces.filter keep }
/-- The first word that a write of n bytes covers only in part and that is uncorrectable (R169). -/
-- DEDUCED: log 35.
def partialWord (c : Core) (a n : Nat) : Option Nat :=
  let p := physOf c a
  c.bad.find? fun b => decide (b < p + n) && decide (p < b + 8) && !(decide (p ≤ b) && decide (b + 8 ≤ p + n))

/-- An element update or cell update at a bit of a run that starts at an address: the core, with the flags raised, or the
uncorrectable word it met. -/
def updateAt (c : Core) (t : Tab Nat) (df rop rm a bit w : Nat) (cell tail : Bool) (v : Num) (cv : Nat) : Core × Nat × Option Nat :=
  let b := a + bit / 8
  let n := ceilDiv (bit % 8 + w) 8
  match badRun c b n with
  | some u => (c, 0, some u)
  | none =>
    let old := readRun c b n
    let e := old / 2 ^ (bit % 8) % 2 ^ w
    let y := if cell then (cellOp rop e cv, 0) else elemOp t df rop rm e v
    let new := setBitsN old (bit % 8 + w - 1) (bit % 8) y.1
    let new := if tail then new % 2 ^ (bit % 8 + w) else new
    ((linePieces b n).foldl (fun c p => writeLocal c p.1 p.2 (new / 256 ^ (p.1 - b) % 256 ^ p.2)) (noteRun c b n), y.2, none)
/-- The contributions of a packet, or of a line of a local reduction, whose first bits lie in the bytes from lo up to hi:
their bit places from an address, width and values. The core, the flags, the uncorrectable word met, and the elements updated. -/
-- DEDUCED: log 83.
def updateRange (c : Core) (t : Tab Nat) (df rop rm a bit0 w lo hi : Nat) (cell tail : Bool) (vals : List Num) (cells : List Nat) :
    Core × Nat × Option Nat × Nat :=
  (upto vals.length).foldl (fun r i =>
    let bit := bit0 + w * i
    if r.2.2.1.isSome || decide (a + bit / 8 < lo) || decide (hi ≤ a + bit / 8) then r
    else
      let z := updateAt r.1 t df rop rm a bit w cell (tail && decide (i + 1 = vals.length)) (vals.getD i (.fin false 0 0)) (cells.getD i 0)
      (z.1, r.2.1 ||| z.2.1, z.2.2, if z.2.2.isSome then r.2.2.2 else r.2.2.2 + 1)) (c, 0, none, 0)

/-- NEXT of a tag (R272). -/
-- DEDUCED: log 82.
def ordNext (x : Site) (tag : Nat) : Nat := regF x 0x064 (8 * tag + 7) (8 * tag)
/-- Where an ordinal stands: 0 its turn, 1 to 127 later, otherwise stale. -/
-- DEDUCED: log 82.
def ordAhead (x : Site) (ord tag : Nat) : Nat := (ord + 256 - ordNext x tag) % 256
def pktOrd (p : Packet) : Nat := bits p.arg1 13 6
def pktTag (p : Packet) : Nat := bits p.arg1 16 14
/-- The packets held for NEXT of a tag, which are to be applied in arrival order (R272). -/
def takeHeld (x : Site) (tag : Nat) : Site :=
  let n := ordNext x tag
  let now := x.core.ordHeld.filter fun e => pktTag e.pkt == tag && pktOrd e.pkt == n
  onCore (fun c => freeCopies { c with ordHeld := c.ordHeld.filter fun e => !(pktTag e.pkt == tag && pktOrd e.pkt == n)
                                       ordReady := c.ordReady ++ now.map fun e => e.pkt } (now.map fun e => e.copy)) x
/-- A contribution done: NEXT advances (R272). -/
def advanceOrd (x : Site) (tag : Nat) : Site :=
  takeHeld (setRegF x 0x064 (8 * tag + 7) (8 * tag) ((ordNext x tag + 1) % 256)) tag

/-- A line of the destination written, at an address (R266). -/
def writeLine (x : Site) (ch a n data : Nat) : Site :=
  let h := chanOf x.core ch
  let l := legAt h h.wr
  if engineFault x h false true a n then onCore (fun c => failChan c ch 3 a) x
  else
    let x := onCore (fun c => notePartial c (physOf c a) n) x
    match partialWord x.core a n with
    | some _ => onCore (fun c => failChan c ch 5 a) (countUes x (partialBads x.core a n) 3)
    | none =>
      let (v, fl) := convertPart h l h.wr.run h.wr.off n data
      onCore (fun c => modChan (writeLocal c a n v) ch fun h =>
        notePerformed { moveWr h n with flags := h.flags ||| fl } h.wr n) x
/-- The contributions of n destination bytes: values, cells, and flags. -/
def contributions (h : Chan) (l : Leg) (lo n data free : Nat) : List Num × List Nat × Nat :=
  let (e, k) := dstElems h l lo n
  let (xs, fl) := srcVals h e k data
  if cellsDst h then
    let ys := xs.zipIdx.map fun v => cellOf v.1 (Config.badData free (e + v.2))
    (xs, ys.map fun y => y.1, ys.foldl (fun f y => f ||| y.2) fl)
  else (xs, [], fl)
/-- Whether n bytes at an offset hold the last element's last byte. -/
-- DEDUCED: log 84.
def holdsTail (l : Leg) (e k : Nat) : Bool := decide (legElems l ≤ e + k)
/-- A line of a local reduction (R271, R272). -/
def reduceLine (x : Site) (ch a n data time : Nat) : Site :=
  let h := chanOf x.core ch
  let l := legAt h h.wr
  let ahead := ordAhead x h.shape.ord h.shape.tag
  let (e, k) := dstElems h l h.wr.off n
  let w := dstBits h
  let bit := e * w - 8 * h.wr.off
  if !h.shape.cells && decide (128 ≤ ahead) then onCore (fun c => failChan c ch 11 0) x
  else if !h.shape.cells && ahead != 0 then x
  else if engineFault x h true true a (max n (ceilDiv (bit + w * k) 8)) then onCore (fun c => failChan c ch 3 a) x
  else
    let (xs, cs, fl) := contributions h l h.wr.off n data time
    let z := updateRange x.core h.tdec h.shape.df h.shape.rop h.shape.rm a bit w a (a + n) h.shape.cells (holdsTail l e k) xs cs
    match z.2.2.1 with
    | some _ =>
      onCore (fun c => failChan (modChan c ch fun h => { h with runs := h.runs + z.2.2.2, flags := h.flags ||| fl ||| z.2.1 }) ch 5 a)
        (countUes { x with core := z.1 } (runBads x.core a (max n (ceilDiv (bit + w * k) 8))) 3)
    | none =>
      let x := { x with core := modChan z.1 ch fun h => notePerformed { moveWr h n with flags := h.flags ||| fl ||| z.2.1 } h.wr n }
      let h := chanOf x.core ch
      if pastEnd h h.wr && !h.shape.cells then advanceOrd x h.shape.tag else x

/-- The COPYDATA of n destination bytes at an address (R267). -/
def copyPacket (x : Site) (h : Chan) (l : Leg) (ch a n data time : Nat) (last : Bool) : Packet × Nat :=
  let p : Packet := { dest := spaceName x h.dspace a l.dname, kind := kCOPYDATA, fmt := h.shape.df, len := ceilDiv n 32
                      arg0 := wordN a, arg1 := wordN (copyArg h ch last), cargo := { bytes := n } }
  if h.kind = .cpyr then
    let (e, k) := dstElems h l h.wr.off n
    let (xs, cs, fl) := contributions h l h.wr.off n data time
    let cargo : Cargo := { bytes := n, bit := e * dstBits h - 8 * h.wr.off, tail := holdsTail l e k, rm := h.shape.rm
                           vals := if h.shape.cells then [] else xs.map packNum }
    ({ p with cargo := cargo, payload := natFlits (if h.shape.cells then packElems 128 cs else Config.badData time a) p.len }, fl)
  else
    let (v, fl) := convertPart h l h.wr.run h.wr.off n data
    ({ p with payload := natFlits v p.len }, fl)
/-- Whether any byte from address lo up to hi of a space is served under a name. -/
def servedBy (x : Site) (space lo hi name name0 : Nat) : Bool :=
  let g := 2 ^ (if space = 2 then regF x 0x063 19 15 else 52)
  decide (lo < hi) && (upto ((hi - 1) / g + 1 - lo / g)).any fun k => spaceName x space ((lo / g + k) * g) name0 == name
/-- Whether a packet of n bytes at the write place is the last of its array to its home: no byte of the array after it has that
home (R267). -/
def lastOf (x : Site) (h : Chan) (n : Nat) : Bool :=
  let l := legAt h h.wr
  let len := dstLen h l
  let at' (r : Nat) : Nat := (dstAt l r).toNat
  let name := spaceName x h.dspace (at' h.wr.run + h.wr.off) l.dname
  !servedBy x h.dspace (at' h.wr.run + h.wr.off + n) (at' h.wr.run + len) name l.dname &&
    (decide (h.dspace = 2) || decide (h.wr.run + 1 = legRuns l)) &&
    (upto (legRuns l - (h.wr.run + 1))).all fun k =>
      let b := at' (h.wr.run + 1 + k)
      !servedBy x h.dspace b (b + len) name l.dname

/-! ### Multicast (R273) -/

/-- Whether a later array of the copy has the home of the one being written (R267). -/
def comesBack (h : Chan) : Bool :=
  (h.legs.drop (h.wr.leg + 1)).any fun l => decide (l.dname = (legAt h h.wr).dname) && decide (legRuns l ≠ 0)
/-- The highest status noted for a tile, whose failing address is the tile's. -/
def noteTile (h : Chan) (dst : Place) (n a st : Nat) : Chan :=
  let h := if st = 0 then notePerformed h dst n else h
  if h.worst < st then { h with worst := st, failAddr := if h.status = 0 then a else h.failAddr } else h
/-- A tile of the root credited: its place in the window is free. -/
def rootCredit (x : Site) (seq st : Nat) : Site :=
  match findOut x.core seq with
  | none => x
  | some o => match o.kind with
    | .copyTile ch dst n =>
      endIfOver (onCore (fun c => modChan (dropOut' c seq) ch fun h => noteTile h dst n (o.pkt.arg0).toNat st) x) ch
    | _ => x
/-- A tile put on the link to a child; where there is none, its sender is told. -/
-- DEDUCED: log 94.
def putTile (s : State) (sid port : Nat) (p : Packet) : State :=
  if port = 5 then (if (bridgeAt sid).isSome then toBridge s sid p else unreach s sid p)
  else if linkUp (getSite s sid) port then putLink s sid port p else unreach s sid p
/-- A tile sent to the children of a router. -/
-- DESIGN CHOICE: log 93.
-- DEDUCED: log 94.
def tileDown (s : State) (sid tree : Nat) (p : Packet) : State :=
  (childPorts (getSite s sid) tree).foldl (fun s port => putTile s sid port p) s
/-- A tile of n destination bytes at an address put in the root's injection buffer (R283). -/
def sendTile (x : Site) (ch a n data time : Nat) : Site :=
  let h := chanOf x.core ch
  let l := legAt h h.wr
  let last := lastOf x h n
  let (p, fl) := copyPacket x h l ch a n data time last
  if !engineRoom x.core ch (1 + p.len) then engineWaits x ch
  else
    let p := { p with dest := coreName x, cargo := { p.cargo with counter := if last then l.dcnt else 0, first := h.wr == {} } }
    onCore (fun c => modChan c ch fun h => { moveWr h n with flags := h.flags ||| fl }) (sendCopy x ch (.copyTile ch h.wr n) p time)
/-- The lines of a COPYDATA's bytes. -/
def copyLines (q : Packet) : List (Nat × Nat) := linePieces (bits q.arg0 20 0) q.cargo.bytes
/-- A tile at a member checked by R267: the status, and the lines to be written. -/
def tileLines (x : Site) (p : Packet) : Nat × List Nat :=
  let a := bits p.arg0 20 0
  let bad := (pagesOf a p.cargo.bytes).any fun v => (homeFault x p (4096 * v) false false true).isSome
  if bad || inFirmwareEntries x a p.cargo.bytes then (3, [])
  else (0, upto (copyLines p).length)
/-- Whether two tiles are of one copy (R268): of one source and handle. -/
-- DESIGN CHOICE: log 185.
def sameCopy (p q : Packet) : Bool := p.src == q.src && bits p.arg1 5 0 == bits q.arg1 5 0
/-- A tile refused or cut short at a member: the copy has not performed there (R268). -/
def noteTileBad (x : Site) (p : Packet) : Site :=
  onRouter (fun r => { r with tileBad := (p.src, bits p.arg1 5 0) :: r.tileBad }) x
def tileWasBad (x : Site) (p : Packet) : Bool := x.router.tileBad.contains (p.src, bits p.arg1 5 0)
/-- The first tile of a copy: what an earlier copy of that handle has left is forgotten. -/
-- DESIGN CHOICE: log 185.
def firstTile (x : Site) (p : Packet) : Site :=
  if p.cargo.first then onRouter (fun r => { r with tileBad := r.tileBad.filter fun e => e != (p.src, bits p.arg1 5 0) }) x else x
/-- Whether two byte ranges meet. -/
def rangesMeet (a b : Nat × Nat) : Bool := decide (a.1 < b.1 + b.2) && decide (b.1 < a.1 + a.2)
/-- Whether a line of a tile may be written: no line it meets is left of a tile that came before (R267). -/
def tileTurn (x : Site) (i j : Nat) : Bool :=
  match x.router.tiles[i]? with
  | none => false
  | some t =>
    let e := (copyLines t.pkt).getD (t.lines.getD j 0) (0, 0)
    (x.router.tiles.take i).all fun u => u.lines.all fun k => !rangesMeet e ((copyLines u.pkt).getD k (0, 0))
/-- Whether every earlier tile of a tile's copy has been written here (R268). -/
def tilesBefore (x : Site) (i : Nat) (t : TileWait) : Bool :=
  (x.router.tiles.take i).all fun u => !sameCopy u.pkt t.pkt || u.lines == []
/-- A line of a tile written at a member, or the tile's status where it meets an uncorrectable word. -/
-- DESIGN CHOICE: log 93.
def tileLine (x : Site) (i j : Nat) (t : TileWait) : Site :=
  let (a, n) := (copyLines t.pkt).getD (t.lines.getD j 0) (0, 0)
  let put (x : Site) (t : TileWait) : Site := onRouter (fun r => { r with tiles := r.tiles.set i t }) x
  let x := onCore (fun c => notePartial c (physOf c a) n) x
  match partialWord x.core a n with
  | some _ => put (noteTileBad (countUes x (partialBads x.core a n) 1) t.pkt) { t with lines := [], status := max t.status 5 }
  | none => put { x with core := (routerWrite x a n (flitsNat t.pkt.payload / 256 ^ (a - bits t.pkt.arg0 20 0) % 256 ^ n)).1 }
      { t with lines := t.lines.eraseIdx j }
/-- Whether a router's core is a member of a tree that takes tiles. -/
def tileMember (x : Site) (tree : Nat) : Bool := treeLocal x tree && x.life == .live && !x.dead
/-- MULTICAST_TILE_ARRIVAL (R273): a tile from the root's own core or from the parent goes on to the children and is to be written
at a member (0), or a line of it is (place of the tile and of the line). It waits for a core that is being switched. A member whose
MSGLEN_MAX it exceeds drops it as malformed and so gives no credit for it (R35). -/
-- DESIGN CHOICE: log 168.
def execMulticastTileArrival (s : State) : Res :=
  let sid := argAt s 0
  if argAt s 2 = 1 then
    match (getSite s sid).router.tiles[argAt s 1]? with
    | some t => if t.lines = [] ∨ !tileTurn (getSite s sid) (argAt s 1) (argAt s 3) then .next s else .next (modSite s sid fun x => tileLine x (argAt s 1) (argAt s 3) t)
    | none => .next s
  else match inputAt s sid (argAt s 1) with
  | none => .next s
  | some (port, p) =>
    let tree := bits p.arg1 25 23
    let x := getSite s sid
    let root := port == 4
    if p.kind ≠ kCOPYDATA ∨ bits p.arg1 18 17 ≠ 3 ∨ (!root && tileMember x tree && evicted x) = true then .next s
    else
      let (s, ok) := if root then (takeInput s sid (argAt s 1), true) else admitInput (takeInput s sid (argAt s 1)) sid port p
      if !ok then .next s
      else if !root && parentPort (getSite s sid) tree != some port then .next (countGuard s sid)
      else
        let x := firstTile (getSite s sid) p
        let mem := !root && tileMember x tree
        if mem && malformed x p then .next (tileDown (setSite s sid (noteTileBad (dropMalformed x p) p)) sid tree p) else
        let (st, lines) := if mem then tileLines x p else (if !root && treeLocal x tree && x.dead then 4 else 0, [])
        let x := if st = 0 then x else noteTileBad x p
        let t : TileWait := { tree := tree, pkt := p, lines := lines, left := (childPorts x tree).length, status := st, root := root
                              counter := if mem then p.cargo.counter else 0 }
        .next (tileDown (setSite s sid (onRouter (fun r => { r with tiles := r.tiles ++ [t] }) x)) sid tree p)

/-- The counter of a multicast at a member: one attempt, once every tile of the copy has been written there, and none where one was
not (R268, R273). -/
def tileCounter (x : Site) (i : Nat) (t : TileWait) (time : Nat) : Site :=
  let put (x : Site) (t : TileWait) : Site := onRouter (fun r => { r with tiles := r.tiles.set i t }) x
  let h := { t.pkt with len := 0, payload := [], counter := t.counter, dest := coreName x }
  if decide (time < t.due) || evicted x || landsOnCounter x.core || !tilesBefore x i t then x
  else if tileWasBad x t.pkt then put x { t with counter := 0 }
  else match decrementNow x t.counter h with
    | .ok x _ => put x { t with counter := 0 }
    | .refused x r _ =>
      if r ≠ rFULL then put x { t with counter := 0, status := max t.status 10 }
      else if t.tries < regF x 0x061 7 0 then put x { t with tries := t.tries + 1, due := retryAt x t.tries time }
      else put x { t with counter := 0, status := max t.status 7 }
/-- A tile that is credited: its parent, or the root's window, is told. The requester of a credit that is lost is the root (R292). -/
def tileCredit (s : State) (sid i : Nat) (t : TileWait) : State :=
  let s := modSite s sid (onRouter fun r => { r with tiles := r.tiles.eraseIdx i })
  let x := getSite s sid
  if t.root then setSite s sid (if takesAnswers x then rootCredit x t.pkt.seq t.status else lateAnswer x)
  else match parentPort x t.tree with
    | some port => putTree s sid port { dest := t.pkt.src, src := treeName x t.tree, kind := kCOPYACK, vc := 1, seq := t.pkt.seq
                                        park := t.pkt.park, ks := bits t.pkt.arg1 5 0 + t.status * 2 ^ 6, origin := sid
                                        ansTo := some t.pkt.origin }
    | none => s
/-- A credit that has reached a router, by a child's link. -/
def creditIn (s : State) (sid : Nat) (p : Packet) : State :=
  modSite s sid (onRouter fun r =>
    match r.tiles.findIdx? fun t => t.pkt.seq == p.seq && t.pkt.src == p.dest with
    | none => r
    | some i => { r with tiles := r.tiles.modify i fun t => { t with left := t.left - 1, status := max t.status (bitsN p.ks 9 6) } })
/-- MULTICAST_CREDIT (R273): a tile's counter is decremented or its credit given (0), or a credit arrives (1). -/
def execMulticastCredit (s : State) : Res :=
  let sid := argAt s 0
  let q := argAt s 1
  if argAt s 2 = 0 then
    match (getSite s sid).router.tiles[q]? with
    | none => .next s
    | some t =>
      if t.left ≠ 0 ∨ t.lines ≠ [] then .next s
      else if t.counter ≠ 0 then .next (modSite s sid fun x => tileCounter x q t s.time)
      else .next (tileCredit s sid q t)
  else match inputAt s sid q with
    | none => .next s
    | some (port, p) =>
      if p.kind ≠ kCOPYACK then .next s
      else
        let (s, ok) := admitInput (takeInput s sid q) sid port p
        .next (if ok then creditIn s sid p else s)

/-- The next line or packet of destination bytes (R266). -/
def serveWrite (s : State) (sid ch : Nat) : State :=
  let x := getSite s sid
  let h := chanOf x.core ch
  let l := legAt h h.wr
  let len := dstLen h l
  let t0 := dstAt l h.wr.run
  let failed (st a : Nat) : State := modSite s sid (onCore fun c => failChan c ch st a)
  if !h.started || h.status != 0 || pastEnd h h.wr then s
  else if !runIn h.dspace t0 len then failed (if h.dspace < 2 then 3 else 1) (truncI t0 64)
  else
    let a := t0.toNat + h.wr.off
    let loc := h.dspace == 0 && h.kind != .cpym
    let n := min (len - h.wr.off) (if loc then 32 - a % 32 else min (longest x) (4096 - a % 4096))
    let r := needs h l h.wr.off n
    match gathered h h.wr r.1 r.2 with
    | none => s
    | some data =>
      if loc then
        setSite s sid (if h.kind = .cpyr then reduceLine x ch a n data s.time else writeLine x ch a n data)
      else if h.kind = .cpym then
        if 8 ≤ (x.core.outs.filter fun o => match o.kind with | .copyTile k _ _ => k == ch | _ => false).length then s
        else setSite s sid (sendTile x ch a n data s.time)
      else
        let last := lastOf x h n
        let (p, fl) := copyPacket x h l ch a n data s.time (last && !comesBack h)
        if !engineRoom x.core ch (1 + p.len) then setSite s sid (engineWaits x ch)
        else
          let x := sendCopy x ch (.copyWrite ch h.wr n last) p s.time
          setSite s sid (onCore (fun c => modChan c ch fun h => { moveWr h n with flags := h.flags ||| fl }) x)
/-- Whether a packet of a copy to a home is still to perform there: unanswered, or refused and to be sent again. -/
def homeOwes (c : Core) (ch name : Nat) : Bool :=
  c.outs.any fun o => match o.kind with | .copyWrite k _ _ _ => k == ch && o.pkt.dest == name | _ => false
/-- The counter packet of a home whose last packet has been answered, once every packet of the copy to it has performed
(R268). -/
def serveCount (x : Site) (ch time : Nat) : Site :=
  let h := chanOf x.core ch
  match h.owed.find? fun k => !homeOwes x.core ch (h.legs.getD k {}).dname with
  | some k =>
    if h.status != 0 then x
    else if !engineRoom x.core ch 1 then engineWaits x ch
    else
      let l := h.legs.getD k {}
      let p : Packet := { dest := l.dname, kind := kCOPYDATA, counter := l.dcnt, fmt := h.shape.df, arg1 := wordN (copyArg h ch false) }
      onCore (fun c => modChan c ch fun h => { h with owed := h.owed.erase k }) (sendCopy x ch (.copyCount ch) p time)
  | none => x
/-- COPY_ENGINE_SERVE (R266): one service of a channel: its start (0), a read (1), a write (2), a counter packet (3), or
its end (4). A core that is being stopped sends nothing (R278). -/
-- DESIGN CHOICE: log 74.
def execCopyEngineServe (s : State) : Res :=
  let sid := argAt s 0
  let ch := argAt s 1
  let x := getSite s sid
  if !chanRuns (chanOf x.core ch) then .next s
  else if argAt s 2 = 4 then .next (setSite s sid (endIfOver x ch))
  else if x.core.evict.st ≠ .run ∨ x.life ≠ .live ∨ x.dead then .next s
  else
    let s := match argAt s 2 with
      | 0 => setSite s sid (serveStart x ch)
      | 1 => setSite s sid (serveRead x ch s.time)
      | 2 => serveWrite s sid ch
      | _ => setSite s sid (serveCount x ch s.time)
    .next (modSite s sid fun x => endIfOver x ch)

/-! ### Answers (R268, R269) -/

/-- The status that a refusal gives a copy. -/
def refusedStatus (o : Outst) (p : Packet) : Nat :=
  let r := refusalOf p
  if p.cargo.status ≠ 0 then p.cargo.status
  else if r = rFULL then 7
  else if r = rINVALID then (match o.kind with | .copyCount _ => 10 | _ => if bit o.pkt.arg1 22 then 8 else 3)
  else if r = rLOST then 9
  else if r = 8 then 3
  else if r = 11 then 5
  else 4
/-- The effect of a REPLY to a copy's packet. -/
-- DEDUCED: log 91.
def copyReply (h : Chan) (k : OKind) (p : Packet) : Chan :=
  let h := { h with flags := h.flags ||| p.cargo.flags }
  match k with
  | .copyRead _ id => { h with pieces := h.pieces.map fun q =>
      if q.id == id then { q with data := some (flitsNat p.payload % 256 ^ q.n) } else q }
  | .copyWrite _ dst n last =>
    let h := notePerformed h dst n
    if last && h.dspace == 1 && (legAt h dst).dcnt != 0 && h.status == 0 then { h with owed := h.owed ++ [dst.leg] } else h
  | _ => h
/-- The effect of a refusal: what its home had done before it refused still counts (R269, R270). -/
def noteRefused (h : Chan) (k : OKind) (p : Packet) : Chan :=
  let h := { h with flags := h.flags ||| p.cargo.flags }
  match k with
  | .copyWrite _ dst _ _ =>
    if h.kind = .cpyr then { h with runs := h.runs + p.cargo.elems }
    else p.cargo.parts.foldl (fun h e => notePerformed h { dst with off := dst.off + e.1 } e.2) h
  | _ => h
/-- An answer to a packet of a copy. -/
def copyAnswer (x : Site) (o : Outst) (ch : Nat) (p : Packet) (time : Nat) : Site :=
  let h := chanOf x.core ch
  let r := refusalOf p
  let gone := onCore (fun c => dropOut' c o.seq) x
  if p.kind = kREPLY then endIfOver (onCore (fun c => modChan c ch fun h => copyReply h o.kind p) gone) ch
  else if h.status == 0 && r == rRETRY then planRetry x o.seq time false
  else if h.status == 0 && r == rFULL && decide (o.full < regF x 0x061 7 0) then planRetry x o.seq time true
  else
    let a := match o.kind with | .copyCount _ => 0 | _ => o.pkt.arg0.toNat
    let gone := onCore (fun c => modChan c ch fun h => noteRefused h o.kind p) gone
    endIfOver (onCore (fun c => failChan c ch (refusedStatus o p) a) gone) ch
/-- COPY_ANSWER (R269): an answer to a copy's packet; one to a multicast tile stands for its credit. -/
def execCopyAnswer (s : State) : Res :=
  .next (modSite s (argAt s 0) fun x =>
    match nextArrival x with
    | none => x
    | some p =>
      if !isAnswer p.kind || !takesAnswers x || malformed x p then x
      else match findOut x.core p.seq with
        | none => x
        | some o => match o.kind, o.kind.chan? with
          | .copyTile _ _ _, _ => rootCredit (popArrival x) o.seq (refusedStatus o p)
          | _, some ch => copyAnswer (popArrival x) o ch p s.time
          | _, none => x)

/-! ### COPYDATA at its home (R267, R271, R272) -/

/-- A refusal of a COPYDATA with the status it gives, and what has been done of it: bytes, elements and flags. -/
def copyNack (x : Site) (q : Packet) (r st : Nat) (done : Cargo := {}) : Site :=
  onCore (fun c => injectAns c x.id { answerPkt x q kNACK r 0 with cargo := { done with status := st } }) x
/-- A COPYDATA performed: its answer, and the turn of the next contribution. -/
def copyPerformed (x : Site) (q : Packet) (fl : Nat) : Site :=
  let x := onCore (fun c => injectAns { c with landing := none } x.id { answerPkt x q kREPLY 3 0 with cargo := { flags := fl } }) x
  if bits q.arg1 18 17 = 1 ∧ bits q.arg1 21 21 = 1 then advanceOrd x (pktTag q) else x
/-- The bytes of the destination that a COPYDATA updates. -/
def copySpan (q : Packet) : Nat :=
  if bits q.arg1 18 17 = 1 then max q.cargo.bytes (ceilDiv (q.cargo.bit + fmtBits q.fmt * q.cargo.vals.length) 8) else q.cargo.bytes
/-- The uncorrectable words that a COPYDATA's updates, or its writes of part of a word, would read: it is refused before it writes
anything (R332). -/
-- DESIGN CHOICE: log 170.
def copyBads (c : Core) (q : Packet) : List Nat :=
  if bits q.arg1 18 17 = 0 then (copyLines q).flatMap fun e => partialBads c e.1 e.2 else runBads c (bits q.arg0 20 0) (copySpan q)
/-- One of the lines left of a COPYDATA (R331). What would refuse it is looked for before its first line, and its pages stay as they
are until its last (R315); a word that is lost between the two refuses what is left. -/
-- DESIGN CHOICE: log 170.
def copyLine (x : Site) (l : Landing) (i : Nat) : Site :=
  let q := l.pkt
  let off := bits q.arg0 20 0
  let cls := bits q.arg1 18 17
  let loggia := bit q.arg1 22
  let j := l.left.getD i 0
  let (a, n) := (copyLines q).getD j (off, 0)
  let gone := ((upto (copyLines q).length).filter fun k => !l.left.contains k).map fun k => (copyLines q).getD k (off, 0)
  let span := copySpan q
  let part (k : Nat) : Cargo := { parts := gone.map fun e => (e.1 - off, e.2), elems := l.elems + k, flags := l.acc }
  let stop (x : Site) : Site := onCore (fun c => { c with landing := none }) x
  let bad := (pagesOf off span).any fun v => (homeFault x q (4096 * v) loggia false true).isSome
  if bad || inFirmwareEntries x off span then
    copyNack (stop x) q rINVALID (if loggia then 8 else 3) (part 0)
  else if l.left.length = (copyLines q).length ∧ copyBads x.core q ≠ [] then copyNack (stop (countUes x (copyBads x.core q) 1)) q 11 0
  else
    let x := if cls = 0 then onCore (fun c => notePartial c (physOf c a) n) x else x
    let z : Core × Nat × Option Nat × Nat :=
      if cls = 1 then
        updateRange x.core x.core.tdec q.fmt (bits q.arg1 20 19) q.cargo.rm off q.cargo.bit (fmtBits q.fmt) a (a + n) false q.cargo.tail
          (q.cargo.vals.map unpackNum) []
      else if cls = 2 then
        let k := q.cargo.bytes / 16
        updateRange x.core [] 0 (bits q.arg1 20 19) 0 off 0 128 a (a + n) true false (List.replicate k (.fin false 0 0))
          ((upto k).map fun i => elemAt (flitsNat q.payload) 128 i)
      else match partialWord x.core a n with
        | some w => (x.core, 0, some w, 0)
        | none => (writeLocal x.core a n (flitsNat q.payload / 256 ^ (a - off) % 256 ^ n), 0, none, 0)
    match z.2.2.1 with
    | some _ => copyNack (stop (countUes { x with core := z.1 } (runBads x.core a n) 1)) q 11 0 { part z.2.2.2 with flags := l.acc ||| z.2.1 }
    | none =>
      let x := { x with core := z.1 }
      if 1 < l.left.length then
        onCore (fun c => { c with landing := some { l with left := l.left.eraseIdx i, acc := l.acc ||| z.2.1, elems := l.elems + z.2.2.2 } }) x
      else copyPerformed x q (l.acc ||| z.2.1)
/-- A COPYDATA taken: its lines are to be written, or it is held or refused by its ordinal (R272). -/
def copyTaken (x : Site) (q : Packet) : Site :=
  let ahead := ordAhead x (pktOrd q) (pktTag q)
  if bits q.arg1 18 17 ≠ 1 ∨ ahead = 0 then
    if copyLines q = [] then copyPerformed x q 0
    else onCore (fun c => { c with landing := some { pkt := q, left := upto (copyLines q).length } }) x
  else if 128 ≤ ahead then copyNack x q rINVALID 11
  else match reserve x.core (1 + q.len) with
    | (c, some id) => { x with core := { c with landing := some { pkt := q, left := upto (1 + q.len), copy := some id } } }
    | (_, none) => copyNack x q rFULL 0
/-- A contribution held, all of its flits in the mailbox, until its turn, which may have come meanwhile (R272). -/
def holdOrd (l : Option Landing) (x : Site) : Site :=
  match l with
  | some l => takeHeld (onCore (fun c => { c with ordHeld := c.ordHeld ++ [{ pkt := l.pkt, copy := l.copy.getD 0 }] }) x) (pktTag l.pkt)
  | none => x
/-- COPYDATA_ARRIVAL (R267): one of the lines left of the packet being written, or of the flits of one to be held, a held contribution whose turn has come, or a
packet that has arrived. -/
def execCopydataArrival (s : State) : Res :=
  .next (modSite s (argAt s 0) fun x =>
    match x.core.landing, x.core.ordReady, nextArrival x with
    | some l, _, _ =>
      if l.pkt.kind ≠ kCOPYDATA then x
      else if l.copy.isSome then landFlit l (argAt s 1) holdOrd x else copyLine x l (argAt s 1)
    | none, q :: rest, none =>
      if !turnReady x.core then x else copyTaken (onCore (fun c => { c with ordReady := rest }) x) q
    | none, _, some q =>
      if q.kind ≠ kCOPYDATA ∨ (q.len = 0 ∧ q.counter ≠ 0) then x
      else if malformed x q then dropMalformed (popArrival x) q
      else if refuses x q then homeNack (popArrival x) q rRETRY 0
      else copyTaken (popArrival x) q
    | none, [], none => x)
/-- COPY_COUNTER_PACKET (R268): a counter decremented by a copy's packet. -/
-- DEDUCED: log 91.
def execCopyCounterPacket (s : State) : Res :=
  .next (modSite s (argAt s 0) fun x =>
    match nextArrival x with
    | none => x
    | some q =>
      if q.kind ≠ kCOPYDATA ∨ q.len ≠ 0 ∨ q.counter = 0 then x
      else if malformed x q then dropMalformed (popArrival x) q
      else if refuses x q then homeNack (popArrival x) q rRETRY 0
      else match decrementNow (popArrival x) q.counter q with
        | .ok x _ => reply x q 3 0
        | .refused x r d => homeNack x q r d)

/-! ### Issue (R257, R263, R275) -/

/-- The state word of a feed register bound to a handle (R175). -/
def feedWord (esize ch : Nat) : Word := wordN (1 + esize * 2 + ch * 2 ^ 3)
/-- A feed register of a context, or of a SAVED strand, written. -/
def deliverF (c : Core) (key k : Nat) (v : Word) : Core :=
  match savedOf c key with
  | some page => frameWrite c (page * 4096 + 0xF0 + 8 * k) 8 v.toNat
  | none => modCtxOf c key fun x => { x with f := tset x.f k v }
/-- A feed register of a context, or in a SAVED strand's frame. -/
def feedReg (c : Core) (key k : Nat) : Word :=
  match savedOf c key with
  | some page => wordN (frameWord c (page * 4096 + 0xF0 + 8 * k) 8)
  | none => tget 0 (ctxOf c key).f k
/-- The copy that a bound feed register is bound to: its channel's, or the one that had its channel before (R175). -/
-- DEDUCED: log 89.
def feedChan (c : Core) (key k : Nat) : Chan := (tget? (strandOf c key).pastFeeds k).getD (chanOf c (bits (feedReg c key k) 8 3))
/-- The contexts of a core: its strands, SAVED or not, and the supervisor context. -/
def contextKeys (c : Core) : List Nat := supKey :: c.groups.flatMap fun e => e.2.live.map fun i => 16 * e.1 + i
/-- The feed registers bound to the last copy of a channel keep it when another copy takes the channel (R175). -/
def keepFeeds (c : Core) (ch : Nat) : Core :=
  let h := chanOf c ch
  if h.kind ≠ .cpys then c
  else (contextKeys c).foldl (fun c key => (upto 8).foldl (fun c k =>
    let w := feedReg c key k
    if bit w 0 && bits w 8 3 == ch && (tget? (strandOf c key).pastFeeds k).isNone then
      modStrand c key fun st => { st with pastFeeds := tset st.pastFeeds k h }
    else c) c) c
/-- A copy given the lowest channel that none occupies, its handle written and its feed register bound (R257, R276). -/
def beginCopy (c : Core) (h : Chan) (key d : Nat) : Core :=
  let ch := ((upto 48).find? fun k => !(chanOf c k).busy).getD 0
  let c := keepFeeds c ch
  let c := deliverG { c with chans := tset c.chans ch { h with busy := true, ended := false } } key d (wordN ch)
  match h.feed with
  | some k => deliverF (modStrand c key fun st => { st with pastFeeds := terase st.pastFeeds k }) key k (feedWord h.esize ch)
  | none => c
/-- Whether a group may start a copy. -/
-- DEDUCED: log 77.
def chanFree (c : Core) (g : Nat) : Bool := decide (occupied c g < ((groupOf c g).getD { uid := 0 }).chans)
/-- A copy that has waited for a channel is started, and its strand goes on (R257). -/
-- DEDUCED: log 21.
-- DEDUCED: log 77.
def resumeCopy (x : Site) (key : Nat) : Site :=
  match (strandOf x.core key).wait, (strandOf x.core key).job with
  | .channel d, some h =>
    if chanFree x.core h.grp then
      onCore (fun c => endWait (modStrand (beginCopy c h key d) key fun st => { st with job := none }) key true) x
    else if ((groupOf x.core h.grp).getD { uid := 0 }).chans = 0 then
      recordTrap x key { cause := 0x0B, pc := h.pc, info := 14 }
    else x
  | _, _ => x
/-- The last step of issue: the channel (R257). The LFSR steps once for each destination element (R265). -/
def startCopy (d : Nat) (h : Chan) (s : State) : Res :=
  let g := actGrp s
  let key := curKey s
  let steps := h.legs.foldl (fun n l => n + legRuns l * (if cellsDst h then legElems l else runSteps h.shape.df (legElems l))) 0
  if (actGroupVal s).chans = 0 then copyTrap 14 0 s
  else
    let h := { h with grp := g, uid := (actGroupVal s).uid, key := key, pc := curPc s, lfsr := lfsrOf s
                      startAcc := (curSite s).core.accIds }
    let s := if h.shape.rm = 5 then modCurCtx s fun x => { x with lfsr := wordN (lfsrSteps steps (lfsrOf s)) } else s
    if chanFree (curSite s).core g then done 8 (onCur (fun c => beginCopy c h key d) s)
    else .next (onCur (fun c => modStrand (setWait c key (.channel d) 8) key fun st => { st with job := some h }) s)

/-- A dimension of a shape block. -/
def dimOf (v : Nat) : Nat × Int × Int := (bitsN v 31 0, sext (bitsN v 79 32) 48, sext (bitsN v 127 80) 48)
/-- A shape block's header and dimensions; whether it is invalid for every copy (R263). -/
def shapeOf (v : Nat) : Shape :=
  { sf := bitsN v 8 4, df := bitsN v 13 9, rm := bitsN v 16 14, cells := bitN v 17, rop := bitsN v 19 18
    ackcnt := bitsN v 69 64, ord := bitsN v 83 76, tag := bitsN v 86 84 }
def dimsOf (v : Nat) : List (Nat × Int × Int) := (upto (bitsN v 3 0 + 1)).map fun k => dimOf (v / 2 ^ (128 * (k + 1)))
def shapeBad (v : Nat) : Bool :=
  let sh := shapeOf v
  let d0 := dimOf (v / 2 ^ 128)
  bitsN v 63 20 != 0 || bitsN v 127 87 != 0 || d0.2.1 != 0 || d0.2.2 != 0 || decide (28 ≤ sh.sf) || decide (28 ≤ sh.df) ||
    sh.rm == 7 || sh.rop == 3
/-- Whether CELLS and the formats do not suit the kind of copy (R271). -/
def classBad (kind : CKind) (sh : Shape) : Bool :=
  if kind = .cpyr then
    if sh.cells then !(decide (8 ≤ sh.sf) && decide (sh.sf ≤ 25) && sh.df == 0) else decide (8 ≤ sh.df) || sh.rm == 5
  else sh.cells && sh.sf != 0
/-- The block at an address read at issue (R263). -/
def readBlock (ea stream n : Nat) (s : State) (body : Nat → State → Res) : Res :=
  match runFault s ea n 16 stream false with
  | some t => .next (takeTrap s t)
  | none => match issueRead s ea n stream with
    | (s, .error t) => .next (takeTrap s t)
    | (s, .ok v) => body v s
/-- The first base or stride that is not aligned, as MISALIGNED (R264, R271). -/
-- DEDUCED: log 79.
-- DEDUCED: log 85.
def copyAlign (h : Chan) (l : Leg) (s : State) : Option TrapVal :=
  let al := max (runAlign h.shape.sf) (runAlign h.shape.df)
  let sa := if cellsSrc h then 16 else al
  let da := if cellsDst h then 16 else al
  let bad (wr : Bool) (a : Nat) : TrapVal := accTrap .misaligned wr h.stream 0 a (curPc s)
  if l.sbase % sa ≠ 0 then some (bad false l.sbase)
  else if l.dbase % da ≠ 0 then some (bad true l.dbase)
  else l.dims.tail.findSome? fun d =>
    if d.2.1 % (sa : Int) ≠ 0 then some (bad false l.sbase)
    else if d.2.2 % (da : Int) ≠ 0 then some (bad true l.dbase) else none
/-- The destination runs of a CPYS checked for writing (R276). -/
-- DEDUCED: log 85.
def feedRuns (h : Chan) (l : Leg) (s : State) : Option TrapVal :=
  (upto (legRuns l)).findSome? fun r =>
    let a := dstAt l r
    if a < 0 then some (accTrap (.access 4) true h.stream 0 (truncI a 64) (curPc s))
    else runFault s a.toNat (dstLen h l) 1 h.stream true
/-- An address register read in a space (R259): the address, and the name or host port. -/
def spaceAddr (space : Nat) (w : Word) : Nat × Nat :=
  if space < 2 then (bits w 20 0, bits w 51 32) else (bits w 51 0, bits w 53 52)
/-- CPY, CPYR, CPYM and CPYS, their block read (R275). -/
-- DEDUCED: log 78.
def copyIssue (kind : CKind) (d a b ss ds c t e ea stream v : Nat) (s : State) : Res :=
  let (sb, sn) := spaceAddr ss (readG s a)
  let (db, dn) := spaceAddr ds (readG s b)
  let l : Leg := { sbase := sb, sname := sn, dbase := db, dname := dn, dims := dimsOf v, dcnt := bitsN v 75 70 }
  let h : Chan := { kind := kind, shape := shapeOf v, legs := [l], sspace := ss, dspace := ds, stream := stream, scope := c
                    tree := if kind = .cpym then t else 0, esize := e, feed := if kind = .cpys then some t else none }
  let x := curSite s
  if shapeBad v || classBad kind h.shape then copyTrap 13 ea s
  else if kind = .cpys ∧ legRuns l ≠ 0 ∧ dstLen h l % 2 ^ e ≠ 0 then copyTrap 13 ea s
  else if kind = .cpym ∧ (treeParent x t ≠ 0 ∨ !treeLocal x t) then copyTrap 12 0 s
  else match copyAlign h l s with
    | some v => .next (takeTrap s v)
    | none => match (if kind = .cpys then feedRuns h l s else none) with
      | some v => .next (takeTrap s v)
      | none => startCopy d h s
/-- A copy whose shape block is at gs: first its header's 16 bytes, then the whole of it. -/
def copyWith (kind : CKind) (d a b g ss ds stream c t e : Nat) (s : State) : Res :=
  let ea := (readG s g).toNat
  match runFault s ea 16 16 stream false with
  | some v => .next (takeTrap s v)
  | none =>
    let n := 32 + 16 * (readLocal (curSite s).core ea 1 % 16)
    readBlock ea stream n s (copyIssue kind d a b ss ds c t e ea stream)
/-- CPY (R263 to R270). -/
def execCpy (d a b g ss ds st c : Nat) (s : State) : Res :=
  issue (.cpy d a b g ss ds st c) s (copyWith .cpy d a b g ss ds st c 0 0)
/-- CPYR (R271, R272). -/
def execCpyr (d a b g ss ds st c : Nat) (s : State) : Res :=
  issue (.cpyr d a b g ss ds st c) s (copyWith .cpyr d a b g ss ds st c 0 0)
/-- CPYM (R273). -/
-- DEDUCED: log 78.
def execCpym (d a b g ss st c t : Nat) (s : State) : Res :=
  issue (.cpym d a b g ss st c t) s (copyWith .cpym d a b g ss 0 st c t 0)
/-- CPYS (R276). -/
def execCpys (e d a b g ss st c k : Nat) (s : State) : Res :=
  issue (.cpys e d a b g ss st c k) s (copyWith .cpys d a b g ss 0 st c k e)

/-- The slab of a direction: its first x and y, and its extents in x and y (R274). -/
-- DEDUCED: log 86.
def slabOf (dir X Y H : Nat) : Nat × Nat × Nat × Nat :=
  match dir with
  | 0 => (0, 0, X, H)
  | 1 => (X - H, 0, H, Y)
  | 2 => (0, Y - H, X, H)
  | _ => (0, 0, H, Y)
/-- The array of a direction's slab. -/
-- DEDUCED: log 86.
def slabLeg (x : Site) (v base dir : Nat) : Leg :=
  let X := bitsN v 79 64
  let Y := bitsN v 95 80
  let Z := bitsN v 111 96
  let size := fmtBits (bitsN v 6 2) / 8
  let (x0, y0, nx, ny) := slabOf dir X Y (bitsN v 14 7)
  let w := v / 2 ^ (128 + 64 * dir) % 2 ^ 64
  let name := reg x (0x078 + dir) % 2 ^ 20
  { sbase := base + (y0 * X + x0) * size, dbase := bitsN w 20 0, dname := name, dcnt := bitsN w 26 21
    dims := [(nx, 0, 0), (ny, ((X * size : Nat) : Int), ((nx * size : Nat) : Int)),
             (Z, ((X * Y * size : Nat) : Int), ((nx * ny * size : Nat) : Int))] }
/-- Whether a HALO descriptor is invalid for some directions (R274). -/
def haloBad (v dirs : Nat) : Bool :=
  let nd := bitsN v 1 0
  let f := bitsN v 6 2
  let H := bitsN v 14 7
  let X := bitsN v 79 64
  let Y := bitsN v 95 80
  let Z := bitsN v 111 96
  let ns := bitN dirs 0 || bitN dirs 2
  let ew := bitN dirs 1 || bitN dirs 3
  nd == 3 || decide (28 ≤ f) || isBlock f || !(fmtBits f == 8 || fmtBits f == 16 || fmtBits f == 32) || H == 0 ||
    (ns && decide (Y < H)) || (ew && decide (X < H)) || bitsN v 63 15 != 0 || X == 0 || Y == 0 || Z == 0 ||
    (nd == 0 && Y != 1) || (decide (nd ≤ 1) && Z != 1) || bitsN v 127 112 != 0 ||
    ((upto 4).any fun k => v / 2 ^ (128 + 64 * k + 27) % 2 ^ 37 != 0) || (ns && nd == 0)
/-- HALO (R274). -/
def execHalo (d a b dirs st : Nat) (s : State) : Res :=
  issue (.halo d a b dirs st) s fun s =>
    let ea := (readG s b).toNat
    readBlock ea st 48 s fun v s =>
      let f := bitsN v 6 2
      let x := curSite s
      let legs := ((upto 4).filter (bitN dirs)).map (slabLeg x v (bits (readG s a) 20 0))
      let h : Chan := { kind := .halo, shape := { sf := f, df := f }, legs := legs, dspace := 1, stream := st, scope := 5 }
      if haloBad v dirs then copyTrap 13 ea s
      else if bits (readG s a) 20 0 % runAlign f ≠ 0 then .next (takeTrap s (accTrap .misaligned false st 0 (bits (readG s a) 20 0) (curPc s)))
      else match legs.find? fun l => l.dbase % runAlign f != 0 with
        | some l => .next (takeTrap s (accTrap .misaligned true st 0 l.dbase (curPc s)))
        | none => startCopy d h s

/-! ### CPYW, CPYQ, CPYX (R277) -/

/-- The channel of a handle that belongs to the group (R258). -/
def ourChan (s : State) (n : Nat) : Option Chan :=
  match tget? (curSite s).core.chans n with
  | some h => if n < 48 ∧ (actGroup s).isSome ∧ h.uid = (actGroupVal s).uid then some h else none
  | none => none
/-- COPY_FAULT subcode 15 with the handle. -/
def notOurs (n : Nat) (s : State) : Res := trapHere s 0x0B (15 + n % 64 * 2 ^ 4)
/-- CPYW: waits for a copy's end (R277). -/
def execCpyw (d a : Nat) (s : State) : Res :=
  issue (.cpyw d a) s fun s =>
    let n := (readG s a).toNat
    match ourChan s n with
    | none => notOurs n s
    | some h =>
      if !h.ended then .next (onCur (fun c => setWait c (curKey s) (.copyEnd n d) 8) s)
      else if h.status ≠ 0 then .next (takeTrap s (statusVal h n (curPc s)))
      else done 8 (writeG s d (resultWord h))
/-- CPYQ: a copy's result word at once (R277). The flags and the count of a copy that has not ended are not fixed. -/
-- DESIGN CHOICE: log 87.
def execCpyq (d a : Nat) (s : State) : Res :=
  issue (.cpyq d a) s fun s =>
    let n := (readG s a).toNat
    match ourChan s n with
    | none => done 8 (writeG s d 0)
    | some h =>
      if h.ended then done 8 (writeG s d (resultWord h))
      else done 8 (writeG s d (wordN (h.status + 2 ^ 5 + Config.badData s.time n % 64 * 2 ^ 8 +
        Config.badData s.time (64 + n) % 2 ^ 32 * 2 ^ 32)))
/-- CPYX: a copy cancelled (R277). -/
-- DEDUCED: log 76.
def execCpyx (a : Nat) (s : State) : Res :=
  issue (.cpyx a) s fun s =>
    let n := (readG s a).toNat
    match ourChan s n with
    | none => notOurs n s
    | some _ => done 8 (modSite s (curSid s) fun x => endIfOver (onCore (fun c => cancelChan c n) x) n)

/-! ### FPOP and FPOPV (R175, R176) -/

/-- The destination bytes of a copy, and those that have been written. -/
def feedTotal (h : Chan) : Nat := legRuns (h.legs.headD {}) * dstLen h (h.legs.headD {})
def feedArrived (h : Chan) : Nat :=
  if !h.started then 0 else if pastEnd h h.wr then feedTotal h else h.wr.run * dstLen h (h.legs.headD {}) + h.wr.off
/-- The address of a destination byte in run order. -/
def feedAddr (h : Chan) (b : Nat) : Nat :=
  let l := h.legs.headD {}
  let n := dstLen h l
  (dstAt l (b / n)).toNat + b % n
/-- Elements of a copy's destination read: the site, and the value or the uncorrectable word met and its address. -/
-- DESIGN CHOICE: log 90.
def feedRead (x : Site) (h : Chan) (time e lo hi : Nat) : Site × Except (Nat × Nat) Nat :=
  (upto (hi - lo)).foldl (fun r i =>
    match r.2 with
    | .error u => (r.1, .error u)
    | .ok v =>
      let a := feedAddr h ((lo + i) * e)
      if !((pagesOf a e).all fun p => eValid (pmapAt r.1.core p)) then (r.1, .ok (v + Config.badData time a % 256 ^ e * 256 ^ (e * i)))
      else
        let x := onCore (fun c => noteRun c a e) r.1
        match badRun x.core a e with
        | some u => (countUes x (runBads x.core a e) 0, .error (u, a))
        | none => (x, .ok (v + readRun x.core a e * 256 ^ (e * i)))) (x, .ok 0)
/-- The index past the last element that an instruction of n elements takes. -/
-- DEDUCED: log 88.
def feedWant (h : Chan) (e next n : Nat) : Nat := min (next + n) (feedTotal h / e)
/-- What a pop comes to: the register is not bound, its elements have not come, its copy has ended with a fault before they came
(with TRAP_INFO), an uncorrectable word at an address, or the elements. -/
inductive FeedGot where
  | unbound | absent
  | fault (info : Nat)
  | bad (x : Site) (word a : Nat)
  | got (x : Site) (v : Nat)
  deriving DecidableEq, Repr

/-- FPOP (one element) or FPOPV (128 bytes) of feed register k of a context, wherever its registers are (R176). -/
-- DEDUCED: log 88.
-- DEDUCED: log 89.
-- DESIGN CHOICE: log 147.
def feedTake (x : Site) (key k : Nat) (vec : Bool) (time : Nat) : FeedGot :=
  let w := feedReg x.core key k
  let h := feedChan x.core key k
  let e := 2 ^ bits w 2 1
  let next := bits w 63 32
  let want := feedWant h e next (if vec then 128 / e else 1)
  if !bit w 0 then .unbound
  else if feedArrived h < want * e then (if h.ended && h.status != 0 then .fault (statusInfo h (bits w 8 3)) else .absent)
  else match feedRead x h time e next want with
    | (x, .error (u, a)) => .bad x u a
    | (x, .ok v) =>
      let w := setBits (setBits w 63 32 want) 0 0 (if want = feedTotal h / e then 0 else 1)
      let v := if want ≤ next ∧ vec = false then Config.badData time k % 256 ^ e else v
      .got (onCore (fun c => deliverF c key k w) x) v
/-- FPOP or FPOPV issued. -/
-- DESIGN CHOICE: log 147.
def feedPop (vec : Bool) (k d : Nat) (s : State) : Res :=
  match feedTake (curSite s) (curKey s) k vec s.time with
  | .unbound => trapHere s 0x0F k
  | .absent => .next (onCur (fun c => setWait c (curKey s) (.feed vec k d) 4) s)
  | .fault info => trapHere s 0x0B info
  | .bad x _ a => trapHere (setSite s (curSid s) x) 0x13 (1 + a % 2 ^ 32 * 2 ^ 32)
  | .got x v =>
    let s := setSite s (curSid s) x
    done 4 (if vec then modCurCtx s fun c => vSet c d (BitVec.ofNat 1024 v) else writeG s d (wordN v))
/-- Whether what a feed wait is for has come: the elements, the fault of their copy, or the end of the binding. -/
def feedOver (c : Core) (key k : Nat) (vec : Bool) : Bool :=
  let w := feedReg c key k
  let h := feedChan c key k
  let e := 2 ^ bits w 2 1
  !bit w 0 || decide (feedWant h e (bits w 63 32) (if vec then 128 / e else 1) * e ≤ feedArrived h) || (h.ended && h.status != 0)
/-- A feed wait ends, its strand SAVED or not: the result is delivered, or the trap kept for it (R112, R121, R176). -/
def wakeFeed (x : Site) (key k : Nat) (vec : Bool) (d time : Nat) : Site :=
  let trap (x : Site) (cause info : Nat) : Site := recordTrap (onCore (fun c => seeFrame c key 0 8) x) key { cause := cause, pc := pcOf x.core key, info := wordN info }
  match feedTake x key k vec time with
  | .unbound => trap x 0x0F k
  | .absent => x
  | .fault info => trap x 0x0B info
  | .bad x _ a => trap x 0x13 (1 + a % 2 ^ 32 * 2 ^ 32)
  | .got x v => onCore (fun c => endWait (if vec then deliverV c key d (BitVec.ofNat 1024 v) else deliverG c key d (wordN v)) key true) x
/-- FPOP: the next element of a bound copy (R176). -/
def execFpop (d a : Nat) (s : State) : Res := issue (.fpop d a) s (feedPop false a d)
/-- FPOPV: up to 128 bytes of elements of a bound copy (R176). -/
def execFpopv (d a : Nat) (s : State) : Res := issue (.fpopv d a) s (feedPop true a d)

end Sys2Proof.Machine
end

