-- ==== Sys2Proof/Machine/Ports.lean ====
section
/-! DEFINITION. Memory and host ports: translation, requests and answers, and the operations of management cores on
them (R260 to R262, R312, R330). -/

namespace Sys2Proof.Machine

/-! ### Translation (R261) -/

/-- What a translation comes to: an address with the translation, a status 1 or 2, or an uncorrectable table word. -/
inductive Walk where
  | at (phys : Nat) (by' : Cached)
  | status (k : Nat)
  | uncorrectable
  deriving DecidableEq, Repr

/-- The bits of an address that a leaf at a level leaves untranslated. -/
def pageBits (level : Nat) : Nat := 12 + 10 * level
/-- An address through a cached or walked translation, by its permissions. -/
def throughLeaf (c : Cached) (a : Nat) (wr : Bool) : Walk :=
  if !(if wr then c.w else c.r) then .status 2
  else .at (c.ppn * 4096 + a % 2 ^ pageBits c.level) c
/-- The walk from a table at a level, k levels above the last one. -/
def walkFrom (m : Mem) (bad : List Nat) (park a : Nat) (wr : Bool) : Nat → Nat → Walk
  | 0, _ => .status 1
  | k + 1, table =>
    let lo := pageBits k
    let ea := table * 4096 + 8 * bitsN a (lo + 9) lo
    match badIn bad ea 8 with
    | some _ => .uncorrectable
    | none =>
      let e := mread m ea 8
      if !bitN e 0 || bitsN e 11 4 != 0 || bitsN e 63 52 != 0 then .status 1
      else if k = 3 ∧ bitN e 3 = true then .status 1
      else if k = 0 ∨ bitN e 3 = true then
        if bitsN e 51 12 % 2 ^ (10 * k) ≠ 0 then .status 1
        else throughLeaf { park := park, level := k, vpn := a / 2 ^ lo, ppn := bitsN e 51 12, r := bitN e 1, w := bitN e 2 } a wr
      else walkFrom m bad park a wr k (bitsN e 51 12)
/-- A fresh walk of a park's table. -/
-- DEDUCED: log 100.
def walk (u : Port) (park a : Nat) (wr : Bool) : Walk :=
  let root := (tget 0 u.roots park).toNat
  if !bitN root 0 then .status 1 else walkFrom u.mem u.bad park (a % 2 ^ 52) wr 4 (bitsN root 51 12)
/-- A translation kept: the oldest goes where 4,096 are kept. -/
-- DESIGN CHOICE: log 104.
def keep (u : Port) (c : Cached) : Port := { u with cache := (c :: u.cache.filter fun e => e != c).take 4096 }
/-- The cached translation number k where it serves an address of a park. -/
-- DESIGN CHOICE: log 104.
def cachedAt (u : Port) (k park a : Nat) : Option Cached :=
  match u.cache[k]? with
  | some c => if c.park = park ∧ c.vpn = a % 2 ^ 52 / 2 ^ pageBits c.level then some c else none
  | none => none

/-! ### Requests (R261, R312) -/

/-- A port's answer to a packet, sent from its rim site. -/
def portSend (s : State) (p : Nat) (q : Packet) (kind ks : Nat) (arg0 : Word) (payload : List Flit) (status : Nat) : State :=
  let sid := portSite p
  injectEdge s sid { dest := q.src, src := q.dest, kind := kind, vc := 1, scope := 5, seq := q.seq, park := q.park, ks := ks
                     arg0 := arg0, len := payload.length, payload := payload, ansTo := some q.origin, origin := sid
                     cargo := { status := status } }
def portNack (s : State) (p : Nat) (q : Packet) (r d status : Nat) : State := portSend s p q kNACK (r + d * 16) 0 [] status
/-- A request that no port performs: refused NOTARGET, or reported to the sender of a DATA packet (R312). -/
def noTarget (s : State) (p : Nat) (q : Packet) : State :=
  if q.kind = kDATA then
    if isNull q.src then s
    else injectEdge s (portSite p) (posted (portSite p) (faultRep q.dest (portSite p) q 10 0))
  else if q.kind = kRLOAD ∨ q.kind = kRSTORE ∨ q.kind = kRATOMIC ∨ q.kind = kINVOKE ∨ q.kind = kCOPYDATA then portNack s p q 10 0 0
  else s
/-- The bytes of a request. -/
def portBytes (q : Packet) : Nat := if q.kind = kRLOAD then bits q.arg1 19 8 else q.cargo.bytes
/-- The aligned words of 8 bytes that n bytes at an address touch (R331), and the part of them in word k: its address and length. -/
def portWords (a n : Nat) : Nat := (a + n + 7) / 8 - a / 8
def portPiece (a n k : Nat) : Nat × Nat :=
  let lo := max a (8 * (a / 8 + k))
  (lo, min (a + n) (8 * (a / 8 + k) + 8) - lo)
/-- Whether a port performs a request. -/
-- DEDUCED: log 101.
def portTakes (q : Packet) : Bool :=
  (q.kind == kRLOAD && bits q.arg1 5 5 == 1) || (q.kind == kCOPYDATA && q.len != 0 && bits q.arg1 18 17 == 0)
/-- A request translated: refused, or put among those in flight. -/
-- DEDUCED: log 100.
def portTranslate (s : State) (p : Nat) (q : Packet) (w : Walk) (via : Bool) : State :=
  match w with
  | .status k => portNack s p q 8 (if k = 1 then 1 else 3) k
  | .uncorrectable => portNack s p q 11 0 0
  | .at a c => modPort s p fun u =>
      let u := if via then u else keep u c
      { u with reqs := u.reqs ++ [{ pkt := q, phys := a, left := upto (portWords a (portBytes q)) }] }
/-- A management core's read of PORT_ROOT, or an access to PORT_CMD that discards nothing, answered (R262). -/
def portOpAnswer (s : State) (p : Nat) (q : Packet) (v : Word) : State :=
  let sid := portSite p
  send2 s sid { kind := kMGMT, vc := 2, dest := siteWord q.origin, src := nullCore, arg0 := v, ansTo := some q.origin, origin := sid
                mgmt := .portOpAnswer }
/-- The register, the operation and the park of a port operation. -/
-- DEDUCED: log 103.
def opReg (q : Packet) : Nat := bits q.arg0 11 0
def opKind (q : Packet) : Nat := bits q.arg0 13 12
def opPark (q : Packet) : Nat := bits q.arg0 23 16
/-- Whether a port operation writes a root, or discards a park's translations. -/
def writesRoot (q : Packet) : Bool := q.mgmt == .portOp && opReg q == 0x731 && opKind q != 0
-- DEDUCED: log 102.
def invalidates (q : Packet) : Bool := q.mgmt == .portOp && opReg q == 0x732 && opKind q == 1 && bit q.arg1 0
/-- PORT_REQUEST (R261): the packet that reached a port first is translated by a fresh walk (0) or by a cached translation, or
refused; a read of the port's registers is answered. -/
def execPortRequest (s : State) : Res :=
  let p := argAt s 0
  let u := getPort s p
  match u.arrivals with
  | [] => .next s
  | q :: rest =>
    let s' := modPort s p fun u => { u with arrivals := rest }
    if writesRoot q || invalidates q then .next s
    else if q.mgmt = .portOp then
      .next (portOpAnswer s' p q (if opReg q = 0x731 then tget 0 u.roots (opPark q) else 0))
    else if !portTakes q then .next (noTarget s' p q)
    else if 4096 ≤ u.reqs.length then .next (portNack s' p q rFULL 0 0)
    else
      let a := q.arg0.toNat
      let wr := q.kind != kRLOAD
      if argAt s 1 = 0 then .next (portTranslate s' p q (walk u q.park a wr) false)
      else match cachedAt u (argAt s 1 - 1) q.park a with
        | some c => .next (portTranslate s' p q (throughLeaf c a wr) true)
        | none => .next s
/-- Whether two requests touch a byte in common. -/
def overlaps (a b : PortReq) : Bool := decide (a.phys < b.phys + portBytes b.pkt) && decide (b.phys < a.phys + portBytes a.pkt)
/-- A word of a request performed by the device behind a port: the port, and the request with what is left of it. -/
def portWord (u : Port) (r : PortReq) (j : Nat) : Port × PortReq :=
  let n := portBytes r.pkt
  let (a, k) := portPiece r.phys n (r.left.getD j 0)
  let rest := { r with left := r.left.eraseIdx j }
  if k = 0 then (u, rest)
  else if r.pkt.kind = kRLOAD then
    match badIn u.bad a k with
    | some _ => (u, { rest with bad := true })
    | none => (u, { rest with acc := r.acc + mread u.mem a k * 256 ^ (a - r.phys) })
  else
    let fresh (b : Nat) : Bool := decide (a ≤ b) && decide (b + 8 ≤ a + k)
    ({ u with mem := mwrite u.mem a k (flitsNat r.pkt.payload / 256 ^ (a - r.phys) % 256 ^ k)
              bad := u.bad.filter fun b => !fresh b }, rest)
/-- PORT_ACCESS_COMPLETE (R330): the device performs one of the words left of a request that no earlier one overlaps (R331), and with the
last one the port answers. -/
def execPortAccessComplete (s : State) : Res :=
  let p := argAt s 0
  let i := argAt s 1
  let u := getPort s p
  match u.reqs[i]? with
  | none => .next s
  | some r =>
    if (u.reqs.take i).any (overlaps r) then .next s
    else
      let q := r.pkt
      let (u, r) := portWord u r (argAt s 2)
      if r.left ≠ [] then .next (modPort s p fun _ => { u with reqs := u.reqs.set i r })
      else
        let s := modPort s p fun _ => { u with reqs := u.reqs.eraseIdx i }
        if q.kind ≠ kRLOAD then .next (portSend s p q kREPLY 3 0 [] 0)
        else if r.bad then .next (portNack s p q 11 0 0)
        else .next (portSend s p q kREPLY 4 q.arg0 (natFlits r.acc (ceilDiv (portBytes q) 32)) 0)

/-! ### Roots and invalidation (R262) -/

/-- The translations of a park discarded. -/
-- DEDUCED: log 102.
def forgetPark (u : Port) (park : Nat) : Port := { u with cache := u.cache.filter fun c => c.park != park }
/-- The fields of PORT_ROOT that are written. -/
def rootMask : Nat := 1 + maskN 51 12
/-- A register's writable bits after an operation: 1 write, 2 set, 3 clear (R396). -/
-- DEDUCED: log 103.
def applyOp (op mask old v : Nat) : Nat :=
  let new := if op = 1 then v else if op = 2 then old ||| v else old - (old &&& v)
  (old - (old &&& mask)) + (new &&& mask)
/-- PORT_ROOT_WRITE (R262): a write of a root takes effect, and is answered with its value before. -/
def execPortRootWrite (s : State) : Res :=
  let p := argAt s 0
  match (getPort s p).arrivals with
  | [] => .next s
  | q :: rest =>
    if !writesRoot q then .next s
    else
      let old := tget 0 (getPort s p).roots (opPark q)
      let new := wordN (applyOp (opKind q) rootMask old.toNat q.arg1.toNat)
      let s := modPort s p fun u => { forgetPark u (opPark q) with arrivals := rest, roots := tset u.roots (opPark q) new }
      .next (portOpAnswer s p q old)
/-- PORT_INVAL (R262): a park's translations are discarded (0), or the write is answered once their users have completed
(the number of the waiting write from 1). -/
def execPortInval (s : State) : Res :=
  let p := argAt s 0
  let u := getPort s p
  match argAt s 1 with
  | 0 => match u.arrivals with
    | q :: rest =>
      if !invalidates q then .next s
      else
        let k := opPark q
        .next (modPort s p fun u => { forgetPark u k with
          arrivals := rest, invals := u.invals ++ [(k, q)]
          reqs := u.reqs.map fun r => if r.pkt.park == k then { r with old := true } else r })
    | [] => .next s
  | k + 1 => match u.invals[k]? with
    | some (park, q) =>
      if u.reqs.any fun r => r.old && r.pkt.park == park then .next s
      else .next (portOpAnswer (modPort s p fun u => { u with invals := u.invals.eraseIdx k }) p q 0)
    | none => .next s

end Sys2Proof.Machine
end

