-- ==== Sys2Proof/Machine/SysRegs.lean ====
section
/-! DEFINITION. The system registers of a site: what they read, what a write of each does, and the delayed effects of
writes of the page map and the decode tables (R7, R53, R54, R60 to R69, R99, R118, R161, R164, R192, R199, R200, R252,
R260, R272, R285, R286, R306, R355, R393, R394). -/

namespace Sys2Proof.Machine

/-! ### Reading -/

/-- The codes of SLOT_STATE and GROUP_STATE (R99). -/
def slotCode : SlotState → Nat
  | .free => 0 | .ready => 1 | .waiting => 2 | .trapped => 3 | .saving => 4 | .restoring => 5
def groupCode : GroupState → Nat
  | .running => 1 | .preempted => 2 | .draining => 3
/-- Whether a trap record awaits presentation: TRAP_CAUSE.PENDING (R382, R389). -/
def recordWaits (c : Core) : Bool := c.traps.any fun r => !r.fatal && !r.fresh
/-- The table entry that TDEC_SEL selects (R192). -/
def tdecSelected (x : Site) : Nat := regF x 0x058 7 0 + 256 * regF x 0x058 8 8
/-- TDEC_DATA: the selected entry as the writes issued so far leave it (R192, R396). -/
-- DESIGN CHOICE: log 29.
def tdecRead (x : Site) : Nat :=
  let k := tdecSelected x
  if 256 + 15 < k then (Config.tdecBeyond (k - 256)).toNat
  else match (x.core.tdecNext.filter fun e => e.1 == k).getLast? with
    | some e => e.2
    | none => (tget? x.core.tdec k).getD (tdecReset k)
/-- The way that STEER_SEL selects (R252). -/
def steerSelected (x : Site) : Nat := 4 * regF x 0x05A 3 0 + regF x 0x05A 5 4
/-- DCNT_DATA of the selected counter (R306). -/
def dcntRead (x : Site) : Nat :=
  let k := regF x 0x065 5 0
  match counterOf x.core k with
  | none => 0
  | some t => t.handler % 1024 + t.count % 2 ^ 16 * 2 ^ 10 + b2n t.list * 2 ^ 26 + 2 ^ 27 +
      b2n (x.core.strands.any fun s => s.2.wait == .counter k) * 2 ^ 28 + bitsN t.buf 20 3 * 2 ^ 29 + t.pidx % 2 ^ 16 * 2 ^ 47
/-- The entry that NT_SEL selects (R60). -/
def ntSelected (x : Site) : Nat := 8 * regF x 0x070 5 0 + regF x 0x070 8 6
/-- The tree that RTREE_SEL selects (R355). -/
def treeSelected (x : Site) : Nat := regF x 0x081 2 0

/-- What a system register of a site reads. -/
def readReg (x : Site) (n : Nat) : Nat :=
  match n with
  | 0x020 => setBitsN (reg x 0x020) 21 21 (b2n (recordWaits x.core))
  | 0x042 => (upto 16).foldl (fun v k => v + slotCode (slotOf x.core k).st * 2 ^ (4 * k)) 0
  | 0x043 => x.core.groups.foldl (fun v e => v + groupCode e.2.st * 2 ^ (4 * e.1)) 0
  | 0x051 => pmapLatest x.core (regF x 0x050 8 0) % 2 ^ 20
  | 0x059 => tdecRead x
  | 0x05B => (tget 0 x.core.steer (steerSelected x)).toNat
  | 0x066 => dcntRead x
  | 0x071 => (tget 0 x.router.nt (ntSelected x)).toNat
  | 0x082 => treeCfg x (treeSelected x) + b2n (treeBusy x (treeSelected x)) * 2 ^ 9
  | _ => reg x n

/-! ### Writing -/

/-- The RW fields of a register replaced (R7). -/
def storeReg (n v : Nat) (x : Site) : Site := setReg x n ((reg x n - (reg x n &&& rwMask n)) + (v &&& rwMask n))
/-- A refusal bit set or cleared. -/
def setErr (n k : Nat) (e : Bool) (x : Site) : Site := setRegF x n k k (b2n e)

/-- TUMBLER_CFG (R118). -/
def tumblerCfgWrite (v : Nat) (x : Site) : Site :=
  if x.core.groups ≠ [] ∨ 383 < v % 512 then setErr 0x045 9 true x else setErr 0x045 9 false (storeReg 0x045 v x)
/-- HTAB_BASE (R394). -/
def htabBaseWrite (v : Nat) (x : Site) : Site :=
  let a := v % 2 ^ 21
  if a % 4096 ≠ 0 ∨ 0x200000 < a + 32768 then setErr 0x046 21 true x else setErr 0x046 21 false (storeReg 0x046 v x)
/-- PMAP_DATA; none where it traps PRIVILEGE in S (R118, R161). -/
def pmapDataWrite (l : Level) (v : Nat) (x : Site) : Option Site :=
  let p := regF x 0x050 8 0
  let e := v % 2 ^ 20
  if l = .s ∧ (ePool x e || ePool x (pmapLatest x.core p)) = true then none
  else if eValid e ∧ 383 < ePhys e then some (setErr 0x050 9 true x)
  else some (setErr 0x050 9 false (onCore (fun c => { c with pmapNext := c.pmapNext ++ [(p, wordN e, c.accIds)] }) x))
/-- CORE_NAME: ignored at a site that is not live; in S only a name of the park, none where it traps PRIVILEGE (R53, R54). -/
def coreNameWrite (l : Level) (v : Nat) (x : Site) : Option Site :=
  if x.life ≠ .live ∨ x.dead then some x
  else
    let name := v % 2 ^ 18 + bitsN (reg x 0x041) 19 18 * 2 ^ 18
    if l = .s ∧ ¬ (regF x 0x073 19 0 ≤ name ∧ name ≤ regF x 0x073 39 20) then none
    else some (storeReg 0x041 v x)
/-- TDEC_DATA (R192): the entry is written once nothing that uses the tables is in progress. -/
def tdecDataWrite (v : Nat) (x : Site) : Site :=
  let k := tdecSelected x
  if 256 + 15 < k then setErr 0x058 9 true x
  else setErr 0x058 9 false (onCore (fun c => { c with tdecNext := c.tdecNext ++ [(k, v % 2 ^ 19)] }) x)
/-- STEER_DATA (R252). -/
def steerDataWrite (v : Nat) (x : Site) : Site :=
  let i := bitsN v 29 20
  if bitN v 31 ∧ (i = 0 ∨ (bitN v 30 ∧ 63 < i) ∨ isNull (v % 2 ^ 20)) then setErr 0x05A 6 true x
  else setErr 0x05A 6 false (onCore (fun c => { c with steer := tset c.steer (steerSelected x) (wordN (v % 2 ^ 32)) }) x)
/-- MBOX_CFG (R286): the ring's physical pages are recorded; 512 stands for a page that is not mapped. -/
-- DEDUCED: log 109.
-- DESIGN CHOICE: log 177.
def mboxCfgWrite (v : Nat) (x : Site) : Site :=
  let base := bitsN v 8 0
  let n := bitsN v 14 9
  if x.core.copies ≠ [] ∨ n = 0 ∨ 32 < n ∨ 512 < base + 2 * n then setErr 0x055 15 true x
  else
    let page (k : Nat) : Nat := let e := pmapAt x.core (base + k); if eValid e then ePhys e else 512
    setErr 0x055 15 false (onCore (fun c => { c with mboxPages := (upto n).map page, mboxPtr := 0 }) (storeReg 0x055 v x))
/-- MSGLEN_MAX (R285). -/
def msglenMaxWrite (v : Nat) (x : Site) : Site :=
  if v % 64 = 0 then setErr 0x060 6 true x else setErr 0x060 6 false (storeReg 0x060 v x)
/-- TIER_CFG (R260). -/
def tierCfgWrite (v : Nat) (x : Site) : Site :=
  let n := bitsN v 14 7
  let ilv := bitsN v 19 15
  if n = 0 ∨ 128 < bitsN v 6 0 + n ∨ ilv < 12 ∨ 30 < ilv then setErr 0x063 56 true x
  else setErr 0x063 56 false (storeReg 0x063 v x)
/-- CPYR_ORD: the contributions held for an ordinal that is now the next one are to be applied (R272). -/
-- DEDUCED: log 108.
def cpyrOrdWrite (v : Nat) (x : Site) : Site := (upto 8).foldl takeHeld (storeReg 0x064 v x)
/-- A counter unbound: its copies are released and its DWAITs complete (R306). -/
def counterUnbind (k : Nat) (x : Site) : Site :=
  match counterOf x.core k with
  | none => x
  | some t => onCore (fun c => wakeCounter (freeCopies { noteCounter k c with counters := terase c.counters k } t.copies) k) x
/-- DCNT_SEL, and the unbinding that a write of 1 to UNBIND is (R306). -/
def dcntSelWrite (wo : Bool) (v : Nat) (x : Site) : Site :=
  if v % 64 = 0 then setErr 0x065 6 true x
  else
    let x := setErr 0x065 6 false (storeReg 0x065 v x)
    if wo && bitN v 7 then counterUnbind (v % 64) x else x
/-- NT_DATA (R61). -/
def ntDataWrite (v : Nat) (x : Site) : Site :=
  let e := v % 2 ^ 43
  if ntValid e && !ntLegal x (bitsN e 27 20) (bitsN e 35 28) (ntPort e) then setErr 0x070 9 true x
  else setErr 0x070 9 false (onRouter (fun r => ntPut r 3 (ntSelected x) e) x)
/-- ROUTE_CFG with its actions FLUSH and PROBE_CLR (R63, R64). -/
def routeCfgWrite (wo : Bool) (v sid : Nat) (s : State) : State :=
  let s := modSite s sid (storeReg 0x072 v)
  let s := if wo && bitN v 17 then modSite s sid (onRouter ntFlush) else s
  if wo && bitN v 18 then clearProbes s sid else s
/-- Whether a tree register may name a port: a link that is up, or an edge with a bridge (R355). -/
def treePort (s : State) (sid d : Nat) : Bool :=
  if d < 4 then linkUp (getSite s sid) d
  else match bridgeAt sid with
    | some b => (tget {} s.bridges b).present
    | none => false
/-- RTREE_DATA (R355). -/
def rtreeDataWrite (v sid : Nat) (s : State) : State :=
  let x := getSite s sid
  let t := treeSelected x
  let p := bitsN v 2 0
  let bad := treeBusy x t || p == 6 || (decide (1 ≤ p) && decide (p ≤ 5) && (!treePort s sid (p - 1) || bitN v (p + 2))) ||
    (upto 5).any fun d => bitN v (3 + d) && !treePort s sid d
  let node (nd : TreeNode) : TreeNode := { nd with mute := nd.mute.filter fun i => bitN v (2 + i), muted := false }
  let put (x : Site) : Site := onRouter (fun r =>
    { r with rtree := tset r.rtree t (wordN (v % 512)), trees := if tget? r.trees t = none then r.trees else tmod {} r.trees t node }) x
  if bad then setSite s sid (setErr 0x081 3 true x)
  else
    let s := setSite s sid (setErr 0x081 3 false (put x))
    if x.dead then treeGo s sid t else s

/-- A system register of a site written at a level with a full value; `wo` where the write performs the actions of fields
that only act (R7). None where it traps PRIVILEGE and is not performed. -/
def writeReg (l : Level) (wo : Bool) (n v sid : Nat) (s : State) : Option State :=
  let on (f : Site → Site) : Option State := some (modSite s sid f)
  match n with
  | 0x041 => (coreNameWrite l v (getSite s sid)).map (setSite s sid)
  | 0x045 => on (tumblerCfgWrite v)
  | 0x046 => on (htabBaseWrite v)
  | 0x051 => (pmapDataWrite l v (getSite s sid)).map (setSite s sid)
  | 0x055 => on (mboxCfgWrite v)
  | 0x059 => on (tdecDataWrite v)
  | 0x05B => on (steerDataWrite v)
  | 0x060 => on (msglenMaxWrite v)
  | 0x063 => on (tierCfgWrite v)
  | 0x064 => on (cpyrOrdWrite v)
  | 0x065 => on (dcntSelWrite wo v)
  | 0x071 => on (ntDataWrite v)
  | 0x072 => some (routeCfgWrite wo v sid s)
  | 0x082 => some (rtreeDataWrite v sid s)
  | _ => on (storeReg n v)
/-- A register operation: 1 write, 2 set, 3 clear (R396). -/
-- DEDUCED: log 107.
def regOp (l : Level) (op n v sid : Nat) (s : State) : Option State :=
  writeReg l (op == 1) n (if op = 1 then v else applyOp op (rwMask n) (readReg (getSite s sid) n) v) sid s

/-! ### Registers of a context (R196, R199, R200, R279) -/

/-- FPFLAGS, FPCTL, LFSR_STATE and MBUILD0 to 9 of a context, by the numbers from 0x001 on. -/
def ctxReg (x : Ctx) (n : Nat) : Nat :=
  match n with
  | 0x001 => x.fpflags.toNat
  | 0x002 => x.fpctl.toNat
  | 0x003 => x.lfsr.toNat
  | _ => (mGet x (n - 0x010)).toNat
def setCtxReg (x : Ctx) (n v : Nat) : Ctx :=
  match n with
  | 0x001 => { x with fpflags := wordN (v % 64) }
  | 0x002 => { x with fpctl := wordN (fpctlOf v) }
  | 0x003 => { x with lfsr := wordN (v % 2 ^ 32) }
  | _ => mSet x (n - 0x010) (wordN v)
/-- Whether a number is one of these registers. -/
def isCtxNumber (n : Nat) : Bool := (decide (1 ≤ n) && decide (n ≤ 3)) || (decide (0x010 ≤ n) && decide (n ≤ 0x019))
/-- Whether a vector instruction of the agent at hand has not completed: an access to FPFLAGS, FPCTL or LFSR_STATE waits for it (R207). -/
def vectorsOpen (s : State) : Bool :=
  match s.cur with
  | .mgmt k => (getMgmt s k).vectors != []
  | _ => (curSite s).core.vectors.any fun p => p.key == curKey s

/-! ### The events of writes -/

/-- A write of a register made by a management core through the remote window, as far as the register goes. -/
def byM (n v sid : Nat) (s : State) : Res := .next ((writeReg .m true n v sid s).getD s)
/-- REGISTER_WRITE (R396): a register without a row of its own is written. -/
def execRegisterWrite (s : State) : Res := byM (argAt s 1) (argAt s 2) (argAt s 0) s
/-- TUMBLER_CFG_WRITE (R118). -/
def execTumblerCfgWrite (s : State) : Res := byM 0x045 (argAt s 1) (argAt s 0) s
/-- HTAB_BASE_WRITE (R394). -/
def execHtabBaseWrite (s : State) : Res := byM 0x046 (argAt s 1) (argAt s 0) s
/-- MBOX_CFG_WRITE (R286). -/
def execMboxCfgWrite (s : State) : Res := byM 0x055 (argAt s 1) (argAt s 0) s
/-- MSGLEN_MAX_WRITE (R285). -/
def execMsglenMaxWrite (s : State) : Res := byM 0x060 (argAt s 1) (argAt s 0) s
/-- TIER_CFG_WRITE (R260). -/
def execTierCfgWrite (s : State) : Res := byM 0x063 (argAt s 1) (argAt s 0) s
/-- TDEC_DATA_WRITE (R192). -/
def execTdecDataWrite (s : State) : Res := byM 0x059 (argAt s 1) (argAt s 0) s
/-- STEER_DATA_WRITE (R252). -/
def execSteerDataWrite (s : State) : Res := byM 0x05B (argAt s 1) (argAt s 0) s
/-- NT_DATA_WRITE (R61). -/
def execNtDataWrite (s : State) : Res := byM 0x071 (argAt s 1) (argAt s 0) s
/-- RTREE_DATA_WRITE (R355). -/
def execRtreeDataWrite (s : State) : Res := byM 0x082 (argAt s 1) (argAt s 0) s
/-- DCNT_SEL_WRITE (R306). -/
def execDcntSelWrite (s : State) : Res := byM 0x065 (argAt s 1) (argAt s 0) s
/-- COUNTER_UNBIND (R306). -/
def execCounterUnbind (s : State) : Res := .next (modSite s (argAt s 0) (dcntSelWrite true (argAt s 1 % 64 + 128)))
/-- The level of an event's writer: S for 0, M otherwise. -/
def writer (s : State) (k : Nat) : Level := if argAt s k = 0 then .s else .m
/-- PMAP_DATA_WRITE (R161): at S (0) or M. -/
def execPmapDataWrite (s : State) : Res := .next ((writeReg (writer s 1) true 0x051 (argAt s 2) (argAt s 0) s).getD s)
/-- CORE_NAME_WRITE (R54): at S (0) or M. -/
def execCoreNameWrite (s : State) : Res := .next ((writeReg (writer s 1) true 0x041 (argAt s 2) (argAt s 0) s).getD s)
/-- FPCTL_WRITE (R200) of a context. -/
def execFpctlWrite (s : State) : Res :=
  .next (modCurCtx { s with cur := agentOf (argAt s 0) (argAt s 1) } fun x => setCtxReg x 0x002 (argAt s 2))

/-! ### Delayed effects (R164, R192) -/

/-- Whether a pending write of the page map may take effect: every access issued before it has performed, and no packet is
half done whose access check it would come after (R164, R315). -/
def pmapReady (c : Core) (e : Nat × Word × Nat) : Bool :=
  !(c.accesses.any fun a => decide (a.id < e.2.2)) && !(c.landing.any fun l => l.pkt.kind == kRLOAD || (l.pkt.kind == kCOPYDATA && l.copy.isNone))
/-- PMAP_WRITE_EFFECT (R164): the oldest write of the page map takes effect once every access issued before it has performed;
accesses issued since perform by the entry they were checked against. -/
def pmapEffect (c : Core) : Core :=
  match c.pmapNext with
  | [] => c
  | (v, e, n) :: rest =>
    if !pmapReady c (v, e, n) then c
    else
      let old := ePhys (pmapAt c v)
      { c with pmapNext := rest, pmap := tset c.pmap v e
               accesses := c.accesses.map fun a => if (tget? a.via v).isSome then a else { a with via := tset a.via v old }
               tum := { c.tum with maps := c.tum.maps + 1 } }
def execPmapWriteEffect (s : State) : Res := .next (modSite s (argAt s 0) (onCore pmapEffect))

/-- Whether a format is decoded through a table. -/
def isTableFmt (f : Nat) : Bool := f == 26 || f == 27
/-- Whether nothing that decodes or encodes T8 or T4 is in progress on a core. -/
def tablesQuiet (c : Core) : Bool :=
  !(c.vectors.any fun p => p.tables) &&
  !((executing c).any fun o => isTableFmt o.fmt || (o.kind == .tmma && (isTableFmt o.conf.af || isTableFmt o.conf.bf))) &&
  !(c.chans.any fun e => chanRuns e.2 && e.2.started && (isTableFmt e.2.shape.sf || isTableFmt e.2.shape.df)) &&
  !(c.redOps.any fun r => !redEnded r && (isTableFmt r.sf || isTableFmt r.df))
/-- TDEC_WRITE_EFFECT (R192): the writes of the tables take effect in the first cycle without such work. -/
def tdecEffect (c : Core) : Core :=
  if tablesQuiet c then { c with tdecNext := [], tdec := c.tdecNext.foldl (fun t e => tset t e.1 e.2) c.tdec } else c
def execTdecWriteEffect (s : State) : Res := .next (modSite s (argAt s 0) (onCore tdecEffect))

end Sys2Proof.Machine
end

