-- ==== Sys2Proof/Machine/Traps.lean ====
section
/-! DEFINITION. Traps and the privileged instructions: presentation, fatal and double traps, ERET, HALT, WFI, TRAP and BREAK,
interrupts of management cores, and the remote window (R379 to R398). -/

namespace Sys2Proof.Machine

/-! ### Presentation (R382, R383, R398) -/

/-- TRAP_CAUSE, TRAP_PC and TRAP_INFO with a record's values; KILL and S_CAUSE stay. -/
-- DEDUCED: log 115.
def showRecord (x : Site) (r : TrapRec) : Site :=
  let cause := r.val.cause % 256 + min r.slot 15 * 2 ^ 8 + r.grp % 16 * 2 ^ 12 + r.idx % 16 * 2 ^ 16 + b2n r.val.deferred * 2 ^ 20
  setReg (setReg (setReg x 0x020 (setBitsN (reg x 0x020) 20 0 cause)) 0x021 r.val.pc.toNat) 0x022 r.val.info.toNat
/-- The supervisor context running from TRAP_VEC.BASE. -/
def startSup (x : Site) : Site :=
  onCore (fun c => { modStrand (noWait c supKey) supKey (fun st => { st with acqAt := none }) with
    sup := { c.sup with st := .running, yieldTo := 0
                        ctx := { c.sup.ctx with pc := wordN (regF x 0x023 20 0), lines := [], abandoned := none } } }) x
/-- The record presented next: the oldest. -/
def nextRecord (c : Core) : Option TrapRec := c.traps.find? fun r => !r.fatal && !r.fresh
/-- A record presented to the supervisor context. -/
def presentRecord (x : Site) (r : TrapRec) : Site :=
  let x := onCore (fun c => { c with traps := c.traps.filter fun q => q != r, sup := { c.sup with present := some r } }) x
  startSup (showRecord x r)
/-- Whether a record is presented now. -/
-- DEDUCED: log 116.
def presentDue (x : Site) : Bool :=
  x.core.sup.st == .idle && regF x 0x023 21 21 == 1 && (nextRecord x.core).isSome && x.core.evict.st == .run && !x.dead
/-- TRAP_PRESENTATION (R382). -/
def execTrapPresentation (s : State) : Res :=
  .next (modSite s (argAt s 0) fun x =>
    match presentDue x, nextRecord x.core with
    | true, some r => presentRecord x r
    | _, _ => x)

/-- FATAL_TRAP (R383): the record of a slot is written to the trap registers and its group is terminated. -/
-- DEDUCED: log 116.
def fatalTrap (x : Site) (k : Nat) : Site :=
  match x.core.traps.find? fun r => r.fatal && r.slot == k with
  | none => x
  | some r => terminate (showRecord (onCore (fun c => { c with traps := c.traps.filter fun q => q != r }) x) r) r.grp
def execFatalTrap (s : State) : Res := .next (modSite s (argAt s 0) fun x => fatalTrap x (argAt s 1))

/-! ### Double traps (R384) -/

/-- The CORE_HALT packet of a core to the management core of its GUARD_MGR side. -/
def sendCoreHalt (s : State) (sid : Nat) : State :=
  send2 s sid (posted sid { kind := kMGMT, vc := 2, dest := siteWord (rimAt (siteW sid) (regF (getSite s sid) 0x073 45 44) 96)
                            src := nullCore, park := localPark (getSite s sid), mgmt := .coreHalt })
/-- The supervisor context halted with a cause. -/
def haltSup (s : State) (sid cause : Nat) : State :=
  sendCoreHalt (modSite s sid fun x =>
    onCore (fun c => { noWait c supKey with
                       sup := { c.sup with st := .halted, double := none } }) (setRegF x 0x020 31 24 cause)) sid
/-- DOUBLE_TRAP: a trap in S halts the context. -/
def execDoubleTrap (s : State) : Res :=
  let sid := argAt s 0
  match (getSite s sid).core.sup.double with
  | none => .next s
  | some v =>
    let s := modSite s sid fun x => if regF x 0x023 22 22 = 1 then setReg x 0x024 v.pc.toNat else x
    .next (haltSup s sid v.cause)

/-! ### Interrupts of management cores (R390) -/

/-- Whether a management core has an enabled interrupt pending. -/
def irqWaits (m : Mgmt) : Bool := mreg m 0x701 &&& mreg m 0x702 != 0
/-- A management core's wait over: its instruction of 4 bytes is complete, and it goes on in the next cycle. -/
def endMgmtWait (m : Mgmt) : Mgmt := { m with wait := .over, ctx := { m.ctx with pc := m.ctx.pc + 4 } }
/-- An interrupt raised; a WFI ends where it is enabled (R398). -/
def raiseIrq (k bit : Nat) (s : State) : State :=
  modMgmt s k fun m =>
    let m := setMreg m 0x702 (mreg m 0x702 ||| 2 ^ bit)
    if m.wait == .wfi && irqWaits m then endMgmtWait m else m
/-- Whether a management core takes an interrupt before its next instruction. -/
def irqDue (m : Mgmt) : Bool := m.st == .running && m.wait == .none && mreg m 0x703 % 2 == 0 && irqWaits m
/-- MGMT_INTERRUPT (R390): the lowest enabled pending interrupt is taken. -/
def execMgmtInterrupt (s : State) : Res :=
  .next (modMgmt s (argAt s 0) fun m =>
    if irqDue m then mgmtTrap m { cause := 0x40 + ctzN 6 (mreg m 0x701 &&& mreg m 0x702), pc := m.ctx.pc, info := 0 } else m)
/-- The packet that has reached a management core first, when it is of a kind, and the core without it. -/
def mgmtHead (s : State) (k : Nat) (kind : MgmtKind) : Option Packet :=
  ((getMgmt s k).arrivals.head?).bind fun p => if p.mgmt == kind then some p else none
def popMgmt (k : Nat) (s : State) : State := modMgmt s k fun m => { m with arrivals := m.arrivals.tail }
/-- CORE_HALT_ARRIVAL (R384). -/
def execCoreHaltArrival (s : State) : Res :=
  match mgmtHead s (argAt s 0) .coreHalt with
  | some _ => .next (raiseIrq (argAt s 0) 5 (popMgmt (argAt s 0) s))
  | none => .next s

/-! ### Instructions (R385, R397, R398) -/

/-- An acquire half that has delivered a deferred fault is repeated only where its instruction is resumed (R320). -/
def dropAcq (c : Core) (key : Nat) (pc : Word) : Core :=
  if (strandOf c key).acqAt.isNone || (strandOf c key).acqAt == some pc then c else modStrand c key fun st => { st with acqAt := none }
/-- ERET in S: the presentation ends, and the presented strand goes on or its group is terminated (R385). -/
def eretSup (x : Site) : Site :=
  let kill := regF x 0x020 23 23 == 1
  let pc := wordN (reg x 0x021)
  let r := x.core.sup.present
  let x := setRegF (setRegF x 0x020 23 23 0) 0x020 31 24 0
  let x := onCore (fun c => { c with sup := { c.sup with st := .idle, present := none } }) x
  match r with
  | none => x
  | some r =>
    if 16 ≤ r.slot then x
    else if kill then terminate x r.grp
    else onCore (fun c => modSlot (dropAcq c (16 * r.grp + r.idx) pc) r.slot fun sl =>
      { sl with st := .ready, age := 0, boost := 0, ctx := { sl.ctx with pc := pc, lines := [], abandoned := none } }) x
/-- ERET (R385, R398). -/
def execEret (s : State) : Res :=
  issue .eret s fun s =>
    match s.cur with
    | .mgmt k =>
      let m := getMgmt s k
      if mreg m 0x703 % 2 = 0 then illegal .eret s
      else .next (jumpTo (modMgmt s k fun m => setMreg m 0x703 0) (wordN (mreg m 0x021)))
    | .sup sid => .next (modSite s sid eretSup)
    | .strand _ _ => privilege .eret s
/-- HALT (R398). -/
def execHalt (s : State) : Res :=
  issue .halt s fun s =>
    match s.cur with
    | .mgmt k => .next (modMgmt (advance s 4) k fun m => { m with st := .halted })
    | .sup sid => .next (haltSup (advance s 4) sid 0)
    | .strand _ _ => privilege .halt s
/-- WFI (R398). -/
def execWfi (s : State) : Res :=
  issue .wfi s fun s =>
    match s.cur with
    | .mgmt k => if irqWaits (getMgmt s k) then done 4 s else .next (modMgmt s k fun m => { m with wait := .wfi })
    | .sup sid =>
      if recordWaits (getSite s sid).core then done 4 s
      else .next (modSite s sid (onCore fun c => setWait c supKey .wfi 4))
    | .strand _ _ => privilege .wfi s
/-- TRAP (R397). -/
def execTrap (n : Nat) (s : State) : Res := issue (.trap n) s fun s => trapHere s 0x11 n
/-- BREAK (R397). -/
def execBrk (n : Nat) (s : State) : Res := issue (.brk n) s fun s => trapHere s 0x12 n
/-- ILLEGAL_INSTRUCTION (R82, R83): words that decode to no instruction. -/
def execIllegalInstruction (s : State) : Res :=
  trapHere s 0x01 (argAt s 0 + (if argAt s 2 = 8 then argAt s 1 * 2 ^ 32 else 0))

/-! ### The remote window (R391, R392) -/

/-- The bytes of the local store (R20). -/
def storeBytes : Nat := 0x180000
/-- The answer to a window operation. -/
def windowReply (s : State) (sid : Nat) (q : Packet) (old : Nat) (refusal detail : Nat) : State :=
  send2 s sid (posted sid { kind := kMGMT, vc := 2, dest := siteWord q.origin, src := nullCore, arg0 := wordN old
                            ks := refusal + detail * 16, ansTo := some q.origin, mgmt := .windowAnswer })
/-- SITE_LSA moved on by a dword. -/
def stepLsa (x : Site) : Site := storeReg 0x090 (reg x 0x090 + 8) x
/-- The dword at SITE_LSA read: the site, and its value unless it is uncorrectable. -/
-- DEDUCED: log 110.
def lsdRead (x : Site) : Site × Option Nat :=
  let a := reg x 0x090
  let x := onCore (fun c => noteRead c a 8) x
  match badIn x.core.bad a 8 with
  | some w => (countUe x w 1, none)
  | none => (stepLsa x, some (mread x.core.mem a 8))
/-- The dword at SITE_LSA written. -/
-- DEDUCED: log 110.
def lsdWrite (v : Nat) (x : Site) : Site := stepLsa (onCore (fun c => storePhys c (reg x 0x090) 8 v) x)
/-- TRAP_VEC written from outside: with EN it restarts a halted context, to which its record is presented again (R398). -/
def trapVecWrite (v : Nat) (x : Site) : Site :=
  let x := storeReg 0x023 v x
  if regF x 0x023 21 21 = 1 ∧ x.core.sup.st = .halted then
    startSup (match x.core.sup.present with | some r => showRecord x r | none => x)
  else x
/-- The new value of a register after an operation: 1 write, 2 set, 3 clear. -/
-- DEDUCED: log 107.
def opValue (x : Site) (op n v : Nat) : Nat := if op = 1 then v else applyOp op (rwMask n) (readReg x n) v
/-- Whether a window operation is refused (R391, R392). -/
def windowRefused (x : Site) (n op v : Nat) : Bool :=
  isContextReg n || (siteRegAccess n).isNone ||
  (n == 0x090 && op != 0 && decide (storeBytes ≤ opValue x op n v &&& rwMask 0x090)) ||
  (n == 0x091 && (decide (2 ≤ op) || decide (storeBytes ≤ reg x 0x090)))
/-- A wait of the supervisor context for the window over (R398). -/
def wakeWfi (c : Core) : Core := if (strandOf c supKey).wait = .wfi then endWait c supKey true else c
/-- REMOTE_WINDOW_ACCESS (R391): the operation acts as the same instruction in M and is answered with the value before. -/
-- DEDUCED: log 111.
def windowAccess (s : State) (sid : Nat) (q : Packet) : State :=
  let n := bits q.arg0 11 0
  let op := bits q.arg0 13 12
  let v := q.arg1.toNat
  let x := getSite s sid
  let s := if op = 0 then s else modSite s sid (onCore wakeWfi)
  if windowRefused x n op v then windowReply s sid q 0 rINVALID 10
  else if n = 0x091 ∧ op = 0 then
    match lsdRead (getSite s sid) with
    | (x, some d) => windowReply (setSite s sid x) sid q d 0 0
    | (x, none) => windowReply (setSite s sid x) sid q 0 11 0
  else
    let old := if n = 0x091 then 0 else readReg x n
    let s := if op = 0 then s
      else if n = 0x091 then modSite s sid (lsdWrite v)
      else if n = 0x023 then modSite s sid (trapVecWrite (opValue x op n v))
      else (regOp .m op n v sid s).getD s
    windowReply s sid q old 0 0
def execRemoteWindowAccess (s : State) : Res :=
  let sid := argAt s 0
  match nextVc2 (getSite s sid) with
  | none => .next s
  | some q => if q.mgmt ≠ .window then .next s else .next (windowAccess (modSite s sid popVc2) sid q)
/-- SITE_LSA_WRITE, SITE_LSD_READ and SITE_LSD_WRITE (R392). -/
def execSiteLsaWrite (s : State) : Res :=
  .next (modSite s (argAt s 0) fun x => if windowRefused x 0x090 1 (argAt s 1) then x else storeReg 0x090 (argAt s 1) x)
def execSiteLsdRead (s : State) : Res :=
  .next (modSite s (argAt s 0) fun x => if windowRefused x 0x091 0 0 then x else (lsdRead x).1)
def execSiteLsdWrite (s : State) : Res :=
  .next (modSite s (argAt s 0) fun x => if windowRefused x 0x091 1 0 then x else lsdWrite (argAt s 1) x)
/-- TRAP_VEC_WRITE (R398): by S (0) or through the window. -/
def execTrapVecWrite (s : State) : Res :=
  .next (modSite s (argAt s 0) (if argAt s 1 = 0 then storeReg 0x023 (argAt s 2) else trapVecWrite (argAt s 2)))

/-- A window or port operation sent by a management core. -/
def sendWindow (k : Nat) (n op v : Nat) (s : State) : State :=
  let sel := mreg (getMgmt s k) 0x700
  let sid := mgmtSite k
  send2 s sid (posted sid { kind := kMGMT, vc := 2, dest := bitsN sel 15 0 + bitsN sel 19 18 * 2 ^ 18, src := nullCore
                            arg0 := wordN (n + op * 2 ^ 12), arg1 := wordN v, mgmt := .window })
/-- REMOTE_WINDOW_ANSWER (R391): the answer ends the wait of its management core, which traps where the access failed. -/
def windowAnswered (m : Mgmt) (p : Packet) : Mgmt :=
  let fail : Bool := refusalOf p != 0
  let v : TrapVal := { cause := 0x0C, pc := m.ctx.pc
                       info := remoteInfo (if refusalOf p = rUNREACHABLE then 4 else 3) (detailOf p) 0 (refusalOf p) 0 0 }
  let ok (d : Option Nat) : Mgmt :=
    let m := match d with | some d => { m with ctx := setResident m.ctx d p.arg0 } | none => m
    endMgmtWait m
  match m.wait with
  | .window d => if fail then mgmtTrap m v else ok d
  | .port d => if fail then mgmtTrap m v else ok d
  | _ => m
def execRemoteWindowAnswer (s : State) : Res :=
  let k := argAt s 0
  match (mgmtHead s k .windowAnswer).or (mgmtHead s k .portOpAnswer) with
  | some p => .next (modMgmt (popMgmt k s) k fun m => windowAnswered m p)
  | none => .next s

end Sys2Proof.Machine
end

