-- ==== Sys2Proof/Machine/Power.lean ====
section
/-! DEFINITION. Power regions: throttle levels, steps, staggered start, droop, heat and regulator failure, and their registers
(R420 to R429). -/

namespace Sys2Proof.Machine

/-- A register that the management cores of a module share. -/
-- DESIGN CHOICE: log 112.
def modReg (u : Module) (n : Nat) : Nat :=
  match tget? u.regs n with
  | some w => w.toNat
  | none => mgmtReset n
-- DESIGN CHOICE: log 112.
def setModReg (u : Module) (n v : Nat) : Module := { u with regs := tset u.regs n (wordN v) }
/-- The RW fields of a shared register replaced, and a refusal bit set or cleared. -/
def storeModReg (n v : Nat) (u : Module) : Module :=
  setModReg u n ((modReg u n - (modReg u n &&& rwMask n)) + (v &&& rwMask n))
def setModErr (n k : Nat) (e : Bool) (u : Module) : Module := setModReg u n (setBitsN (modReg u n) k k (b2n e))

/-- An event to be added to a life counter at the next update (R443). -/
def noteLife (w i : Nat) (s : State) : State := modModule s w fun u => { u with pending := tset u.pending i (tget 0 u.pending i + 1) }

/-! ### Levels (R421) -/

/-- The fields of PWR_CTL (R422). -/
def ctlF (g : Region) (hi lo : Nat) : Nat := bits g.ctl hi lo
def startHeld (g : Region) : Bool := bit g.ctl 26
/-- The greatest source of a region's level. -/
def levelNow (g : Region) : Nat :=
  max (max (ctlF g 19 16) (max g.stepT g.droopT)) (if startHeld g || g.trip then 8 else 0)
/-- Whether a wafer time is an idle cycle of a region (R420). -/
-- DEDUCED: log 19.
def idleCycle (g : Region) (time : Nat) : Bool := decide (time % 8 < g.level)
/-- The region of a site, and the management core that receives a region's interrupts. -/
def regionAt (sid : Nat) : Nat := 16 * siteW sid + regionOf sid
-- DEDUCED: log 131.
def managerOf (s : State) (r : Nat) : Nat := 4 * (r / 16) + ctlF (getRegion s r) 25 24
/-- A bit of PWR_EVT set at a region's management core, and an interrupt raised there. -/
-- DEDUCED: log 131.
def powerEvent (s : State) (r bit irq : Nat) : State :=
  let k := managerOf s r
  raiseIrq k irq (modMgmt s k fun m => setMreg m 0x719 (mreg m 0x719 ||| 2 ^ bit))

/-! ### Steps, current and voltage (R423 to R426) -/

/-- STEP_BOUNDARY of a region, which begins a step: I_MEAS and the ceiling, a staggered release, and the end of a droop's
hold. -/
-- DESIGN CHOICE: log 126.
-- DEDUCED: log 127.
def stepBoundary (v : Module) (step : Nat) (g : Region) : Region :=
  let g := if g.samples = [] then g else { g with imeas := g.samples.foldl (fun a b => a + b) 0 / g.samples.length, samples := [] }
  let g := { g with ceiling := g.imeas + ctlF g 11 0 }
  let g := match g.armed with
    | some r => if r ≤ step then { g with armed := none, ctl := setBits g.ctl 26 26 0 } else g
    | none => g
  if g.droopT = 0 then { g with dip := false, clean := 0 }
  else
    let clean := if g.dip then 0 else g.clean + 1
    let g := { g with dip := false, clean := clean }
    if bitsN (modReg v 0x718) 15 12 ≤ clean then { g with droopT := 0, clean := 0 } else g
def execStepBoundary (s : State) : Res :=
  let r := argAt s 0
  .next (modRegion s r (stepBoundary (getModule s (r / 16)) (s.time / 320 % 2 ^ 32)))
/-- CURRENT_SAMPLE (R424). -/
def currentSample (a : Nat) (g : Region) : Region :=
  { g with samples := g.samples ++ [a], stepT := if g.dead then 0 else if g.ceiling < a then 7 else g.stepT - 1 }
def execCurrentSample (s : State) : Res := .next (modRegion s (argAt s 0) (currentSample (argAt s 1)))
/-- VOLTAGE_SAMPLE (R426). -/
-- DEDUCED: log 128.
def execVoltageSample (s : State) : Res :=
  let r := argAt s 0
  let mv := argAt s 1 % 2 ^ 12
  let low := decide (mv < bitsN (modReg (getModule s (r / 16)) 0x718) 11 0)
  let g := getRegion s r
  let s := modRegion s r fun g => { g with volt := mv }
  if !low then .next s
  else if g.droopT = 0 then
    let s := noteLife (r / 16) (306 + r % 16) s
    .next (powerEvent (modRegion s r fun g => { g with droopT := ctlF g 23 20, dip := true, clean := 0 }) r (r % 16) 1)
  else .next (modRegion s r fun g => { g with dip := true, clean := 0 })

/-! ### Heat (R427, R428) -/

/-- The region of a field on its wafer (R15). -/
def fieldRegion (f : Nat) : Nat := f / 12 / 3 * 4 + f % 12 / 3
/-- Whether a sample is at or above a threshold, both in two's complement of 12 bits. -/
-- DEDUCED: log 129.
def atOrAbove (t th : Nat) : Bool := decide (sext th 12 ≤ sext t 12)
/-- A field's sample taken: its alert, and the trip of its region. -/
-- DEDUCED: log 129.
def fieldSample (w f t : Nat) (s : State) : State :=
  let u := getModule s w
  let r := 16 * w + fieldRegion f
  let hi := bitsN (modReg u 0x716) 11 0
  let s := modModule s w fun u => { u with temps := tset u.temps f (t % 2 ^ 12) }
  let s := if atOrAbove t hi && !u.alerts.contains f then
      powerEvent (modModule (noteLife w (162 + f) s) w fun u => { u with alerts := u.alerts ++ [f] }) r (32 + r % 16) 0
    else s
  if atOrAbove t (bitsN (modReg u 0x716) 23 12) then modRegion s r fun g => { g with trip := true } else s
/-- Whether every field of a region reads below ALERT_HI. -/
def coolRegion (u : Module) (r : Nat) : Bool :=
  (upto 144).all fun f => fieldRegion f != r || !atOrAbove (tget 0 u.temps f) (bitsN (modReg u 0x716) 11 0)
/-- THERMAL_SAMPLE (R427, R428): every field of a module is sampled, and trips of cool regions clear. -/
def execThermalSample (s : State) : Res :=
  let w := argAt s 0
  let s := (upto 144).foldl (fun s f => fieldSample w f (argAt s (f + 1)) s) s
  .next ((upto 16).foldl (fun s r =>
    if (getRegion s (16 * w + r)).trip && coolRegion (getModule s w) r then
      modRegion s (16 * w + r) fun g => { g with trip := false }
    else s) s)

/-! ### Regulator failure (R429) -/

/-- The sites of a region that have joined. -/
def regionSites (s : State) (r : Nat) : List Nat :=
  (s.sites.filter fun e => regionAt e.1 == r && e.2.life != .unjoined).map fun e => e.1
/-- The multicast tiles that a dead core was still to perform: they end as unreachable (R269, R429). -/
-- DEDUCED: log 130.
def deadTiles (x : Site) : Site :=
  onRouter (fun r => { r with tiles := r.tiles.map fun t =>
    if t.lines = [] ∧ t.counter = 0 then t else { t with lines := [], counter := 0, status := max t.status 4 } }) x
/-- A core that stops at once: its state is lost, and what had reached it is answered by its router (R65), with what it had taken in
and not yet performed: a packet of which lines or flits are left, held contributions, and remote waits on its hasps. -/
-- DEDUCED: log 130.
def killCore (s : State) (sid : Nat) : State :=
  let x := getSite s sid
  if x.life ≠ .live ∨ x.dead then s
  else
    let s := setSite s sid (deadTiles { x with dead := true, core := {} })
    let held := (x.core.landing.toList.map fun l => l.pkt) ++ x.core.ordReady ++ (x.core.ordHeld.map fun e => e.pkt) ++
      x.core.rwaits.map fun e => e.1
    let s := held.foldl (fun s p => unreach s sid p) s
    let s := x.core.arrivals.foldl (fun s p =>
      if p.mgmt = .window then modSite s sid (onCore fun c => { c with arrivals := c.arrivals ++ [p] })
      else if p.kind = kSTOP then sendAns s sid (stopAnswer sid 1 p)
      else if isAnswer p.kind then countGuard s sid else unreach s sid p) s
    (upto 8).foldl (fun s t => treeGo s sid t) s
/-- The attachment of a site that has become a hole is absent (R13). -/
def dropAttach (s : State) (sid : Nat) : State :=
  let s := match portAt sid with
    | some p => modPort s p fun v => { v with present := false, arrivals := [], reqs := [], invals := [] }
    | none => s
  match bridgeAt sid with
  | some b => { s with bridges := tmod {} s.bridges b fun _ => {} }
  | none => s
/-- A router that loses power: the links into its region go down, and it holds nothing. -/
def unpower (s : State) (r r' : Nat) : State :=
  let sites := regionSites s r ++ regionSites s r'
  let s := sites.foldl (fun s sid => (upto 4).foldl (fun s d =>
    match nbr sid d with
    | some n => if regionAt n = r ∨ regionAt n = r' then s else linkDown s sid d
    | none => s) s) s
  sites.foldl (fun s sid => dropAttach (modSite s sid fun x =>
    { setReg x 0x076 (reg x 0x076 &&& (2 ^ 32 - 1 - (2 ^ 5 + 2 ^ 13 + 2 ^ 21 + 2 ^ 29))) with life := .hole, router := {}, core := {} }) sid) s
/-- REGULATOR_FAIL. -/
def execRegulatorFail (s : State) : Res :=
  let r := argAt s 0
  if (getRegion s r).fail then .next s
  else
    let s := modRegion s r fun g => { g with fail := true, dead := true, stepT := 0 }
    let s := powerEvent (noteLife (r / 16) (146 + r % 16) s) r (16 + r % 16) 2
    let s := (regionSites s r).foldl killCore s
    let r' := r / 2 * 2 + (1 - r % 2)
    .next (if (getRegion s r').fail then unpower s r r' else s)

/-! ### Registers (R422, R425, R427) -/

/-- The region that PWR_SEL selects. -/
def selectedRegion (s : State) (k : Nat) : Nat := 16 * (k / 4) + modReg (getModule s (k / 4)) 0x710 % 16
/-- PWR_STAT. -/
def pwrStat (g : Region) : Nat :=
  g.imeas % 2 ^ 16 + g.volt % 2 ^ 12 * 2 ^ 16 + g.level % 16 * 2 ^ 28 + g.stepT % 16 * 2 ^ 32 + g.droopT % 16 * 2 ^ 36 +
    b2n g.trip * 2 ^ 40 + b2n g.armed.isSome * 2 ^ 41 + b2n g.fail * 2 ^ 42 + b2n g.dead * 2 ^ 43
/-- What a power or sensor register reads at a management core. -/
def powerRead (s : State) (k n : Nat) : Nat :=
  let u := getModule s (k / 4)
  match n with
  | 0x711 => (getRegion s (selectedRegion s k)).ctl.toNat
  | 0x712 => pwrStat (getRegion s (selectedRegion s k))
  | 0x713 => 0
  | 0x715 =>
    let f := modReg u 0x714 % 256
    tget 0 u.temps f + b2n (u.alerts.contains f) * 2 ^ 12
  | 0x717 => (upto 16).foldl (fun v r => v + b2n (u.alerts.any fun f => fieldRegion f == r) * 2 ^ r) 0
  | 0x719 => mreg (getMgmt s k) 0x719
  | _ => modReg u n
/-- PWR_CTL of the selected region; `hold` where the write is one of START = 1 (R422, R425). -/
def pwrCtlWrite (k v : Nat) (hold : Bool) (s : State) : State :=
  let r := selectedRegion s k
  let bad := bitsN v 11 0 == 0 || decide (8 < bitsN v 19 16) || bitsN v 23 20 == 0 || decide (8 < bitsN v 23 20)
  let s := modModule s (k / 4) (setModErr 0x710 4 bad)
  if bad then s
  else modRegion s r fun g => { g with ctl := wordN (v % 2 ^ 27), armed := if hold then none else g.armed }
/-- PWR_GO: every held region is armed for its release (R425). -/
def pwrGo (k v : Nat) (s : State) : State :=
  (upto 16).foldl (fun s r => modRegion s (16 * (k / 4) + r) fun g =>
    if startHeld g then { g with armed := some ((v % 2 ^ 32 + ctlF g 15 12) % 2 ^ 32) } else g) s
/-- THERM_SEL: a field above 143 is refused (R427). -/
def thermSelWrite (k v : Nat) (s : State) : State :=
  modModule s (k / 4) fun u =>
    if 143 < v % 256 then setModErr 0x714 8 true u else setModErr 0x714 8 false (storeModReg 0x714 v u)
/-- An operation on a power or sensor register: 1 write, 2 set, 3 clear. -/
def powerOp (op k n v : Nat) (s : State) : State :=
  let w := k / 4
  let new := if op = 1 then v else applyOp op (rwMask n) (powerRead s k n) v
  match n with
  | 0x711 => pwrCtlWrite k new (op != 3 && bitN v 26) s
  | 0x713 => if op = 1 then pwrGo k v s else s
  | 0x714 => thermSelWrite k new s
  | 0x715 =>
    if op = 1 ∧ bitN v 12 then
      modModule s w fun u => { u with alerts := u.alerts.filter fun f => f != modReg u 0x714 % 256 }
    else s
  | 0x719 => if op = 1 then modMgmt s k fun m => setMreg m 0x719 (mreg m 0x719 - (mreg m 0x719 &&& v)) else s
  | _ => modModule s w (storeModReg n new)
/-- PWR_CTL_WRITE, PWR_GO and THERM_SEL_WRITE by a management core. -/
def execPwrCtlWrite (s : State) : Res := .next (powerOp 1 (argAt s 0) 0x711 (argAt s 1) s)
def execPwrGo (s : State) : Res := .next (powerOp 1 (argAt s 0) 0x713 (argAt s 1) s)
def execThermSelWrite (s : State) : Res := .next (powerOp 1 (argAt s 0) 0x714 (argAt s 1) s)

end Sys2Proof.Machine
end

