-- ==== Sys2Proof/Machine/Evict.lean ====
section
/-! DEFINITION. Tenant switching: the STOP commands, stopping, saving, restoring and releasing a core, the image, and guard
reports at their management core (R403 to R416). -/

namespace Sys2Proof.Machine

/-! ### Commands (R403, R404) -/

/-- A STOP packet sent to a site, with STOP_AREA and the operation. -/
def sendStop (k v op : Nat) (s : State) : State :=
  let s := modMgmt s k fun m =>
    let st := mreg m 0x7E2
    let st := setBitsN st 15 0 (bitsN st 15 0 + 1)
    setMreg m 0x7E2 (if op = 1 then setBitsN st 31 16 (bitsN st 31 16 + 1) else st)
  send2 s (mgmtSite k) (posted (mgmtSite k)
    { kind := kSTOP, vc := 2, dest := bitsN v 15 0 + bitsN v 19 18 * 2 ^ 18, src := nullCore
      arg0 := wordN (mreg (getMgmt s k) 0x7E1), ks := op })
/-- A write of STOP_CMD: OP 0 sends nothing. -/
def stopCmd (k v : Nat) (s : State) : State := if bitsN v 21 20 = 0 then s else sendStop k v (bitsN v 21 20) s
/-- EVICT, RESTORE and RELEASE: STOP_CMD written with OP 1, 2 and 3. -/
def execEvict (s : State) : Res := .next (sendStop (argAt s 0) (argAt s 1) 1 s)
def execRestore (s : State) : Res := .next (sendStop (argAt s 0) (argAt s 1) 2 s)
def execRelease (s : State) : Res := .next (sendStop (argAt s 0) (argAt s 1) 3 s)

/-- The completion of a command sent to the management core's rim site. -/
def finishStop (s : State) (sid mgr code : Nat) : State := sendAns s sid (stopAnswer sid code { origin := mgr })
/-- STOP_COMPLETION (R404, R414). -/
def execStopCompletion (s : State) : Res :=
  let k := argAt s 0
  match mgmtHead s k .stopDone with
  | none => .next s
  | some p => .next (modMgmt (popMgmt k s) k fun m =>
      let st := mreg m 0x7E2
      let st := setBitsN st 15 0 (bitsN st 15 0 + (2 ^ 16 - 1))
      let code := refusalOf p
      setMreg m 0x7E2 (if code = 0 then st
        else setBitsN (setBitsN st 35 32 code) 55 36 (bits p.arg0 15 0 + bits p.arg0 19 18 * 2 ^ 16)))
/-- STOP_ECHO (R408): an echo reaches its management core. -/
def execStopEcho (s : State) : Res :=
  .next (modMgmt s (argAt s 0) fun m =>
    if m.echoes = 0 then m
    else
      let st := mreg m 0x7E2
      { setMreg m 0x7E2 (setBitsN st 31 16 (bitsN st 31 16 + (2 ^ 16 - 1))) with echoes := m.echoes - 1 })

/-! ### Stopping (R405 to R409) -/

/-- The STOP packet that a core handles next, where it is of an operation: the first that reached it (R413). -/
def stopHead (x : Site) (op : Nat) : Option Packet :=
  (x.core.arrivals.find? fun p => p.kind == kSTOP).bind fun p => if refusalOf p == op then some p else none
def popStop (x : Site) : Site := onCore (fun c => { c with arrivals := c.arrivals.eraseP fun p => p.kind == kSTOP }) x
/-- Whether an operation is out on the fabric: sent, and neither waiting to be sent again nor still in the injection buffer. -/
def inFlight (c : Core) (o : Outst) : Bool := o.due.isNone && !(c.inj0.any fun j => j.pkt.seq == o.seq && j.pkt.kind == o.pkt.kind)
/-- Safety tests abandoned: their requests are to be tested anew (R407, R120). -/
def dropTests (c : Core) : Core :=
  let reqs := c.tum.restarts ++ c.tum.tests.map fun t => t.req
  let waits (r : TReq) : Bool := c.tum.waiters.any fun w => w.order == r.order
  { c with tum := { c.tum with tests := [], restarts := [], asked := c.tum.asked ++ reqs.filter fun r => !waits r
                               pass := c.tum.pass ++ (reqs.filter waits).map TReq.order } }
/-- The echo of an EVICT on its way to its management core. -/
-- DEDUCED: log 122.
def sendEcho (s : State) (mgr : Nat) : State :=
  match mgmtAt mgr with
  | some k => modMgmt s k fun m => { m with echoes := m.echoes + 1 }
  | none => s
/-- The core begins SAVING: the site holds its name and park (R406). -/
def beginSaving (x : Site) : Site :=
  onRouter (fun r => { r with hold := some (coreName x, localPark x) })
    (onCore (fun c => { c with evict := { c.evict with st := .saving, failed := false } }) x)
/-- STOP_ARRIVAL (R405, R414): an EVICT stops a core that runs; one whose image could not be written begins SAVING again. -/
-- DEDUCED: log 122.
def execStopArrival (s : State) : Res :=
  let sid := argAt s 0
  match stopHead (getSite s sid) 1 with
  | none => .next s
  | some p =>
    let s := modSite s sid popStop
    let x := getSite s sid
    let e := x.core.evict
    match e.st, e.failed with
    | .run, _ => .next (modSite s sid (onCore fun c =>
        { dropTests c with evict := { st := .stopping, mgr := p.origin, area := p.arg0, stopAt := some (e.stopAt.getD s.time), arrived := siteTime (e.stopAt.getD s.time) sid } }))
    | .stopped, true => .next (sendEcho (modSite s sid fun x =>
        beginSaving (onCore (fun c => { c with evict := { c.evict with mgr := p.origin, area := p.arg0 } }) x)) p.origin)
    | _, _ => .next (finishStop s sid p.origin 2)
/-- Whether a stopping core is quiescent (R407): results have been written, and every access has performed but those of the
tensor engine's suspended operations and those that wait behind one in its stream; what it has fired is written (R256), and the
requests that came by the STOP's arrival cycle are served (R406). -/
-- DEDUCED: log 99.
def quiescent (x : Site) : Bool :=
  let c := x.core
  (x.router.tiles.all fun t => t.lines == []) && c.scalars == [] && c.vectors == [] && c.landing.isNone &&
  (toWrite c.tensor).isNone && c.ordReady == [] && (c.arrivals.all fun p => p.late || p.vc == 2 || isAnswer p.kind) &&
  c.accesses.all fun a => a.fin == .engine ||
    (c.accesses.takeWhile fun b => b.id != a.id).any fun b => b.fin == .engine && b.key == a.key && b.stream == a.stream
/-- QUIESCENCE (R407, R408): the core is STOPPED and raises its stop echo. -/
def execQuiescence (s : State) : Res :=
  let sid := argAt s 0
  let x := getSite s sid
  let c := x.core
  if c.evict.st = .stopping ∧ quiescent x then
    .next (sendEcho (modSite s sid (onCore fun c => { c with evict := { c.evict with st := .stopped, since := s.time } })) c.evict.mgr)
  else .next s
/-- Whether STOPPED ends: every answer has come, or TMO has passed (R409). -/
def stoppedOver (c : Core) (time : Nat) : Bool :=
  c.evict.st == .stopped && !c.evict.failed &&
  (!(c.outs.any (inFlight c)) || decide (c.evict.since + bits c.evict.area 19 8 * 64 ≤ time))
/-- STOPPED_END: the operations left unanswered are recorded, and SAVING begins. -/
def execStoppedEnd (s : State) : Res :=
  .next (modSite s (argAt s 0) fun x =>
    if stoppedOver x.core s.time then
      beginSaving (onCore (fun c => { c with evict := { c.evict with lost := c.outs.filter (inFlight c) } }) x)
    else x)

/-! ### The image (R410) -/

/-- The pages written: the reserved ones, and the pool pages that a group holds. -/
def savedPages (x : Site) : List Nat :=
  let held := (x.core.pmap.filterMap fun e => if ePool x e.2.toNat then some (ePhys e.2.toNat) else none) ++
    (leaving x.core).map fun e => e.2.2
  (upto 384).filter fun p => decide (p < resvL x) || held.contains p
/-- The port and the address of an image area. -/
-- DEDUCED: log 124.
def imagePort (sid : Nat) (area : Word) : Nat := 132 * siteW sid + bits area 6 0
def imageAddr (area : Word) : Nat := bits area 51 21 * 2 ^ 21
/-- Bytes copied between memories. -/
def copyBytes (src dst : Mem) (a b n : Nat) : Mem :=
  (src.filter fun e => decide (a ≤ e.1) && decide (e.1 < a + n)).foldl (fun m e => mset m (b + (e.1 - a)) e.2) (mzero dst b n)
/-- The offset of a slot's context, of the supervisor context and of the region of the unit state. -/
def slotOffset (k : Nat) : Nat := 0x188000 + 2560 * k
def supOffset : Nat := 0x192C00
-- DESIGN CHOICE: log 118.
def unitOffsets : List Nat := (upto 65536).map fun i => 0x194C00 + i
/-- A trap record in 24 bytes of an image: its place, cause and marks, its address and its detail. -/
def trapFields (o : Nat) (r : TrapRec) : List (Nat × Nat × Nat) :=
  [(o, 8, r.slot % 2 ^ 8 + r.grp % 2 ^ 8 * 2 ^ 8 + r.idx % 2 ^ 8 * 2 ^ 16 + r.val.cause % 2 ^ 8 * 2 ^ 24 + b2n r.fatal * 2 ^ 32 +
      b2n r.fresh * 2 ^ 33 + b2n r.val.deferred * 2 ^ 34),
   (o + 8, 8, r.val.pc.toNat), (o + 16, 8, r.val.info.toNat)]
/-- The supervisor context and the trap records: a frame, then the context's own state, the record presented, a double trap and the
records. -/
-- DESIGN CHOICE: log 118.
def supFields (c : Core) : List (Nat × Nat × Nat) :=
  let o := supOffset + 0xA00
  let u := c.sup
  let st := match u.st with | .idle => 0 | .running => 1 | .halted => 2
  (frameFields {} { ctx := u.ctx } 0).map (fun f => (supOffset + f.1, f.2.1, f.2.2)) ++
  [(o, 8, st + b2n u.present.isSome * 2 ^ 8 + b2n u.double.isSome * 2 ^ 9 + c.traps.length % 2 ^ 16 * 2 ^ 16), (o + 8, 8, u.yieldTo)] ++
  (match u.present with | some r => trapFields (o + 16) r | none => []) ++
  (match u.double with | some v => trapFields (o + 40) { slot := 0, val := v } | none => []) ++
  (upto c.traps.length).flatMap fun i => match c.traps[i]? with | some r => trapFields (o + 64 + 24 * i) r | none => []
/-- The documented fields of an image beside the pages: offset, bytes, value. -/
def imageFields (x : Site) (serial : Nat) : List (Nat × Nat × Nat) :=
  let c := x.core
  (c.tensor.slots.flatMap fun t => t.2.words.map fun w => (0x180000 + 4096 * t.1 + 4 * w.1, 4, w.2.toNat)) ++
  ((upto 16).flatMap fun k =>
    (if (slotOf c k).st == .free then frameFields {} {} 0
     else frameFields c (slotOf c k) ((groupOf c (slotOf c k).grp).getD { uid := 0 }).prio).map fun f => (slotOffset k + f.1, f.2.1, f.2.2)) ++
  supFields c ++
  (c.pool.map fun e => (0x192000 + 8 * e.1, 8, e.2.toNat)) ++
  (c.pmap.map fun e => (0x193C00 + 8 * e.1, 8, e.2.toNat)) ++
  unitOffsets.map (fun o => (o, 1, (Config.unitStateByte serial o).toNat)) ++
  [(0x1FF000, 8, Config.unitVersion), (0x1FF008, 8, siteWord x.id), (0x1FF010, 8, c.evict.arrived), (0x1FF018, 8, c.evict.lostAns)]
/-- The stretches of an area that hold an image: first byte and length. -/
def imageParts (x : Site) : List (Nat × Nat) := [(0x180000, 0x24C00), (0x1FF000, 0x20)] ++ (savedPages x).map fun p => (4096 * p, 4096)
/-- Whether a byte of a memory lies in one of some stretches of an area. -/
def inParts (l : List (Nat × Nat)) (a b : Nat) : Bool := l.any fun r => decide (a + r.1 ≤ b) && decide (b < a + r.1 + r.2)
/-- An image written to a port's memory. -/
-- DEDUCED: log 117.
def writeImage (x : Site) (serial : Nat) (m : Mem) (a : Nat) : Mem :=
  let m := (savedPages x).foldl (fun m p => copyBytes x.core.mem m (4096 * p) (a + 4096 * p) 4096) m
  let m := mzero (mzero m (a + 0x180000) 0x24C00) (a + 0x1FF000) 0x20
  (imageFields x serial).foldl (fun m f => mwrite m (a + f.1) f.2.1 f.2.2) m
/-- The core cleared after its image is written (R409). -/
def cleared (x : Site) : Site :=
  let c := x.core
  let x := onRouter ntFlush x
  { x with regs := x.regs.filter fun e => isRouterReg e.1
           core := { inj1 := c.inj1, arrivals := c.arrivals, evict := { st := .idle, mgr := c.evict.mgr, area := c.evict.area } } }
/-- The modules' images. -/
def addImage (w : Nat) (im : Image) (s : State) : State :=
  modModule s w fun u => { u with cores := im :: u.cores, serials := u.serials + 1 }
/-- Whether packets on VC2 find their way from a site to another: each hop as R58 chooses it, over links that are up. -/
def reaches : Nat → State → Nat → Nat → Bool
  | 0, _, sid, t => sid == t
  | n + 1, s, sid, t =>
    sid == t || (match routeTo (getSite s sid) t with
      | some d => linkUp (getSite s sid) d && (match nbr sid d with | some m => reaches n s m t | none => false)
      | none => false)
/-- Whether a port answers a site: it is there, and packets pass between them both ways. -/
-- DEDUCED: log 117.
def portAnswers (s : State) (sid p : Nat) : Bool :=
  (getPort s p).present && reaches 800 s sid (portSite p) && reaches 800 s (portSite p) sid
/-- The serial number of the next image that a module saves: no two images have one. -/
def imageSerial (s : State) (w : Nat) : Nat := 4 * (getModule s w).serials + w % 4
/-- The errors that the reads of the pages to be written meet (R169): corrected words are rewritten and counted, uncorrectable ones
counted. -/
def noteSaved (x : Site) (time : Nat) : Site :=
  let mine (b : Nat) : Bool := (savedPages x).contains (b / 4096)
  let ws := x.core.correctable.filter mine
  let x := onCore (fun c => { c with correctable := c.correctable.filter fun b => !mine b, found := c.found.filter fun b => !mine b }) x
  let x := if ws = [] then x else setRegF x 0x052 31 0 ((regF x 0x052 31 0 + ws.length) % 2 ^ 32)
  (x.core.bad.filter mine).foldl (fun x w => countUe x w (Config.badData time w % 8)) x
/-- SAVE_COMPLETE (R409): the image is written, over whatever the area held, and the core clears itself and sends its completion. A
port that does not answer, or an uncorrectable word, fails it. -/
-- DEDUCED: log 120.
def execSaveComplete (s : State) : Res :=
  let sid := argAt s 0
  if (getSite s sid).core.evict.st ≠ .saving then .next s
  else
    let s := modSite s sid fun x => noteSaved x s.time
    let x := getSite s sid
    let c := x.core
    let p := imagePort sid c.evict.area
    let bad := !portAnswers s sid p || c.bad.any fun b => (savedPages x).contains (b / 4096)
    if bad then
      .next (finishStop (modSite s sid (onCore fun c => { c with evict := { c.evict with st := .stopped, failed := true } })) sid c.evict.mgr 5)
    else
      let w := siteW sid
      let serial := imageSerial s w
      let im : Image := { serial := serial, core := { c with inj1 := [], arrivals := [] }, regs := x.regs.filter fun e => !isRouterReg e.1 || e.1 == 0x041 }
      let a := imageAddr c.evict.area
      let s := modPort s p fun u => { u with mem := writeImage x serial u.mem a, bad := u.bad.filter fun b => !inParts (imageParts x) a b }
      .next (finishStop (modSite (addImage w im s) sid cleared) sid c.evict.mgr 0)

/-! ### Restoring and releasing (R411) -/

/-- The saved core whose unit state stands in an image, byte for byte. -/
def findImage (s : State) (m : Mem) (a : Nat) : Option Image :=
  (s.modules.flatMap fun u => u.2.cores).find? fun im =>
    unitOffsets.all fun o => mget m (a + o) == Config.unitStateByte im.serial o
/-- A stretch of a memory from an address on. -/
def stretch (m : Mem) (a n : Nat) : Mem := (m.filter fun e => decide (a ≤ e.1) && decide (e.1 < a + n)).map fun e => (e.1 - a, e.2)
/-- A trap record as `trapFields` lays it out. -/
def trapAt (m : Mem) (o : Nat) : TrapRec :=
  let w := mread m o 8
  { slot := bitsN w 7 0, grp := bitsN w 15 8, idx := bitsN w 23 16, fatal := bitN w 32, fresh := bitN w 33
    val := { cause := bitsN w 31 24, pc := wordN (mread m (o + 8) 8), info := wordN (mread m (o + 16) 8), deferred := bitN w 34 } }
/-- The supervisor context and the trap records as `supFields` lays them out. -/
def supAt (m : Mem) (parity : List (Nat × Nat)) : Sup × List TrapRec :=
  let w := mread m 0xA00 8
  ({ st := if bitsN w 7 0 = 0 then .idle else if bitsN w 7 0 = 1 then .running else .halted
     ctx := frameCtx m 0 parity, yieldTo := mread m 0xA08 8
     present := if bitN w 8 then some (trapAt m 0xA10) else none
     double := if bitN w 9 then some (trapAt m 0xA28).val else none },
   (upto (bitsN w 31 16 % 64)).map fun i => trapAt m (0xA40 + 24 * i))
/-- A saved core with the documented parts of its image as they stand in memory. -/
def rebuilt (im : Image) (m : Mem) (a : Nat) : Core :=
  let c := im.core
  let x : Site := { regs := im.regs, core := c }
  let sup := supAt (stretch m (a + supOffset) 4096) c.sup.ctx.parity
  { c with
    bad := [], correctable := [], found := [], sup := sup.1, traps := sup.2
    mem := (savedPages x).foldl (fun t p => copyBytes m t (a + 4096 * p) (4096 * p) 4096) []
    pmap := tabOf ((upto 512).map fun v => (v, wordN (mread m (a + 0x193C00 + 8 * v) 8 % 2 ^ 20)))
    pool := tabOf ((upto 384).map fun i => (i, wordN (mread m (a + 0x192000 + 8 * i) 8)))
    slots := c.slots.map fun e => (e.1, { e.2 with ctx := { frameCtx (stretch m (a + slotOffset e.1) 2560) 0 e.2.ctx.parity with lines := [] } })
    tensor := { c.tensor with slots := c.tensor.slots.map fun t =>
      (t.1, { t.2 with words := tabOf ((upto 1024).map fun i => (i, BitVec.ofNat 32 (mread m (a + 0x180000 + 4096 * t.1 + 4 * i) 4))) }) } }
/-- The FAULTREP that answers an operation whose answer was lost (R411). -/
def lostReport (x : Site) (o : Outst) : Packet := { faultRep (coreName x) x.id o.pkt rLOST 2 with dest := coreName x }
/-- The STOP record (R387). -/
-- DEDUCED: log 123.
def stopRecord (x : Site) : List TrapRec :=
  if regF x 0x023 21 21 = 1 then [{ slot := 16, val := { cause := 0x14, pc := 0, info := wordN x.core.evict.arrived } }] else []
/-- A lost operation answered as it is restored: a blocking invocation takes MESSAGE_LOST with subcode 3 (R411, R292). -/
-- DEDUCED: log 160.
def lostAnswer (time : Nat) (x : Site) (o : Outst) : Site :=
  let p := lostReport x o
  if o.dead then deadAnswer x o p
  else if o.kind = .invoke then recordTrap (onCore (fun c => dropOut' c o.seq) x) o.key (invokeTrap o 0x0E 3 rLOST 2)
  else if isInvocation o.kind then invokeAnswer x o p time
  else if isRemote o.kind then remoteAnswer x o p time
  else match o.kind, o.kind.chan? with
    | .copyTile _ _ _, _ => rootCredit x o.seq (refusedStatus o p)
    | _, some ch => copyAnswer x o ch p time
    | _, none => x
/-- The site with a restored core: its lost operations are answered, it enters RUN, and the STOP record follows. -/
def restored (time : Nat) (x : Site) (c : Core) (regs : Tab Word) : Site :=
  let name := (tget? regs 0x041).map fun n => n.toNat
  let x := { x with regs := (regs.filter fun e => !isRouterReg e.1).foldl (fun t e => tset t e.1 e.2) (x.regs.filter fun e => isRouterReg e.1) }
  let x := match name with | some n => setReg x 0x041 n | none => { x with regs := terase x.regs 0x041 }
  let old := x.core
  let x := { x with core := { c with inj1 := old.inj1, arrivals := old.arrivals.map fun p => { p with late := false } } }
  let x := c.evict.lost.foldl (lostAnswer time) x
  onCore (fun c => { c with traps := c.traps ++ stopRecord x, evict := {} }) x
/-- RESTORE_ARRIVAL (R411, R414): the held name ends, and an IDLE core checks VERSION and begins to read its image. -/
-- DEDUCED: log 121.
def execRestoreArrival (s : State) : Res :=
  let sid := argAt s 0
  match stopHead (getSite s sid) 2 with
  | none => .next s
  | some p =>
    let s := modSite s sid fun x => onRouter (fun r => { r with hold := none }) (popStop x)
    let u := getPort s (imagePort sid p.arg0)
    if (getSite s sid).core.evict.st ≠ .idle then .next (finishStop s sid p.origin 3)
    else if !portAnswers s sid (imagePort sid p.arg0) || (badIn u.bad (imageAddr p.arg0 + 0x1FF000) 8).isSome then .next (finishStop s sid p.origin 5)
    else if mread u.mem (imageAddr p.arg0 + 0x1FF000) 8 ≠ Config.unitVersion % 2 ^ 64 then .next (finishStop s sid p.origin 4)
    else .next (modSite s sid (onCore fun c => { c with evict := { st := .restoring, mgr := p.origin, area := p.arg0 } }))
/-- A RESTORE whose image cannot be read: the core is IDLE once more (R414). -/
def restoreFails (s : State) (sid mgr : Nat) : State := finishStop (modSite s sid cleared) sid mgr 5
/-- RESTORE_COMPLETE (R411): the image is applied and the core runs again; a tree that stalled for it goes on. -/
-- DEDUCED: log 119.
-- DEDUCED: log 120.
def execRestoreComplete (s : State) : Res :=
  let sid := argAt s 0
  let e := (getSite s sid).core.evict
  let u := getPort s (imagePort sid e.area)
  let a := imageAddr e.area
  if e.st ≠ .restoring then .next s
  else if !portAnswers s sid (imagePort sid e.area) || u.bad.any (inParts [(0x180000, 0x24C00), (0x1FF000, 0x20)] a) then
    .next (restoreFails s sid e.mgr)
  else match findImage s u.mem a with
    | none => .fault .imageChanged
    | some im =>
      if u.bad.any (inParts (imageParts { regs := im.regs, core := im.core }) a) then .next (restoreFails s sid e.mgr)
      else
      let s := modSite s sid fun x => restored s.time x (rebuilt im u.mem a) im.regs
      .next (finishStop ((upto 8).foldl (fun s t => treeGo s sid t) s) sid e.mgr 0)
/-- RELEASE_ARRIVAL (R409, R414): CORE_NAME returns to its reset value and the held name ends. -/
-- DEDUCED: log 121.
def execReleaseArrival (s : State) : Res :=
  let sid := argAt s 0
  match stopHead (getSite s sid) 3 with
  | none => .next s
  | some p =>
    let s := modSite s sid popStop
    match (getSite s sid).router.hold with
    | none => .next (finishStop s sid p.origin 6)
    | some _ => .next (finishStop (modSite s sid fun x =>
        onRouter (fun r => { r with hold := none }) { x with regs := terase x.regs 0x041 }) sid p.origin 0)

/-! ### Guard reports (R416) -/

/-- GUARD_REPORT: a report reaches its management core. -/
def execGuardReport (s : State) : Res :=
  let k := argAt s 0
  match mgmtHead s k .guardDrop with
  | none => .next s
  | some p => .next (raiseIrq k 3 (modMgmt (popMgmt k s) k fun m =>
      let old := mreg m 0x7E8
      let again := bitN old 52 || bitN old 53
      setMreg m 0x7E8 (setBitsN (p.arg0.toNat % 2 ^ 55) 53 52 (1 + b2n again * 2))))

end Sys2Proof.Machine
end

