-- ==== Sys2Proof/Machine/Boot.lean ====
section
/-! DEFINITION. Module reset and bring-up: firmware verification, the order in which sites join, the state they are left in,
the boot log, life counters, the capability list, and the boot registers (R3, R438 to R447). -/

namespace Sys2Proof.Machine

/-! ### Module reset (R439, R444) -/

/-- An interrupt raised at every management core of a module. -/
-- DEDUCED: log 135.
def raiseAll (w bit : Nat) (s : State) : State := (upto 4).foldl (fun s k => raiseIrq (4 * w + k) bit s) s
/-- The life counters brought up to date: one of hours or starts, dead cores found, and the events since the last update (R443). -/
-- DESIGN CHOICE: log 137.
def addLife (l : Tab Nat) (i n : Nat) : Tab Nat := tset l i (min (tget 0 l i + n) (2 ^ 64 - 1))
-- DESIGN CHOICE: log 137.
def updateLives (i : Nat) (u : Module) : Module :=
  { u with lives := u.pending.foldl (fun l e => addLife l e.1 e.2) (addLife u.lives i 1), pending := [] }
/-- LIFE_COUNTER_UPDATE: at a start (0) or after an hour of operation (1). -/
def execLifeCounterUpdate (s : State) : Res :=
  .next (modModule s (argAt s 0) (updateLives (if argAt s 1 = 0 then 1 else 0)))
/-- The firmware slot that a start runs: the active one, else the other, where its signature verifies. -/
def bootSlot (u : Module) : Option Nat :=
  let ok (k : Nat) : Bool := Config.signatureVerifies (tget [] u.images k)
  if ok u.slotActive then some u.slotActive
  else if ok (1 - u.slotActive) then some (1 - u.slotActive) else none
/-- A module as its reset leaves it: what flash holds, and the images that its cores have written to memory. -/
-- DESIGN CHOICE: log 12.
def resetModule (u : Module) : Module :=
  { present := true, bootCfg := u.bootCfg, cfg := u.bootCfg, log := u.log
    startLog := if bit u.bootCfg 3 then u.log else [], lives := u.lives, pending := u.pending
    slotActive := u.slotActive, images := u.images, cores := u.cores, serials := u.serials, spdm := u.spdm }
/-- Every unit of a wafer back at its reset state; memory behind ports stays. -/
def clearWafer (w : Nat) (s : State) : State :=
  { s with
    sites := s.sites.filter fun e => siteW e.1 != w
    mgmts := s.mgmts.filter fun e => e.1 / 4 != w
    regions := s.regions.filter fun e => e.1 / 16 != w
    ports := s.ports.map fun e => if e.1 / 132 = w then (e.1, { mem := e.2.mem, bad := e.2.bad }) else e
    ingress := s.ingress.filter fun e => e.1 / 64 != w
    bridges := s.bridges.filter fun e => e.1 / 192 != w
    modules := tmod {} s.modules w resetModule }
/-- A management core that runs a verified image from address 0. -/
-- DESIGN CHOICE: log 113.
def bootMgmt (image : Mem) : Mgmt := { st := .running, store := image.filter fun e => decide (e.1 < 0x40000) }
/-- MODULE_RESET (R444): the module's units are reset, its firmware is verified, and its management cores run it. Wafer time
is set to zero where no other module of the domain has started (R439). -/
-- DESIGN CHOICE: log 12.
def execModuleReset (s : State) : Res :=
  let w := argAt s 0
  let s := clearWafer w s
  let s := if s.modules.any fun e => e.1 != w && e.2.started then s else { s with time := 0 }
  match bootSlot (getModule s w) with
  | none => .next s
  | some k =>
    let image := tget [] (getModule s w).images k
    let s := modModule s w fun u => updateLives 1 { u with started := true, slotActive := k }
    .next ((upto 4).foldl (fun s i => modMgmt s (4 * w + i) fun _ => bootMgmt image) s)

/-! ### The boot log (R441, R442) -/

/-- The site and unit that a log entry names, and the entry of one. -/
def logKey (sid unit : Nat) : Nat := siteX sid + siteY sid * 2 ^ 8 + unit * 2 ^ 16
def logEntry (l : List Word) (sid unit : Nat) : Option Nat :=
  (l.find? fun e => e.toNat % 2 ^ 19 == logKey sid unit).map fun e => e.toNat
/-- Whether this start skips a step, and whether it runs it by its other path, by the log as the start read it. -/
def skips (u : Module) (sid unit : Nat) : Bool :=
  match logEntry u.startLog sid unit with | some e => !bitN e 19 | none => false
def alternate (u : Module) (sid unit : Nat) : Bool :=
  match logEntry u.startLog sid unit with | some e => bitN e 19 | none => false
/-- An entry added, where there is room. -/
def addLog (e : Nat) (u : Module) : Module :=
  if 2048 ≤ u.log.length then { u with full := true } else { u with log := u.log ++ [wordN e], logged := u.logged + 1 }
/-- A failed step logged: a step that has failed before counts another start. -/
def logFail (sid unit action : Nat) (u : Module) : Module :=
  match logEntry u.log sid unit with
  | some e => { u with log := u.log.map fun x =>
      if x.toNat = e then wordN (setBitsN e 27 20 (min (bitsN e 27 20 + 1) 255)) else x }
  | none => addLog (logKey sid unit + action % 2 * 2 ^ 19 + 2 ^ 20) u
/-- The entry of an alternate step that has passed removed. -/
def logPass (sid unit : Nat) (u : Module) : Module :=
  if alternate u sid unit then { u with log := u.log.filter fun e => !(e.toNat % 2 ^ 19 == logKey sid unit && bit e 19) } else u

/-! ### The capability list (R447) -/

/-- A mask of presence bits. -/
def presence (n : Nat) (f : Nat → Bool) : Nat := (upto n).foldl (fun v k => v + b2n (f k) * 2 ^ k) 0
/-- The live cores of the domain. -/
def domainLive (s : State) : Nat := s.modules.foldl (fun n e => n + e.2.joined) 0
/-- The dwords of a wafer's list. -/
def capList (s : State) (w : Nat) : List Nat :=
  let u := getModule s w
  let head (id len : Nat) : Nat := id + len * 2 ^ 16 + (Config.capVersion id).toNat * 2 ^ 32
  let mem := presence 128 fun g => (getPort s (132 * w + g)).present
  let bri := presence 192 fun b => (tget {} s.bridges (192 * w + b)).present
  let dw (v k : Nat) : Nat := v / 2 ^ (64 * k) % 2 ^ 64
  let image := tget [] u.images u.slotActive
  [head 1 3, u.joined % 2 ^ 18, domainLive s % 2 ^ 18, head 2 2, Config.unitVersion % 2 ^ 64,
   head 3 9, Config.portName % 2 ^ 18, Config.hostName % 2 ^ 18, dw mem 0, dw mem 1,
   presence 4 fun p => (getPort s (132 * w + 128 + p)).present, dw bri 0, dw bri 1, dw bri 2,
   head 4 5, 1000, 1001, 1002, 1003,
   head 5 6, Config.firmwareVersion image % 2 ^ 64, dw (Config.firmwareDigest image) 0, dw (Config.firmwareDigest image) 1,
   dw (Config.firmwareDigest image) 2, dw (Config.firmwareDigest image) 3, 0]
/-- The list written in a live site's physical page 7. -/
-- DEDUCED: log 136.
def putCapList (s : State) (sid : Nat) : State :=
  let l := capList s (siteW sid)
  modSite s sid (onCore fun c => l.zipIdx.foldl (fun c e => writePhys c (0x7000 + 8 * e.2) 8 e.1) c)

/-! ### Joining (R438, R439) -/

/-- A page-map entry of bring-up: physical page and permissions. -/
def bootEntry (p : Nat) (r w x sv : Bool) : Word :=
  wordN (p + b2n r * 2 ^ 13 + b2n w * 2 ^ 14 + b2n x * 2 ^ 15 + b2n sv * 2 ^ 18 + 2 ^ 19)
/-- The page map that bring-up leaves. -/
def bootPmap : Tab Word :=
  (upto 48).map fun v => (v,
    if v < 7 then bootEntry v true true true true
    else if v = 7 then bootEntry 7 true false false false
    else if v < 16 then bootEntry v true true false true
    else bootEntry (16 + (v - 16) % 16) true false false false)
/-- The handler entry of a firmware collective: PRIO 2, one strand, SENDERS 0, claim and initial grant (2, 4, 0, 4); its PARK is left
to the park's loader (R367). -/
def firmwareEntry (k : Nat) : Nat :=
  4 * (Config.firmwarePc k).toNat + 2 * 2 ^ 25 + 2 ^ 27 +
    (2 + 4 * 2 ^ 6 + 4 * 2 ^ 19) * 2 ^ 64 + (2 + 4 * 2 ^ 6 + 4 * 2 ^ 19) * 2 ^ 96
/-- The core that bring-up leaves, with the entries of the four firmware collectives (R367, R439). -/
def bootCore : Core :=
  (upto 4).foldl (fun c k => writePhys c (0x8000 + 32 * (1000 + k)) 32 (firmwareEntry (1000 + k)))
    { pmap := bootPmap, mboxPages := (upto 16).map fun k => 16 + k }
/-- A live site that bring-up leaves. -/
def bootSite (sid : Nat) : Site :=
  { id := sid, life := .live, regs := [(0x046, wordN 0x8000), (0x055, wordN (16 + 16 * 2 ^ 9))], core := bootCore }
/-- The ring of a site, and the sites in the rings outside a ring. -/
def ringOf (sid : Nat) : Nat := min (min (siteX sid) (siteY sid)) (min (191 - siteX sid) (191 - siteY sid))
def outerSites (r : Nat) : Nat := 36864 - (192 - 2 * r) * (192 - 2 * r)
/-- The distance of two regions in the 4 × 4 arrangement, and a region's place in the order from the first one. -/
-- DEDUCED: log 134.
def regionGap (a b : Nat) : Nat := (a % 4 - b % 4) + (b % 4 - a % 4) + (a / 4 - b / 4) + (b / 4 - a / 4)
-- DEDUCED: log 134.
def regionRank (first r : Nat) : Nat :=
  ((upto 16).filter fun q => decide (regionGap first q < regionGap first r) ||
    (regionGap first q == regionGap first r && decide (q < r))).length
/-- Whether a site has joined with a router. -/
def hasJoined (x : Site) : Bool := x.life == .live || x.life == .transit
/-- Whether the mode of this start lets a site's tests end now (R438). -/
def mayJoin (s : State) (sid : Nat) : Bool :=
  let w := siteW sid
  let u := getModule s w
  u.started && decide (w < 4) && (getSite s sid).life == .unjoined && !(u.tests.any fun t => t.sid == sid) &&
  (if bit u.cfg 0 then
     decide (2304 * regionRank (regionOf (rimAt w (bits u.cfg 2 1) 95)) (regionOf sid) ≤ u.settled)
   else decide (outerSites (ringOf sid) ≤ u.settled))
/-- The sides of a site to neighbours that have passed their tests. -/
def joinedSides (s : State) (sid : Nat) : List Nat :=
  (upto 4).filter fun d => match nbr sid d with | some n => hasJoined (getSite s n) | none => false
/-- The side of the neighbour of the ring outside that tests a site in EDGE-WAVE; a rim site's tester is its edge attachment
(R438). -/
-- DEDUCED: log 157.
def outerSide (s : State) (sid : Nat) : Option Nat :=
  if ringOf sid = 0 then none
  else (joinedSides s sid).find? fun d => match nbr sid d with | some n => decide (ringOf n < ringOf sid) | none => false
/-- The regions beside a site's that have joined in PORT-FIRST. -/
def regionsBeside (s : State) (sid : Nat) : List Nat :=
  let u := getModule s (siteW sid)
  let first := regionOf (rimAt (siteW sid) (bits u.cfg 2 1) 95)
  (upto 16).filter fun q => regionGap q (regionOf sid) == 1 && decide (2304 * (regionRank first q + 1) ≤ u.settled)
/-- Whether something tests a site (R438, R441): its first tester or, where a step of it is alternate, another neighbour that has passed;
in PORT-FIRST the firmware, from another joined region for an alternate step. -/
-- DEDUCED: log 157.
def hasTester (s : State) (sid : Nat) : Bool :=
  let u := getModule s (siteW sid)
  let other := alternate u sid 0 || alternate u sid 1
  if bit u.cfg 0 then !other || decide (2 ≤ (regionsBeside s sid).length)
  else if other then (joinedSides s sid).any fun d => some d != outerSide s sid
  else ringOf sid == 0 || (outerSide s sid).isSome
/-- What a failed regulator leaves of a site that would join: no core, and no router where both stacks of the pair have failed
(R429). -/
def unpowered (s : State) (sid : Nat) : Nat :=
  let r := regionAt sid
  if !(getRegion s r).dead then 0
  else if (getRegion s (r / 2 * 2 + (1 - r % 2))).dead then 2 else 1
/-- The spare wires and the state of a link at one end (R69). -/
def setLink (d spares : Nat) (x : Site) : Site :=
  setReg x 0x076 (setBitsN (setBitsN (reg x 0x076) (8 * d + 4) (8 * d) spares) (8 * d + 5) (8 * d + 5) 1)
/-- A step's outcome logged: a failure with BOOT_STEP, unless the step was skipped. -/
-- DEDUCED: log 66.
-- DESIGN CHOICE: log 132.
-- DEDUCED: log 135.
def bootStep (sid unit action : Nat) (ok : Bool) (s : State) : State :=
  let w := siteW sid
  if skips (getModule s w) sid unit then s
  else if ok then modModule s w (logPass sid unit)
  else raiseAll w 4 (modModule s w (logFail sid unit action))
/-- The link of a joining site on a side, once its neighbour has joined; `up` where its test passes. More than 16 failed wires leave it
down (R69). A link has one entry, by whichever end it was logged. -/
-- DEDUCED: log 66.
def joinLink (sid d : Nat) (up : Bool) (spares action : Nat) (s : State) : State :=
  match nbr sid d with
  | none => s
  | some n =>
    let u := getModule s (siteW sid)
    if !hasJoined (getSite s sid) || !hasJoined (getSite s n) || skips u sid (2 + d) || skips u n (2 + opp d) then s
    else
      let up := up && decide (spares ≤ 16)
      let (a, k) := if (logEntry u.log n (2 + opp d)).isSome then (n, 2 + opp d) else (sid, 2 + d)
      let s := bootStep a k action up s
      if up then modSite (modSite s sid (setLink d spares)) n (setLink (opp d) spares) else s
/-- The attachment of a joining site: present but at a hole, whatever its test finds, which is logged (R70, R441). -/
def joinAttach (sid : Nat) (up : Bool) (action : Nat) (s : State) : State :=
  match attachOf sid with
  | none => s
  | some _ =>
    let here := (getSite s sid).life != .hole
    let s := if here then bootStep sid 6 action up s else s
    let w := siteW sid
    let s := match portAt sid with
      | some p => modPort s p fun v => { v with
          present := here, name := ((if p % 132 < 128 then Config.portName + p % 132 else Config.hostName + (p % 132 - 128)) % 2 ^ 18) + w % 4 * 2 ^ 18 }
      | none => s
    match bridgeAt sid with
    | some b => { s with bridges := tmod {} s.bridges b fun v => { v with present := here } }
    | none => s
/-- Bring-up complete: a shortfall of live cores is logged (R3), and every live core's list is brought up to date. The spec gives no
form for the entry of a shortfall: its value is open, and each start that finds one adds one. -/
-- DEDUCED: log 136.
-- DESIGN CHOICE: log 156.
def finishBoot (w : Nat) (s : State) : State :=
  let n := (getModule s w).joined
  let s := if n < Config.guaranteedLive w then
      raiseAll w 4 (modModule s w (addLog (Config.shortfallEntry w (Config.guaranteedLive w - n)).toNat))
    else s
  (s.sites.filter fun e => e.2.life == .live).foldl (fun s e => putCapList s e.1) s
/-- The outcome of a site's tests: a skipped unit is dead without being tested (R441), and so is a site that nothing tests. -/
def outcomeOf (s : State) (t : SiteTest) : Nat :=
  let u := getModule s (siteW t.sid)
  if skips u t.sid 1 || !hasTester s t.sid then 2
  else max (max (if skips u t.sid 0 then 1 else 0) (min 2 t.outcome)) (unpowered s t.sid)
/-- A site joins with the outcome of its tests, its links and its attachment (R438, R439). -/
def joinSite (t : SiteTest) (s : State) : State :=
  let sid := t.sid
  let w := siteW sid
  let outcome := outcomeOf s t
  let s := if skips (getModule s w) sid 1 || !hasTester s sid then s
    else bootStep sid 1 t.action (decide (outcome < 2)) (bootStep sid 0 t.action (decide (outcome < 1)) s)
  let s := setSite s sid (match outcome with
    | 0 => bootSite sid
    | 1 => { id := sid, life := .transit }
    | _ => { id := sid, life := .hole })
  let s := (upto 4).foldl (fun s d => joinLink sid d (bitN t.links d) (t.spares.getD d 0) t.action s) s
  let s := joinAttach sid t.attach t.action s
  let s := modModule s w fun u => { u with
    settled := u.settled + 1
    joined := u.joined + (if outcome = 0 then 1 else 0)
    lives := if outcome = 0 then u.lives else addLife u.lives (2 + fieldOf sid) 1 }
  if outcome = 0 then putCapList s sid else s
/-- SITE_JOIN (R438, R439): the tests of a site end. In EDGE-WAVE it joins; in PORT-FIRST the sites of its region join together once
all have been tested. -/
-- DESIGN CHOICE: log 132.
def execSiteJoin (s : State) : Res :=
  let sid := argAt s 0
  if !mayJoin s sid then .next s
  else
    let w := siteW sid
    let t : SiteTest := { sid := sid, outcome := argAt s 1, links := argAt s 2, attach := argAt s 3 == 1
                          spares := (upto 4).map fun d => argAt s (5 + d), action := argAt s 4 }
    let l := (getModule s w).tests ++ [t]
    let s :=
      if !bit (getModule s w).cfg 0 then joinSite t s
      else if l.length < 2304 then modModule s w fun u => { u with tests := l }
      else l.foldl (fun s t => joinSite t s) (modModule s w fun u => { u with tests := [] })
    .next (if (getModule s w).settled = 36864 ∧ (getModule s w).tests = [] then finishBoot w s else s)

/-! ### Registers (R442, R443) -/

/-- What a boot or life register reads. -/
def bootRead (s : State) (k n : Nat) : Nat :=
  let u := getModule s (k / 4)
  let i := bitsN (modReg u 0x722) 11 1
  match n with
  | 0x720 => bits u.bootCfg 3 0
  | 0x721 => min u.joined (2 ^ 18 - 1) + b2n (decide (36864 ≤ u.settled)) * 2 ^ 18 + b2n u.full * 2 ^ 19 + min u.logged 2047 * 2 ^ 20
  | 0x723 => if bitN (modReg u 0x722) 0 then tget 0 u.lives i else ((u.log[i]?).getD 0).toNat
  | _ => modReg u n
/-- BOOT_CFG stored in flash, and the log erased (R442). -/
def bootCfgWrite (v : Nat) (u : Module) : Module := { u with bootCfg := wordN (v % 16) }
def clearLog (u : Module) : Module := { u with log := [] }
/-- An operation on a boot or life register: 1 write, 2 set, 3 clear. -/
def bootOp (op k n v : Nat) (s : State) : State :=
  let w := k / 4
  let new := if op = 1 then v else applyOp op (rwMask n) (bootRead s k n) v
  match n with
  | 0x720 => modModule s w fun u => if op = 1 ∧ bitN v 4 then clearLog (bootCfgWrite new u) else bootCfgWrite new u
  | 0x722 => modModule s w (storeModReg 0x722 new)
  | _ => s
/-- BOOT_CFG_WRITE and CLEAR_LOG by a management core. -/
def execBootCfgWrite (s : State) : Res := .next (modModule s (argAt s 0 / 4) (bootCfgWrite (argAt s 1)))
def execClearLog (s : State) : Res := .next (modModule s (argAt s 0 / 4) clearLog)
/-- What holds the supervisor images of a module's parks: the park and the reserved pages of each live core. -/
def supImages (s : State) (w : Nat) : List (Nat × Mem) :=
  (s.sites.filter fun e => siteW e.1 == w && e.2.life == .live && !e.2.dead).map fun e =>
    (localPark e.2, e.2.core.mem.filter fun b => decide (b.1 < 4096 * resvL e.2))
/-- SPDM_REQUEST (R445): a host port of a module that has started answers with signed measurements. -/
def execSpdmRequest (s : State) : Res :=
  let w := argAt s 0
  let p := argAt s 1
  if (getModule s w).started && (getPort s (132 * w + 128 + p)).present then
    .next (modModule s w fun u =>
      { u with spdm := u.spdm ++ [Config.spdmAnswer w p (argAt s 2) u.images (supImages s w) u.log] })
  else .next s

end Sys2Proof.Machine
end

