-- ==== Sys2Proof/Machine/Ingress.lean ====
section
/-! DEFINITION. Host-port ingress queues: launch lines, records, the packets they become, retries, faults and the
ingress registers (R43 to R51). -/

namespace Sys2Proof.Machine

/-! ### Registers (R51) -/

/-- The host port of a queue, as a port number, and its rim site. -/
def ingPort (q : Nat) : Nat := 132 * (q / 64) + 128 + q / 16 % 4
def ingSite (q : Nat) : Nat := portSite (ingPort q)
/-- The fields of INGRESS_BIND. -/
def ingPark (i : Ingress) : Nat := bits i.bind 27 20
def ingBoff (i : Ingress) : Nat := bits i.bind 30 28
def ingTmo (i : Ingress) : Nat := bits i.bind 55 32
def ingRetry (i : Ingress) : Nat := bits i.bind 63 56
/-- What the host reads in a queue's aperture. -/
def ingressRead (i : Ingress) (off : Nat) : Nat :=
  if off = 0x1000 then b2n i.irqEn * 2
  else if off = 0x1008 then i.nextLseq + b2n i.halted * 2 ^ 6 + i.cause * 2 ^ 8 + i.records * 2 ^ 16
  else if off = 0x1010 then i.bind.toNat
  else 0
/-- INGRESS_CTL.RESET: held lines, delta state, status and every packet are dropped; the count of packets sent stays. -/
def ingReset (i : Ingress) : Ingress := { bind := i.bind, irqEn := i.irqEn, seq := i.seq }
/-- INGRESS_RESET: the host writes 1 to INGRESS_CTL.RESET. -/
def execIngressReset (s : State) : Res := .next (modIngress s (argAt s 0) ingReset)
/-- Whether bring-up has made a park usable (R438, R440): some live core of it stands on a wafer whose wave is complete, or in a
region that has joined. -/
-- DESIGN CHOICE: log 144.
def parkUsable (s : State) (park : Nat) : Bool :=
  s.sites.any fun e => e.2.life == .live && localPark e.2 == park &&
    (bit (getModule s (siteW e.1)).cfg 0 || (getModule s (siteW e.1)).settled == 36864)
/-- INGRESS_BIND as management firmware gives it (R43): a queue is bound only once its park is usable (R440). -/
-- DESIGN CHOICE: log 144.
def bindQueue (q : Nat) (v : Word) (s : State) : State :=
  if bit v 31 && !parkUsable s (bits v 27 20) then s else modIngress s q fun i => { i with bind := v }

/-! ### Faults (R50) -/

/-- An ingress fault: the queue halts, what has not been sent is dropped, and the port's interrupt is raised. -/
-- DEDUCED: log 143.
def ingFault (q cause : Nat) (s : State) : State :=
  let i := getIngress s q
  let s := modIngress s q fun i =>
    { i with halted := true, cause := cause, held := [], timers := [], isOpen := false, bytes := []
             outs := i.outs.filter fun o => o.sent && o.due.isNone }
  if i.irqEn then modModule s (q / 64) fun u => { u with irqs := u.irqs ++ [ingPort q] } else s

/-! ### Records (R47) -/

/-- The delta-coded fields at the head of a record: mask bit, bytes; with what they leave of it. None where the
record ends too early. -/
def takeFields (mask : Nat) : List (Nat × Nat) → List Byte → Tab Nat → Option (Tab Nat × List Byte)
  | [], bs, t => some (t, bs)
  | (k, n) :: l, bs, t =>
    if !bitN mask k then takeFields mask l bs t
    else if bs.length < n then none
    else takeFields mask l (bs.drop n) (tset t k (ofBytes (bs.take n)))
def recordFields : List (Nat × Nat) :=
  [(0, 4), (1, 2), (2, 1), (3, 1), (4, 5), (5, 8), (6, 8), (7, 8), (8, 1), (9, 1)]
/-- Whether the values of a record's fields are legal (cause 5 of R50). -/
def recordLegal (f : Nat → Nat) : Bool :=
  decide (f 0 < 2 ^ 24) && decide (bitsN (f 0) 23 21 < 6) && decide (f 1 < 2 ^ 10) && decide (f 2 < 4) && decide (f 3 < 64) &&
  decide (f 4 < 2 ^ 36) && wshapeOk (f 4) && decide (f 8 < 28) && decide (f 9 ≤ if f 1 = 0 then 63 else 62) &&
  (f 1 == 0 || f 3 == 0)
/-- A record read: the cause of its fault, or its fields and its payload. -/
-- DEDUCED: log 139.
def parseRecord (bytes : List Byte) (old : Tab Nat) : Except Nat (Tab Nat × List Flit) :=
  if bytes.length < 2 then .error 6 else
  let mask := ofBytes (bytes.take 2)
  if mask / 2 ^ 11 ≠ 0 then .error 5 else
  match takeFields mask recordFields (bytes.drop 2) old with
  | none => .error 6
  | some (t, bs) =>
    if (upto 10).any fun k => (tget? t k).isNone then .error 1
    else if !recordLegal (tget 0 t) then .error 5
    else
      let n := tget 0 t 9
      if !bitN mask 10 then if n = 0 then .ok (t, []) else .error 6
      else if bs.length < 32 * n then .error 6
      else .ok (t, natFlits (ofBytes (bs.take (32 * n))) n)

/-! ### Packets (R48) -/

/-- The packet of a record for a destination with a work identifier. -/
def recordPacket (i : Ingress) (f : Nat → Nat) (pay : List Flit) (sid dest wid : Nat) : Packet :=
  let invoke : Bool := f 1 != 0
  let pay := if invoke then BitVec.ofNat 256 (wid + f 4 * 2 ^ 64) :: pay else pay
  { dest := dest, src := ingName i, kind := if invoke then kINVOKE else kDATA, vc := 0, prio := f 2, handler := f 1
    counter := f 3, len := pay.length, stream := 0, scope := 5, fmt := f 8, park := ingPark i, ks := b2n invoke
    arg0 := wordN (f 6), arg1 := wordN (f 7), payload := pay, origin := sid, ing := true }
/-- The names of the live cores of a park, rising. -/
-- DEDUCED: log 141.
def parkNames (s : State) (park : Nat) : List Nat :=
  (s.sites.filterMap fun e =>
    if e.2.life == .live && !e.2.dead && localPark e.2 == park && !isNull (coreName e.2) then some (coreName e.2) else none).mergeSort
      fun a b => decide (a ≤ b)
/-- A work identifier with one level replaced. -/
def widWith (wid wshape l v : Nat) : Nat :=
  let low := levelLow wshape l
  wid - levelValue wid wshape l * 2 ^ low + v % 2 ^ levelWidth wshape l * 2 ^ low
/-- The packets of a record, none where a range has more cores than its level numbers (cause 9). -/
-- DEDUCED: log 141.
def recordPackets (s : State) (q : Nat) (f : Nat → Nat) (pay : List Flit) : Option (List Packet) :=
  let i := getIngress s q
  let sid := ingSite q
  if !bitN (f 0) 20 then some [recordPacket i f pay sid (f 0 % 2 ^ 20) (f 5)]
  else
    let l := bitsN (f 0) 23 21
    let names := parkNames s (ingPark i)
    if 2 ^ levelWidth (f 4) l < names.length then none
    else some (names.zipIdx.map fun e => recordPacket i f pay sid e.1 (widWith (f 5) (f 4) l e.2))

/-! ### Sending (R48, R49) -/

/-- Whether a packet may be sent: no packet to its destination waits for a retry. -/
def ingFree (l : List IngOut) (dest : Nat) : Bool := !l.any fun o => o.due.isSome && o.pkt.dest == dest
/-- A packet sent for the first time gets the next sequence number; a packet of the same number that awaits an answer no longer
counts, one that waits for its retry does. -/
def sendOut (q j : Nat) (o : IngOut) (s : State) : State :=
  let i := getIngress s q
  let p := { o.pkt with seq := i.seq }
  let l := (i.outs.set j { o with sent := true, pkt := p }).zipIdx.filter fun e => e.2 == j || !(e.1.sent && e.1.due.isNone && e.1.pkt.seq == p.seq)
  injectEdge (modIngress s q fun i => { i with seq := (i.seq + 1) % 2 ^ 16, outs := l.map fun e => e.1 }) (ingSite q) p
/-- The packets that may be sent are sent, in order. -/
-- DESIGN CHOICE: log 142.
def pumpQueue (q : Nat) : Nat → State → State
  | 0, s => s
  | n + 1, s =>
    let i := getIngress s q
    match i.outs.findIdx? fun o => !o.sent && ingFree i.outs o.pkt.dest with
    | none => s
    | some j => match i.outs[j]? with
      | some o => pumpQueue q n (sendOut q j o s)
      | none => s
def pump (q : Nat) (s : State) : State := pumpQueue q (getIngress s q).outs.length s
/-- A record whose lines have all been consumed: launched, or a fault. -/
-- DESIGN CHOICE: log 142.
def launchRecord (q : Nat) (s : State) : State :=
  let i := getIngress s q
  match parseRecord i.bytes i.fields with
  | .error k => ingFault q k s
  | .ok (t, pay) => match recordPackets s q (tget 0 t) pay with
    | none => ingFault q 9 s
    | some l => pump q (modIngress s q fun i =>
        { i with isOpen := false, bytes := [], fields := t, records := (i.records + 1) % 2 ^ 32
                 outs := i.outs ++ l.map fun p => { pkt := p } })

/-! ### Lines (R44 to R46) -/

/-- The lines that may be consumed now, in order. -/
def consume (q : Nat) : Nat → State → State
  | 0, s => s
  | n + 1, s =>
    let i := getIngress s q
    if i.halted then s else
    match tget? i.held i.nextLseq with
    | none => s
    | some l =>
      let first := l.getLsbD 6
      if first == i.isOpen then ingFault q 4 s
      else
        let s := modIngress s q fun i =>
          { i with held := terase i.held i.nextLseq, timers := terase i.timers i.nextLseq, nextLseq := (i.nextLseq + 1) % 64
                   isOpen := true, bytes := i.bytes ++ bytesOf 63 (l.toNat / 256) }
        consume q n (if l.getLsbD 7 then launchRecord q s else s)
/-- A line that has come: held, with a timer where it closes a record behind a gap, and what may be consumed is consumed. -/
def lineArrives (q data : Nat) (s : State) : State :=
  let i := getIngress s q
  let lseq := data % 64
  if (tget? i.held lseq).isSome then ingFault q 3 s
  else
    let line : BitVec 512 := BitVec.ofNat 512 data
    let timers := if bitN data 7 && lseq != i.nextLseq then tset i.timers lseq (s.time + ingTmo i) else i.timers
    consume q 64 (modIngress s q fun i => { i with held := tset i.held lseq line, timers := timers })
/-- LAUNCH_LINE_WRITE: a write of the host at an offset of a queue's aperture (R43 to R46, R50, R51). -/
-- DEDUCED: log 140.
def execLaunchLineWrite (s : State) : Res :=
  let q := argAt s 0
  let off := argAt s 1
  let size := argAt s 2
  let data := argAt s 3
  let i := getIngress s q
  .next (
    if !(getPort s (ingPort q)).present then s
    else if off = 0x1000 then
      let s := if bitN data 0 then modIngress s q ingReset else s
      modIngress s q fun i => { i with irqEn := bitN data 1 }
    else if 0x1000 ≤ off then s
    else if !ingBound i || i.halted then s
    else if size ≠ 64 ∨ off % 64 ≠ 0 then ingFault q 4 s
    else lineArrives q data s)
/-- INGRESS_TIMER_EXPIRY (R46): a FINAL line is still held after the cycle in which its timer expires. -/
def execIngressTimerExpiry (s : State) : Res :=
  let q := argAt s 0
  .next (if (getIngress s q).timers.any fun e => decide (e.2 < s.time) then ingFault q 2 s else s)

/-! ### Answers and retries (R49) -/

/-- A refusal of a packet: a retry is due, or a fault. -/
-- DEDUCED: log 143.
def ingRefused (q j : Nat) (o : IngOut) (code : Nat) (s : State) : State :=
  let i := getIngress s q
  if code = rLOST then ingFault q 10 s
  else if code ≠ rFULL ∧ code ≠ rRETRY then ingFault q 7 s
  else if code = rFULL ∧ ingRetry i ≤ o.full then ingFault q 8 s
  else
    let due := s.time + 16 * 2 ^ ingBoff i * 2 ^ min o.tries 8
    let o := { o with tries := o.tries + 1, full := o.full + (if code = rFULL then 1 else 0), due := some due }
    modIngress s q fun i => { i with outs := i.outs.set j o }
/-- INGRESS_ANSWER: the oldest answer is matched by SEQ; one that arrives while the queue is halted is ignored (R50). -/
def execIngressAnswer (s : State) : Res :=
  let q := argAt s 0
  match (getIngress s q).arrivals with
  | [] => .next s
  | p :: rest =>
    let s := modIngress s q fun i => { i with arrivals := rest }
    let i := getIngress s q
    match i.outs.findIdx? fun o => o.sent && o.due.isNone && o.pkt.seq == p.seq with
    | none => .next s
    | some j => match i.outs[j]? with
      | none => .next s
      | some o =>
        .next (
          if i.halted then s
          else if p.kind = kNACK ∨ p.kind = kFAULTREP then ingRefused q j o (refusalOf p) s
          else modIngress s q fun i => { i with outs := i.outs.eraseIdx j })
/-- INGRESS_RETRY: a refused packet whose delay has passed is sent again, and those it held up follow. -/
def execIngressRetry (s : State) : Res :=
  let q := argAt s 0
  match (getIngress s q).outs[argAt s 1]? with
  | none => .next s
  | some o => match o.due with
    | none => .next s
    | some t =>
      if s.time < t then .next s
      else
        let s := modIngress s q fun i => { i with outs := i.outs.set (argAt s 1) { o with due := none } }
        .next (pump q (injectEdge s (ingSite q) o.pkt))

end Sys2Proof.Machine
end

