-- ==== Sys2Proof/Machine/System.lean ====
section
/-! DEFINITION. The register instructions SYSR, SYSW, SYSSET and SYSCLR at every level: context registers, the window onto the
presented strand, the registers of a site, those of a management core, port operations and the remote window (R391, R393,
R396). -/

namespace Sys2Proof.Machine

/-! ### The window onto the presented strand (R393) -/

/-- Whether a number lies in the window. -/
def inStrandWindow (n : Nat) : Bool := decide (0x100 ≤ n) && decide (n ≤ 0x15F)
/-- The number among a context's registers for a window number above the general registers. -/
def windowCtx (n : Nat) : Nat := if n < 0x150 then n - 0x147 else n - 0x140
/-- A window register of the strand in a slot read and written. -/
def strandRead (c : Core) (k n : Nat) : Nat :=
  if n < 0x140 then (gGet c (slotOf c k).ctx (n - 0x100)).toNat else ctxReg (slotOf c k).ctx (windowCtx n)
def strandWrite (k n v : Nat) (c : Core) : Core :=
  if n < 0x140 then slotSetG c k (n - 0x100) (wordN v)
  else modSlot c k fun sl => { sl with ctx := setCtxReg sl.ctx (windowCtx n) v }
/-- The bad register of the presented strand that a window read meets: file and number. -/
-- DEDUCED: log 23.
def strandParity (x : Ctx) (n : Nat) : Option (Nat × Nat) :=
  if n < 0x140 then parityOf x (.rg (n - 0x100)) else if 0x150 ≤ n then parityOf x (.rm (n - 0x150)) else none
/-- The trap of a window read of a bad register, whose value is then lost (R388). -/
-- DEDUCED: log 23.
def windowParity (s : State) (n : Nat) : Option State :=
  if !inStrandWindow n then none
  else (actSlot s).bind fun k => (strandParity (slotOf (curSite s).core k).ctx n).map fun e =>
    takeTrap (modSite s (curSid s) (onCore fun c => modSlot c k fun sl =>
      { sl with ctx := { sl.ctx with parity := sl.ctx.parity.filter fun q => q != e } })) (parityTrap s e.1 e.2)

/-! ### Registers at a core -/

/-- What a register reads for a strand or a supervisor context. -/
def coreRead (n : Nat) (s : State) : Nat :=
  if isCtxNumber n then ctxReg (curCtx s) n
  else if inStrandWindow n then match actSlot s with | some k => strandRead (curSite s).core k n | none => 0
  else readReg (curSite s) n
/-- An operation of a strand or a supervisor context on a register: 1 write, 2 set, 3 clear. None where it traps PRIVILEGE. -/
def coreOp (op n v : Nat) (s : State) : Option State :=
  let new := if op = 1 then v else applyOp op (rwMask n) (coreRead n s) v
  if isCtxNumber n then some (modCurCtx s fun x => setCtxReg x n new)
  else if inStrandWindow n then match actSlot s with
    | some k => some (modSite s (curSid s) (onCore (strandWrite k n new)))
    | none => some s
  else regOp (curLevel s) op n v (curSid s) s

/-! ### Registers at a management core -/

/-- What a register of a management core reads. -/
def mgmtRead (k n : Nat) (s : State) : Nat :=
  if isCtxNumber n then ctxReg (getMgmt s k).ctx n
  else if 0x710 ≤ n ∧ n ≤ 0x719 then powerRead s k n
  else if 0x720 ≤ n ∧ n ≤ 0x723 then bootRead s k n
  else if n = 0x7E0 then 0
  else mreg (getMgmt s k) n
/-- An operation of a management core on one of its registers: 1 write, 2 set, 3 clear. -/
def mgmtOp (op k n v : Nat) (s : State) : State :=
  let old := mgmtRead k n s
  let new := if op = 1 then v else applyOp op (rwMask n) old v
  if isCtxNumber n then modMgmt s k fun m => { m with ctx := setCtxReg m.ctx n new }
  else if 0x710 ≤ n ∧ n ≤ 0x719 then powerOp op k n v s
  else if 0x720 ≤ n ∧ n ≤ 0x723 then bootOp op k n v s
  else if n = 0x7E0 then if op = 1 then stopCmd k v s else s
  else
    let kept := if op = 1 then old - (old &&& (v &&& w1cMask n)) else old
    modMgmt s k fun m => setMreg m n (kept - (kept &&& rwMask n) + (new &&& rwMask n))
/-- Whether a number is PORT_ROOT or PORT_CMD (R262). -/
def isPortReg (n : Nat) : Bool := n == 0x731 || n == 0x732
/-- The port that PORT_SEL names, where it is present. -/
def selectedPort (k : Nat) (s : State) : Option Nat :=
  let u := bitsN (mreg (getMgmt s k) 0x730) 7 0
  let p := 132 * (k / 4) + u
  if u < 132 ∧ (getPort s p).present = true then some p else none
/-- An access to PORT_ROOT or PORT_CMD (0 read): refused, or sent to the port and waited for. -/
def portAccess (k n op v : Nat) (d : Option Nat) (s : State) : State :=
  let park := bitsN (mreg (getMgmt s k) 0x730) 15 8
  match selectedPort k s with
  | none =>
    let s := modMgmt s k fun m => setMreg m 0x730 (setBitsN (mreg m 0x730) 16 16 1)
    advance (match d with | some d => writeG s d 0 | none => s) 4
  | some p =>
    let s := modMgmt s k fun m => { setMreg m 0x730 (setBitsN (mreg m 0x730) 16 16 0) with wait := .port d }
    send2 s (mgmtSite k) (posted (mgmtSite k)
      { kind := kMGMT, vc := 2, dest := siteWord (portSite p), src := nullCore
        arg0 := wordN (n + op * 2 ^ 12 + park * 2 ^ 16), arg1 := wordN v, mgmt := .portOp })
/-- A window access sent and waited for. -/
def windowSend (k n op v : Nat) (d : Option Nat) (s : State) : State :=
  sendWindow k (n - 0x800) op v (modMgmt s k fun m => { m with wait := .window d })

/-! ### The instructions (R396) -/

/-- Whether an access waits for the vector instructions of the agent at hand (R207). -/
def sysWaits (n : Nat) (s : State) : Bool := decide (1 ≤ n) && decide (n ≤ 3) && vectorsOpen s
/-- SYSR's effect. -/
def sysRead (d n : Nat) (s : State) : Res :=
  if sysWaits n s then .next s
  else match s.cur with
  | .mgmt k =>
    if 0x800 ≤ n then .next (windowSend k n 0 0 (some d) s)
    else if isPortReg n then .next (portAccess k n 0 0 (some d) s)
    else retG d (wordN (mgmtRead k n s)) s
  | _ => match windowParity s n with
    | some t => .next t
    | none => retG d (wordN (coreRead n s)) s
/-- The effect of SYSW (1), SYSSET (2) and SYSCLR (3). -/
def sysOp (i : Instr) (op d n : Nat) (s : State) : Res :=
  let v := (readG s d).toNat
  if sysWaits n s then .next s
  else match s.cur with
  | .mgmt k =>
    if 0x800 ≤ n then .next (windowSend k n op v none s)
    else if isPortReg n then .next (portAccess k n op v none s)
    else done 4 (mgmtOp op k n v s)
  | _ => match (if op = 1 then none else windowParity s n) with
    | some t => .next t
    | none => match coreOp op n v s with
      | some t => done 4 t
      | none => privilege i s
/-- SYSR (R396). -/
def execSysr (d n : Nat) (s : State) : Res := issue (.sysr d n) s fun s => sysRead d n s
/-- SYSW (R396). -/
def execSysw (d n : Nat) (s : State) : Res := issue (.sysw d n) s fun s => sysOp (.sysw d n) 1 d n s
/-- SYSSET (R396). -/
def execSysset (d n : Nat) (s : State) : Res := issue (.sysset d n) s fun s => sysOp (.sysset d n) 2 d n s
/-- SYSCLR (R396). -/
def execSysclr (d n : Nat) (s : State) : Res := issue (.sysclr d n) s fun s => sysOp (.sysclr d n) 3 d n s

end Sys2Proof.Machine
end

