-- ==== Sys2Proof/Machine/Dispatch.lean ====
section
/-! DEFINITION. The meaning of every operation and event, one arm per constructor. -/

namespace Sys2Proof.Machine

/-- One operation or event of the table at a state. -/
def exec (i : Instr) (s : State) : Host.Outcome State Fault Refusal :=
  match i with
  | .add d a b => Sys2Proof.Machine.execAdd d a b s
  | .sub d a b => Sys2Proof.Machine.execSub d a b s
  | .and d a b => Sys2Proof.Machine.execAnd d a b s
  | .or d a b => Sys2Proof.Machine.execOr d a b s
  | .xor d a b => Sys2Proof.Machine.execXor d a b s
  | .andn d a b => Sys2Proof.Machine.execAndn d a b s
  | .shl d a b => Sys2Proof.Machine.execShl d a b s
  | .shr d a b => Sys2Proof.Machine.execShr d a b s
  | .sar d a b => Sys2Proof.Machine.execSar d a b s
  | .rol d a b => Sys2Proof.Machine.execRol d a b s
  | .mul d a b => Sys2Proof.Machine.execMul d a b s
  | .mulh d a b => Sys2Proof.Machine.execMulh d a b s
  | .mulhn d a b => Sys2Proof.Machine.execMulhn d a b s
  | .div d a b => Sys2Proof.Machine.execDiv d a b s
  | .divn d a b => Sys2Proof.Machine.execDivn d a b s
  | .rem d a b => Sys2Proof.Machine.execRem d a b s
  | .remn d a b => Sys2Proof.Machine.execRemn d a b s
  | .min d a b => Sys2Proof.Machine.execMin d a b s
  | .max d a b => Sys2Proof.Machine.execMax d a b s
  | .minn d a b => Sys2Proof.Machine.execMinn d a b s
  | .maxn d a b => Sys2Proof.Machine.execMaxn d a b s
  | .slt d a b => Sys2Proof.Machine.execSlt d a b s
  | .sltn d a b => Sys2Proof.Machine.execSltn d a b s
  | .seq d a b => Sys2Proof.Machine.execSeq d a b s
  | .sel d a b => Sys2Proof.Machine.execSel d a b s
  | .clz d a => Sys2Proof.Machine.execClz d a s
  | .ctz d a => Sys2Proof.Machine.execCtz d a s
  | .popc d a => Sys2Proof.Machine.execPopc d a s
  | .bfx d a b => Sys2Proof.Machine.execBfx d a b s
  | .bfi d a b => Sys2Proof.Machine.execBfi d a b s
  | .addi d a im => Sys2Proof.Machine.execAddi d a im s
  | .andi d a im => Sys2Proof.Machine.execAndi d a im s
  | .ori d a im => Sys2Proof.Machine.execOri d a im s
  | .xori d a im => Sys2Proof.Machine.execXori d a im s
  | .shli d a st => Sys2Proof.Machine.execShli d a st s
  | .shri d a st => Sys2Proof.Machine.execShri d a st s
  | .sari d a st => Sys2Proof.Machine.execSari d a st s
  | .slti d a im => Sys2Proof.Machine.execSlti d a im s
  | .sltin d a im => Sys2Proof.Machine.execSltin d a im s
  | .lui d im => Sys2Proof.Machine.execLui d im s
  | .adrp d im => Sys2Proof.Machine.execAdrp d im s
  | .beq a b o => Sys2Proof.Machine.execBeq a b o s
  | .bne a b o => Sys2Proof.Machine.execBne a b o s
  | .blt a b o => Sys2Proof.Machine.execBlt a b o s
  | .bge a b o => Sys2Proof.Machine.execBge a b o s
  | .bltn a b o => Sys2Proof.Machine.execBltn a b o s
  | .bgen a b o => Sys2Proof.Machine.execBgen a b o s
  | .jal d o => Sys2Proof.Machine.execJal d o s
  | .jalr d a im => Sys2Proof.Machine.execJalr d a im s
  | .nop => Sys2Proof.Machine.execNop s
  | .yield => Sys2Proof.Machine.execYield s
  | .exit => Sys2Proof.Machine.execExit s
  | .wid d b => Sys2Proof.Machine.execWid d b s
  | .time d => Sys2Proof.Machine.execTime d s
  | .ldb d a st o => Sys2Proof.Machine.execLdb d a st o s
  | .ldbn d a st o => Sys2Proof.Machine.execLdbn d a st o s
  | .ldh d a st o => Sys2Proof.Machine.execLdh d a st o s
  | .ldhn d a st o => Sys2Proof.Machine.execLdhn d a st o s
  | .ldw d a st o => Sys2Proof.Machine.execLdw d a st o s
  | .ldwn d a st o => Sys2Proof.Machine.execLdwn d a st o s
  | .ldd d a st o => Sys2Proof.Machine.execLdd d a st o s
  | .stb d a st o => Sys2Proof.Machine.execStb d a st o s
  | .sth d a st o => Sys2Proof.Machine.execSth d a st o s
  | .stw d a st o => Sys2Proof.Machine.execStw d a st o s
  | .std d a st o => Sys2Proof.Machine.execStd d a st o s
  | .ladd d a b st => Sys2Proof.Machine.execLadd d a b st s
  | .lmin d a b st => Sys2Proof.Machine.execLmin d a b st s
  | .lmax d a b st => Sys2Proof.Machine.execLmax d a b st s
  | .land d a b st => Sys2Proof.Machine.execLand d a b st s
  | .lor d a b st => Sys2Proof.Machine.execLor d a b st s
  | .lxor d a b st => Sys2Proof.Machine.execLxor d a b st s
  | .lswp d a b st => Sys2Proof.Machine.execLswp d a b st s
  | .lcas d a b st => Sys2Proof.Machine.execLcas d a b st s
  | .fence m k => Sys2Proof.Machine.execFence m k s
  | .fpop d a => Sys2Proof.Machine.execFpop d a s
  | .vld d a st o => Sys2Proof.Machine.execVld d a st o s
  | .vst d a st o => Sys2Proof.Machine.execVst d a st o s
  | .fpopv d a => Sys2Proof.Machine.execFpopv d a s
  | .vgath d a b w st => Sys2Proof.Machine.execVgath d a b w st s
  | .vscat d a b w st => Sys2Proof.Machine.execVscat d a b w st s
  | .vadd d a b t => Sys2Proof.Machine.execVadd d a b t s
  | .vsub d a b t => Sys2Proof.Machine.execVsub d a b t s
  | .vmul d a b t => Sys2Proof.Machine.execVmul d a b t s
  | .vmin d a b t => Sys2Proof.Machine.execVmin d a b t s
  | .vmax d a b t => Sys2Proof.Machine.execVmax d a b t s
  | .vfma d a b t => Sys2Proof.Machine.execVfma d a b t s
  | .vshl d a b t => Sys2Proof.Machine.execVshl d a b t s
  | .vshr d a b t => Sys2Proof.Machine.execVshr d a b t s
  | .vcmpEq d a b t => Sys2Proof.Machine.execVcmpEq d a b t s
  | .vcmpLt d a b t => Sys2Proof.Machine.execVcmpLt d a b t s
  | .vcmpLe d a b t => Sys2Proof.Machine.execVcmpLe d a b t s
  | .vabs d a t => Sys2Proof.Machine.execVabs d a t s
  | .vneg d a t => Sys2Proof.Machine.execVneg d a t s
  | .vrcp d a t => Sys2Proof.Machine.execVrcp d a t s
  | .vrsq d a t => Sys2Proof.Machine.execVrsq d a t s
  | .vexp2 d a t => Sys2Proof.Machine.execVexp2 d a t s
  | .vlog2 d a t => Sys2Proof.Machine.execVlog2 d a t s
  | .vtanh d a t => Sys2Proof.Machine.execVtanh d a t s
  | .vsum d a t => Sys2Proof.Machine.execVsum d a t s
  | .vrmax d a t => Sys2Proof.Machine.execVrmax d a t s
  | .vand d a b => Sys2Proof.Machine.execVand d a b s
  | .vor d a b => Sys2Proof.Machine.execVor d a b s
  | .vxor d a b => Sys2Proof.Machine.execVxor d a b s
  | .vsel d a b w => Sys2Proof.Machine.execVsel d a b w s
  | .vperm d a b w => Sys2Proof.Machine.execVperm d a b w s
  | .vext d a b w => Sys2Proof.Machine.execVext d a b w s
  | .vins d a b w => Sys2Proof.Machine.execVins d a b w s
  | .vbcast d a w => Sys2Proof.Machine.execVbcast d a w s
  | .vcvt d a f st p => Sys2Proof.Machine.execVcvt d a f st p s
  | .vqnt d a f st p => Sys2Proof.Machine.execVqnt d a f st p s
  | .vdqnt d a f st p => Sys2Proof.Machine.execVdqnt d a f st p s
  | .vcvtLane d a f st p => Sys2Proof.Machine.execVcvtLane d a f st p s
  | .tmma d a b st => Sys2Proof.Machine.execTmma d a b st s
  | .tzero d => Sys2Proof.Machine.execTzero d s
  | .tstat d a => Sys2Proof.Machine.execTstat d a s
  | .tcfg d a b mm nn af bf acc => Sys2Proof.Machine.execTcfg d a b mm nn af bf acc s
  | .tcfgZ d a b mm nn af bf acc => Sys2Proof.Machine.execTcfgZ d a b mm nn af bf acc s
  | .tdrain d a b f raw st => Sys2Proof.Machine.execTdrain d a b f raw st s
  | .tldacc d a b f raw st => Sys2Proof.Machine.execTldacc d a b f raw st s
  | .tdrainF d a b f raw st => Sys2Proof.Machine.execTdrainF d a b f raw st s
  | .claim a => Sys2Proof.Machine.execClaim a s
  | .acqB d a => Sys2Proof.Machine.execAcqB d a s
  | .acqL d a => Sys2Proof.Machine.execAcqL d a s
  | .acqT d a => Sys2Proof.Machine.execAcqT d a s
  | .acqC d a => Sys2Proof.Machine.execAcqC d a s
  | .tacqB d a => Sys2Proof.Machine.execTacqB d a s
  | .tacqL d a => Sys2Proof.Machine.execTacqL d a s
  | .tacqT d a => Sys2Proof.Machine.execTacqT d a s
  | .tacqC d a => Sys2Proof.Machine.execTacqC d a s
  | .relB a => Sys2Proof.Machine.execRelB a s
  | .relL a b => Sys2Proof.Machine.execRelL a b s
  | .relT a => Sys2Proof.Machine.execRelT a s
  | .relC a => Sys2Proof.Machine.execRelC a s
  | .relall => Sys2Proof.Machine.execRelall s
  | .qres d b => Sys2Proof.Machine.execQres d b s
  | .send a => Sys2Proof.Machine.execSend a s
  | .sendt d a => Sys2Proof.Machine.execSendt d a s
  | .sendl a b st => Sys2Proof.Machine.execSendl a b st s
  | .invoke a b => Sys2Proof.Machine.execInvoke a b s
  | .invoket d a b => Sys2Proof.Machine.execInvoket d a b s
  | .invokep a b => Sys2Proof.Machine.execInvokep a b s
  | .recv d a => Sys2Proof.Machine.execRecv d a s
  | .recvt d a => Sys2Proof.Machine.execRecvt d a s
  | .waitmsg a => Sys2Proof.Machine.execWaitmsg a s
  | .reply a b => Sys2Proof.Machine.execReply a b s
  | .invokei a b h len prio wsel wx f => Sys2Proof.Machine.execInvokei a b h len prio wsel wx f s
  | .invokeiT d a b h len prio wsel wx f => Sys2Proof.Machine.execInvokeiT d a b h len prio wsel wx f s
  | .invokeiP a b h len prio wsel wx f => Sys2Proof.Machine.execInvokeiP a b h len prio wsel wx f s
  | .dset d a b => Sys2Proof.Machine.execDset d a b s
  | .ddec d a b => Sys2Proof.Machine.execDdec d a b s
  | .dwait d => Sys2Proof.Machine.execDwait d s
  | .rld d a st c o z => Sys2Proof.Machine.execRld d a st c o z s
  | .rst d a st c o z => Sys2Proof.Machine.execRst d a st c o z s
  | .nst d a st c o z => Sys2Proof.Machine.execNst d a st c o z s
  | .radd d a st c o z => Sys2Proof.Machine.execRadd d a st c o z s
  | .rmin d a st c o z => Sys2Proof.Machine.execRmin d a st c o z s
  | .rmax d a st c o z => Sys2Proof.Machine.execRmax d a st c o z s
  | .rand d a st c o z => Sys2Proof.Machine.execRand d a st c o z s
  | .ror d a st c o z => Sys2Proof.Machine.execRor d a st c o z s
  | .rxor d a st c o z => Sys2Proof.Machine.execRxor d a st c o z s
  | .rswp d a st c o z => Sys2Proof.Machine.execRswp d a st c o z s
  | .rcas d a st c o z => Sys2Proof.Machine.execRcas d a st c o z s
  | .mcst z d a b st c o => Sys2Proof.Machine.execMcst z d a b st c o s
  | .hinit a b => Sys2Proof.Machine.execHinit a b s
  | .harrive d a x c => Sys2Proof.Machine.execHarrive d a x c s
  | .harriveRemote d a x c => Sys2Proof.Machine.execHarriveRemote d a x c s
  | .hwait a b => Sys2Proof.Machine.execHwait a b s
  | .hwaitRemote a b => Sys2Proof.Machine.execHwaitRemote a b s
  | .hexpect a b => Sys2Proof.Machine.execHexpect a b s
  | .htest d a b => Sys2Proof.Machine.execHtest d a b s
  | .fred d a st => Sys2Proof.Machine.execFred d a st s
  | .fbcast d a st => Sys2Proof.Machine.execFbcast d a st s
  | .frwait d a => Sys2Proof.Machine.execFrwait d a s
  | .cpy d a b g ss ds st c => Sys2Proof.Machine.execCpy d a b g ss ds st c s
  | .cpyr d a b g ss ds st c => Sys2Proof.Machine.execCpyr d a b g ss ds st c s
  | .cpym d a b g ss st c t => Sys2Proof.Machine.execCpym d a b g ss st c t s
  | .cpys e d a b g ss st c k => Sys2Proof.Machine.execCpys e d a b g ss st c k s
  | .cpyw d a => Sys2Proof.Machine.execCpyw d a s
  | .cpyq d a => Sys2Proof.Machine.execCpyq d a s
  | .cpyx a => Sys2Proof.Machine.execCpyx a s
  | .halo d a b dirs st => Sys2Proof.Machine.execHalo d a b dirs st s
  | .sysr d n => Sys2Proof.Machine.execSysr d n s
  | .sysw d n => Sys2Proof.Machine.execSysw d n s
  | .sysset d n => Sys2Proof.Machine.execSysset d n s
  | .sysclr d n => Sys2Proof.Machine.execSysclr d n s
  | .trap n => Sys2Proof.Machine.execTrap n s
  | .brk n => Sys2Proof.Machine.execBrk n s
  | .eret => Sys2Proof.Machine.execEret s
  | .halt => Sys2Proof.Machine.execHalt s
  | .wfi => Sys2Proof.Machine.execWfi s
  | .moduleReset => Sys2Proof.Machine.execModuleReset s
  | .siteJoin => Sys2Proof.Machine.execSiteJoin s
  | .lifeCounterUpdate => Sys2Proof.Machine.execLifeCounterUpdate s
  | .spdmRequest => Sys2Proof.Machine.execSpdmRequest s
  | .bootCfgWrite => Sys2Proof.Machine.execBootCfgWrite s
  | .clearLog => Sys2Proof.Machine.execClearLog s
  | .registerWrite => Sys2Proof.Machine.execRegisterWrite s
  | .localAccessPerform => Sys2Proof.Machine.execLocalAccessPerform s
  | .eccCorrectionWriteback => Sys2Proof.Machine.execEccCorrectionWriteback s
  | .scrubLineRead => Sys2Proof.Machine.execScrubLineRead s
  | .fetchLineFill => Sys2Proof.Machine.execFetchLineFill s
  | .agePromotion => Sys2Proof.Machine.execAgePromotion s
  | .yieldWindowEnd => Sys2Proof.Machine.execYieldWindowEnd s
  | .admissionEvaluation => Sys2Proof.Machine.execAdmissionEvaluation s
  | .frameSaveDone => Sys2Proof.Machine.execFrameSaveDone s
  | .frameRestoreDone => Sys2Proof.Machine.execFrameRestoreDone s
  | .groupLeavesDraining => Sys2Proof.Machine.execGroupLeavesDraining s
  | .safetyTestEnd => Sys2Proof.Machine.execSafetyTestEnd s
  | .tumblerReevaluation => Sys2Proof.Machine.execTumblerReevaluation s
  | .releaseApply => Sys2Proof.Machine.execReleaseApply s
  | .pageZeroingDone => Sys2Proof.Machine.execPageZeroingDone s
  | .tumblerCfgWrite => Sys2Proof.Machine.execTumblerCfgWrite s
  | .pmapDataWrite => Sys2Proof.Machine.execPmapDataWrite s
  | .pmapWriteEffect => Sys2Proof.Machine.execPmapWriteEffect s
  | .htabBaseWrite => Sys2Proof.Machine.execHtabBaseWrite s
  | .mboxCfgWrite => Sys2Proof.Machine.execMboxCfgWrite s
  | .msglenMaxWrite => Sys2Proof.Machine.execMsglenMaxWrite s
  | .tierCfgWrite => Sys2Proof.Machine.execTierCfgWrite s
  | .tdecDataWrite => Sys2Proof.Machine.execTdecDataWrite s
  | .tdecWriteEffect => Sys2Proof.Machine.execTdecWriteEffect s
  | .fpctlWrite => Sys2Proof.Machine.execFpctlWrite s
  | .steerDataWrite => Sys2Proof.Machine.execSteerDataWrite s
  | .ntDataWrite => Sys2Proof.Machine.execNtDataWrite s
  | .coreNameWrite => Sys2Proof.Machine.execCoreNameWrite s
  | .routeFlush => Sys2Proof.Machine.execRouteFlush s
  | .probeClear => Sys2Proof.Machine.execProbeClear s
  | .nameTableTick => Sys2Proof.Machine.execNameTableTick s
  | .rtreeDataWrite => Sys2Proof.Machine.execRtreeDataWrite s
  | .counterUnbind => Sys2Proof.Machine.execCounterUnbind s
  | .dcntSelWrite => Sys2Proof.Machine.execDcntSelWrite s
  | .packetResolve => Sys2Proof.Machine.execPacketResolve s
  | .packetHop => Sys2Proof.Machine.execPacketHop s
  | .floodCopyArrival => Sys2Proof.Machine.execFloodCopyArrival s
  | .floodPacketSink => Sys2Proof.Machine.execFloodPacketSink s
  | .probeArrival => Sys2Proof.Machine.execProbeArrival s
  | .probeAnswer => Sys2Proof.Machine.execProbeAnswer s
  | .linkDown => Sys2Proof.Machine.execLinkDown s
  | .bridgeForward => Sys2Proof.Machine.execBridgeForward s
  | .bridgeReinject => Sys2Proof.Machine.execBridgeReinject s
  | .invokeArrival => Sys2Proof.Machine.execInvokeArrival s
  | .counterLaunch => Sys2Proof.Machine.execCounterLaunch s
  | .messageArrival => Sys2Proof.Machine.execMessageArrival s
  | .answerArrival => Sys2Proof.Machine.execAnswerArrival s
  | .packetLocalComplete => Sys2Proof.Machine.execPacketLocalComplete s
  | .hardwareRetry => Sys2Proof.Machine.execHardwareRetry s
  | .launchLineWrite => Sys2Proof.Machine.execLaunchLineWrite s
  | .ingressTimerExpiry => Sys2Proof.Machine.execIngressTimerExpiry s
  | .ingressAnswer => Sys2Proof.Machine.execIngressAnswer s
  | .ingressRetry => Sys2Proof.Machine.execIngressRetry s
  | .ingressReset => Sys2Proof.Machine.execIngressReset s
  | .remoteRequestArrival => Sys2Proof.Machine.execRemoteRequestArrival s
  | .remoteAnswer => Sys2Proof.Machine.execRemoteAnswer s
  | .portRequest => Sys2Proof.Machine.execPortRequest s
  | .portAccessComplete => Sys2Proof.Machine.execPortAccessComplete s
  | .portRootWrite => Sys2Proof.Machine.execPortRootWrite s
  | .portInval => Sys2Proof.Machine.execPortInval s
  | .copyEngineServe => Sys2Proof.Machine.execCopyEngineServe s
  | .copydataArrival => Sys2Proof.Machine.execCopydataArrival s
  | .copyCounterPacket => Sys2Proof.Machine.execCopyCounterPacket s
  | .copyAnswer => Sys2Proof.Machine.execCopyAnswer s
  | .copyackPlacement => Sys2Proof.Machine.execCopyackPlacement s
  | .multicastTileArrival => Sys2Proof.Machine.execMulticastTileArrival s
  | .multicastCredit => Sys2Proof.Machine.execMulticastCredit s
  | .haspRemoteRequest => Sys2Proof.Machine.execHaspRemoteRequest s
  | .redBlockArrival => Sys2Proof.Machine.execRedBlockArrival s
  | .renormArrival => Sys2Proof.Machine.execRenormArrival s
  | .bcastArrival => Sys2Proof.Machine.execBcastArrival s
  | .vectorCompletion => Sys2Proof.Machine.execVectorCompletion s
  | .tensorOpStart => Sys2Proof.Machine.execTensorOpStart s
  | .tensorSlotWrite => Sys2Proof.Machine.execTensorSlotWrite s
  | .drainRowWrite => Sys2Proof.Machine.execDrainRowWrite s
  | .steeredRowSend => Sys2Proof.Machine.execSteeredRowSend s
  | .trapPresentation => Sys2Proof.Machine.execTrapPresentation s
  | .fatalTrap => Sys2Proof.Machine.execFatalTrap s
  | .doubleTrap => Sys2Proof.Machine.execDoubleTrap s
  | .mgmtInterrupt => Sys2Proof.Machine.execMgmtInterrupt s
  | .remoteWindowAccess => Sys2Proof.Machine.execRemoteWindowAccess s
  | .remoteWindowAnswer => Sys2Proof.Machine.execRemoteWindowAnswer s
  | .siteLsaWrite => Sys2Proof.Machine.execSiteLsaWrite s
  | .siteLsdRead => Sys2Proof.Machine.execSiteLsdRead s
  | .siteLsdWrite => Sys2Proof.Machine.execSiteLsdWrite s
  | .trapVecWrite => Sys2Proof.Machine.execTrapVecWrite s
  | .guardReport => Sys2Proof.Machine.execGuardReport s
  | .evict => Sys2Proof.Machine.execEvict s
  | .restore => Sys2Proof.Machine.execRestore s
  | .release => Sys2Proof.Machine.execRelease s
  | .stopArrival => Sys2Proof.Machine.execStopArrival s
  | .quiescence => Sys2Proof.Machine.execQuiescence s
  | .stopEcho => Sys2Proof.Machine.execStopEcho s
  | .stoppedEnd => Sys2Proof.Machine.execStoppedEnd s
  | .saveComplete => Sys2Proof.Machine.execSaveComplete s
  | .restoreComplete => Sys2Proof.Machine.execRestoreComplete s
  | .stopCompletion => Sys2Proof.Machine.execStopCompletion s
  | .stepBoundary => Sys2Proof.Machine.execStepBoundary s
  | .currentSample => Sys2Proof.Machine.execCurrentSample s
  | .voltageSample => Sys2Proof.Machine.execVoltageSample s
  | .thermalSample => Sys2Proof.Machine.execThermalSample s
  | .regulatorFail => Sys2Proof.Machine.execRegulatorFail s
  | .pwrCtlWrite => Sys2Proof.Machine.execPwrCtlWrite s
  | .pwrGo => Sys2Proof.Machine.execPwrGo s
  | .thermSelWrite => Sys2Proof.Machine.execThermSelWrite s
  | .restoreArrival => Sys2Proof.Machine.execRestoreArrival s
  | .releaseArrival => Sys2Proof.Machine.execReleaseArrival s
  | .coreHaltArrival => Sys2Proof.Machine.execCoreHaltArrival s
  | .scalarResultWrite => Sys2Proof.Machine.execScalarResultWrite s
  | .localContributionBlock => Sys2Proof.Machine.execLocalContributionBlock s
  | .illegalInstruction => Sys2Proof.Machine.execIllegalInstruction s

end Sys2Proof.Machine
end

