-- ==== Sys2Proof/Machine/Collective.lean ====
section
/-! DEFINITION. The firmware collectives ALLREDUCE, REDUCESCATTER, ALLGATHER and BROADCAST as whole operations: their descriptor
checks, their results at every member, STATUS and the completion counter (R366, R367, R448). Their code is not given: a group that
their handler entries start does what these definitions say, in place of instructions. -/

namespace Sys2Proof.Machine

/-- A collective descriptor (R367). -/
structure CollDesc where
  src : Nat
  dst : Nat
  fmt : Nat
  op : Nat
  cnt : Nat
  tag : Nat
  count : Nat
  name0 : Nat
  n : Nat
  scratch : Nat
  deriving DecidableEq, Repr

/-- The descriptor at a local address. -/
-- DESIGN CHOICE: log 181.
def collDesc (c : Core) (a : Nat) : CollDesc :=
  let v := readRun c a 64
  { src := bitsN v 20 0, dst := bitsN v 41 21, fmt := bitsN v 46 42, op := bitsN v 48 47, cnt := bitsN v 54 49, tag := bitsN v 57 55
    count := bitsN v 95 64, name0 := bitsN v 147 128, n := bitsN v 165 148, scratch := bitsN v 212 192 }
/-- A descriptor that cannot be read. -/
def noDesc : CollDesc := { src := 0, dst := 0, fmt := 0, op := 0, cnt := 0, tag := 0, count := 0, name0 := 0, n := 0, scratch := 0 }
/-- Whether every page of a descriptor's bytes, in a reserved page or not, can be read, and whether its STATUS can be written (R163,
R367). -/
-- DESIGN CHOICE: log 184.
def descRead (x : Site) (a : Nat) : Bool :=
  decide (a + 64 ≤ 0x200000) && (pagesOf a 64).all fun v => let e := pmapAt x.core v; eValid e && eR e && !eS e
def descWrite (x : Site) (a : Nat) : Bool :=
  decide (a + 64 ≤ 0x200000) && !inFirmwareEntries x (a + 56) 8 &&
    (pagesOf (a + 56) 8).all fun v => let e := pmapAt x.core v; eValid e && eW e && !eS e
/-- Whether n bytes lie in reserved pages with R, W and E and without S (R367). -/
def inReserved (x : Site) (a n : Nat) : Bool :=
  n == 0 || (decide (a + n ≤ 0x200000) && (pagesOf a n).all fun v =>
    let e := pmapAt x.core v
    eValid e && decide (ePhys e < resvL x) && eR e && eW e && eE e && !eS e)
/-- The elements of a chunk, and the place and the number of those of chunk k. -/
def chunkLen (d : CollDesc) : Nat := ceilDiv d.count d.n
def chunkAt (d : CollDesc) (k : Nat) : Nat × Nat := (min (k * chunkLen d) d.count, min (chunkLen d) (d.count - k * chunkLen d))
/-- The elements of a collective's DST at a rank. -/
def dstCount (idx : Nat) (d : CollDesc) (rank : Nat) : Nat :=
  if idx = 1001 then (chunkAt d rank).2 else if idx = 1002 then d.n * d.count else d.count
def rankOf (x : Site) (d : CollDesc) : Nat := coreName x - d.name0
/-- Whether a member's descriptor meets R367's conditions on it alone. -/
-- DESIGN CHOICE: log 159.
-- DESIGN CHOICE: log 181.
def collValid (x : Site) (idx a : Nat) : Bool :=
  let d := collDesc x.core a
  inReserved x a 64 && decide (1 ≤ d.n) && decide (d.name0 ≤ coreName x) && decide (coreName x < d.name0 + d.n) &&
  (if idx ≤ 1001 then decide (d.fmt ≤ 2) && d.op != 3 else decide (d.fmt ≤ 12)) && ordNext x d.tag == 0 &&
  inReserved x d.src (runBytes d.fmt d.count) && inReserved x d.dst (runBytes d.fmt (dstCount idx d (rankOf x d))) &&
  inReserved x d.scratch (runBytes d.fmt (2 * chunkLen d))

/-! ### Results (R366) -/

/-- Element j of the reduction: a left fold from the rank of its chunk, each step rounded to nearest into the format. -/
def collElem (d : CollDesc) (srcs : List Nat) (j : Nat) : Nat :=
  let at' (r : Nat) : Nat := elemAt (srcs.getD r 0) (fmtBits d.fmt) j
  let c := j / chunkLen d
  ((upto (d.n - 1)).map fun k => (c + k + 1) % d.n).foldl (fun acc r =>
    (elemOp [] d.fmt d.op 0 acc (decodeKind [] (kindOfFmt d.fmt) (at' r)).1).1) (at' c)
/-- What a member's DST holds, packed, from every member's SRC in rank order. -/
def collResult (idx : Nat) (d : CollDesc) (srcs : List Nat) (rank : Nat) : Nat :=
  let w := fmtBits d.fmt
  let (lo, len) := chunkAt d rank
  if idx = 1000 then packElems w ((upto d.count).map fun j => collElem d srcs j)
  else if idx = 1001 then packElems w ((upto len).map fun j => collElem d srcs (lo + j))
  else if idx = 1002 then packElems w (srcs.flatMap fun v => (upto d.count).map fun j => elemAt v w j)
  else srcs.getD 0 0 % 2 ^ (w * d.count)

/-! ### Members -/

/-- The cores of a collective that its member at a site can reach, in rank order: those of its own park. -/
-- DESIGN CHOICE: log 159.
def collCores (s : State) (sid : Nat) (d : CollDesc) : List Site :=
  ((s.sites.map fun e => e.2).filter fun x =>
    x.life == .live && !x.dead && decide (d.name0 ≤ coreName x) && decide (coreName x < d.name0 + d.n) &&
      localPark x == localPark (getSite s sid)).mergeSort fun x y => decide (coreName x ≤ coreName y)
/-- The group at a member's core that takes part: of the same collective, with the same TAG where there is one, the oldest. -/
def collGroup (x : Site) (idx tag : Nat) : Option (Nat × Group) :=
  let same := x.core.groups.filter fun e => match e.2.coll with | some k => k.index == idx && k.result.isNone | none => false
  let tagged := same.filter fun e => match e.2.coll with | some k => (collDesc x.core k.desc).tag == tag | none => false
  (if tagged = [] then same else tagged).foldl (fun b e => match b with
    | some o => if e.2.uid < o.2.uid then some e else b
    | none => some e) none
/-- The descriptor of a group's collective. -/
def groupDesc (x : Site) (g : Group) : Option CollDesc := g.coll.map fun k => collDesc x.core k.desc
/-- Whether two members' descriptors agree (R367). -/
def sameColl (a b : CollDesc) : Bool :=
  a.fmt == b.fmt && a.op == b.op && a.count == b.count && a.name0 == b.name0 && a.n == b.n && a.tag == b.tag
def modColl (s : State) (sid g : Nat) (f : Coll → Coll) : State :=
  modSite s sid (onCore fun c => modGroup c g fun gr => { gr with coll := gr.coll.map f })
/-- The cycles after which a site can know at the earliest what another has done (R354): within a field, on a wafer, between
wafers. -/
def tellTime (a b : Nat) : Nat := if a = b then 0 else if siteW a ≠ siteW b then 200 else linkTime a b
/-- A group's collective has ended with a STATUS and, where that is 0, the contents of its DST, by what the members at some sites have
done now. -/
-- DESIGN CHOICE: log 172.
def collEnds (s : State) (sid g status data : Nat) (from' : List Nat) : State :=
  modColl s sid g fun k => { k with result := some (status, data), due := from'.foldl (fun t n => max t (s.time + tellTime n sid)) s.time }
/-- A member that finds code 1 or 2 sends it to the other members that have not ended (R367): to the group that takes part there, or
for the one that is to come. -/
-- DESIGN CHOICE: log 172.
def collTell (s : State) (sid idx code : Nat) (d : CollDesc) : State :=
  ((collCores s sid d).filter fun x => x.id != sid).foldl (fun s x =>
    match collGroup x idx d.tag with
    | some e => collEnds s x.id e.1 code 0 [sid]
    | none => modSite s x.id (onCore fun c => { c with collTold := c.collTold ++ [(8 * idx + d.tag, code, sid, s.time + tellTime sid x.id)] })) s
/-- What a member has been told of its collective: of its TAG, or of another TAG by a member that has no group of this one. -/
def toldOf (s : State) (x : Site) (idx tag : Nat) : Option (Nat × Nat × Nat × Nat) :=
  let here := x.core.collTold.filter fun t => t.1 / 8 == idx
  (here.find? fun t => t.1 == 8 * idx + tag).or (here.find? fun t =>
    !((getSite s t.2.2.1).core.groups.any fun e => match e.2.coll with
      | some k => k.index == idx && k.result.isNone && (collDesc (getSite s t.2.2.1).core k.desc).tag == tag
      | none => false))

/-! ### Steps -/

/-- The bytes of a member's SRC, and an uncorrectable word of them. -/
def collSource (m : Site × Nat × CollDesc) : Nat := readRun m.1.core m.2.2.src (runBytes m.2.2.fmt m.2.2.count)
def collBad (m : Site × Nat × CollDesc) : Option Nat := badRun m.1.core m.2.2.src (runBytes m.2.2.fmt m.2.2.count)
/-- Every member is ready, given in rank order with its group and descriptor: each gets its result. One whose SRC meets an
uncorrectable word ends with code 3 and the status of a copy that does (R269). -/
def collAll (s : State) (idx : Nat) (d : CollDesc) (ms : List (Site × Nat × CollDesc)) : State :=
  match ms.find? fun m => (collBad m).isSome with
  | some m => collEnds (modSite s m.1.id fun x => countUes x (runBads x.core m.2.2.src (runBytes m.2.2.fmt m.2.2.count)) 3) m.1.id m.2.1 (3 + 5 * 2 ^ 8) 0 []
  | none => ms.zipIdx.foldl (fun s m =>
      collEnds s m.1.1.id m.1.2.1 0 (collResult idx d (ms.map collSource) m.2) (ms.map fun e => e.1.id)) s
/-- A member that has been checked: it ends where another cannot be reached or does not agree, and all end with their results once
every one is there; until then it waits (R115). -/
def collMeet (s : State) (sid g idx : Nat) (d : CollDesc) : Option State :=
  let cores := collCores s sid d
  if cores.length ≠ d.n then some (collTell (collEnds s sid g 2 0 []) sid idx 2 d)
  else
    let ms := cores.filterMap fun x => if x.core.evict.st != .run then none else (collGroup x idx d.tag).map fun e => (x, e)
    if ms.any fun m => match groupDesc m.1 m.2.2 with | some e => !sameColl d e | none => false then
      some (collTell (collEnds s sid g 1 0 (ms.map fun m => m.1.id)) sid idx 1 d)
    else if ms.length < d.n ∨ ms.any fun m => match m.2.2.coll with | some k => !k.checked | none => true then none
    else some (collAll s idx d (ms.filterMap fun m => (groupDesc m.1 m.2.2).map fun e => (m.1, m.2.1, e)))
/-- A member whose collective has ended: DST where the code is 0, else what nothing is stated of; what its SCRATCH is left with is
open too; then STATUS, the counter and the exit (R367). -/
-- DESIGN CHOICE: log 182.
-- DESIGN CHOICE: log 184.
def collFinish (x : Site) (g idx a status data time : Nat) : Site :=
  let d := if descRead x a then collDesc x.core a else noDesc
  let n := runBytes d.fmt (dstCount idx d (rankOf x d))
  let k := runBytes d.fmt (2 * chunkLen d)
  let write (c : Core) (a n v : Nat) : Core :=
    (linePieces a n).foldl (fun c e => writeLocal c e.1 e.2 (v / 256 ^ (e.1 - a) % 256 ^ e.2)) c
  let mine (a n : Nat) : Bool := inReserved x a n && !inFirmwareEntries x a n
  let x := if mine d.scratch k then onCore (fun c => write c d.scratch k (Config.badData time d.scratch)) x else x
  let x := if mine d.dst n then
      onCore (fun c => write c d.dst n (if status = 0 then data else Config.badData time d.dst)) x
    else x
  let x := if descWrite x a then onCore (fun c => write c (a + 56) 8 status) x else x
  exitStrand (if d.cnt = 0 then x else (localDecrement x d.cnt).1) (16 * g)
/-- A step of a group's collective, none while it waits. -/
def collStep (s : State) (sid g : Nat) : Option State :=
  let x := getSite s sid
  match groupOf x.core g with
  | none => none
  | some gr => match gr.coll with
    | none => none
    | some k =>
      let on := (x.core.slots.any fun e => e.2.st == .ready && e.2.grp == g) && gr.st == .running && !gr.start && !gr.victim
      if !on || x.core.evict.st != .run || x.life != .live || x.dead || decide (s.time < k.due) then none
      else match k.result with
        | some (status, data) =>
          if (collDesc x.core k.desc).cnt ≠ 0 ∧ landsOnCounter x.core = true then none
          else some (modSite s sid fun x => collFinish x g k.index k.desc status data s.time)
        | none =>
          let d := collDesc x.core k.desc
          match toldOf s x k.index d.tag with
          | some t =>
            if s.time < t.2.2.2 then none
            else some (collEnds (modSite s sid (onCore fun c => { c with collTold := c.collTold.erase t })) sid g t.2.1 0 [])
          | none =>
            if k.checked then collMeet s sid g k.index d
            else if collValid x k.index k.desc then some (modColl s sid g fun k => { k with checked := true })
            else
              let s := collEnds s sid g 1 0 []
              some (if inReserved x k.desc 64 then collTell s sid k.index 1 d else s)
/-- The groups of a core whose collectives may take a step. -/
def collDue (s : State) (sid : Nat) (c : Core) : List Nat :=
  (c.groups.filter fun e => e.2.coll.isSome && (collStep s sid e.1).isSome).map fun e => e.1

end Sys2Proof.Machine
end

