-- ==== Sys2Proof/Machine/Events.lean ====
section
/-! DEFINITION. What may come next: the issue candidates of a cycle (R83, R100 to R104, R139, R167, R206, R207, R232, R318,
R420), the events that the state makes possible, the ends of waits, the events of a cycle's beginning, the clock, and what the
outside world does. -/

namespace Sys2Proof.Machine

/-! ### Hazards and units (R139, R167, R206, R207, R232, R318) -/

/-- Results in flight of the agent at hand: multiply and divide results, vector results, accesses. -/
def openScalars (s : State) : List Pending :=
  match s.cur with
  | .mgmt k => (getMgmt s k).scalars
  | _ => (curSite s).core.scalars.filter fun p => p.key == curKey s
def openVectors (s : State) : List VPending :=
  match s.cur with
  | .mgmt k => (getMgmt s k).vectors
  | _ => (curSite s).core.vectors.filter fun p => p.key == curKey s
def openAccesses (s : State) : List Access :=
  match s.cur with
  | .mgmt k => (getMgmt s k).accesses
  | _ => (curSite s).core.accesses.filter fun a => a.key == curKey s
/-- Whether a register that an instruction names awaits an earlier result, which g0 never does (R139). -/
def awaited (s : State) (u : Use) : Bool :=
  let g (n : Nat) : Bool :=
    n != 0 && ((openScalars s).any (fun p => p.d == some n) || (openVectors s).any (fun p => p.gd.any fun e => e.1 == n) ||
    (openAccesses s).any fun a => match a.fin with | .load _ _ d => d == some n | .atomic d => d == some n | _ => false)
  let v (n : Nat) : Bool :=
    (openVectors s).any (fun p => p.vd.any fun e => e.1 == n) ||
    (openAccesses s).any fun a => match a.fin with | .vec d => d == some n | _ => false
  let q (n : Nat) : Bool := (openVectors s).any fun p => p.qd.any fun e => e.1 == n
  match u with
  | .rg n => g n
  | .wg n => g n
  | .rv n => v n
  | .wv n => v n
  | .rq n => q n
  | .wq n => q n
  | .rm _ => false
/-- Whether an instruction divides, needs the transcendental unit, enters the tensor queue, or is a remote store. -/
def divides : Instr → Bool
  | .div _ _ _ => true
  | .divn _ _ _ => true
  | .rem _ _ _ => true
  | .remn _ _ _ => true
  | _ => false
def transcendental : Instr → Bool
  | .vrcp _ _ _ => true
  | .vrsq _ _ _ => true
  | .vexp2 _ _ _ => true
  | .vlog2 _ _ _ => true
  | .vtanh _ _ _ => true
  | _ => false
def entersTensor : Instr → Bool
  | .tcfg _ _ _ _ _ _ _ _ => true
  | .tcfgZ _ _ _ _ _ _ _ _ => true
  | .tmma _ _ _ _ => true
  | .tzero _ => true
  | .tdrain _ _ _ _ _ _ => true
  | .tldacc _ _ _ _ _ _ => true
  | .tdrainF _ _ _ _ _ _ => true
  | _ => false
def storesRemote : Instr → Bool
  | .rst _ _ _ _ _ _ => true
  | .nst _ _ _ _ _ _ => true
  | _ => false
/-- The units of the agent at hand: every divide, and every vector result, of its core. -/
def coreScalars (s : State) : List Pending :=
  match s.cur with
  | .mgmt k => (getMgmt s k).scalars
  | _ => (curSite s).core.scalars
def coreVectors (s : State) : List VPending :=
  match s.cur with
  | .mgmt k => (getMgmt s k).vectors
  | _ => (curSite s).core.vectors
/-- Whether a vector instruction of the agent at hand may still raise a flag that its FPCTL traps: nothing follows it until then
(R201, R207). -/
def trapOpen (s : State) : Bool := bits (curCtx s).fpctl 9 4 != 0 && (openVectors s).any fun p => p.canRaise
/-- Whether an instruction acts on the counter of a packet whose flits are still being deposited (R39, R40). -/
def countsLanding (i : Instr) (c : Core) : Bool :=
  landsOnCounter c && (match i with
    | .dset _ _ _ => true
    | .ddec _ _ _ => true
    | i => match sysNumber i with | some (n, w) => n == 0x065 && w | none => false)
/-- Whether the agent at hand has fewer than 8 accesses issued and not yet performed (R167). -/
def accessRoom (s : State) : Bool := decide (((openAccesses s).filter fun a => a.counts).length < 8)
/-- Whether the agent at hand may issue an instruction now: its registers are there, its unit accepts it, and none of the
limits on what is outstanding stands against it. -/
def accepts (i : Instr) (s : State) : Bool :=
  !(uses i).any (awaited s) &&
  accessRoom s &&
  !(divides i && (coreScalars s).any fun p => p.div) &&
  !(transcendental i && (coreVectors s).any fun p => p.trans && decide (s.time + 8 < p.ready)) &&
  !trapOpen s &&
  !((match sysNumber i with | some (n, _) => decide (1 ≤ n) && decide (n ≤ 3) | none => false) && vectorsOpen s) &&
  (match s.cur with
   | .mgmt _ => true
   | _ => haspInTurn (curSite s).core i && !countsLanding i (curSite s).core && !(entersTensor i && decide (4 ≤ (curSite s).core.tensor.queue.length)) &&
       !(storesRemote i && decide (16 ≤ (remoteWrites (curSite s).core (curKey s)).length)))
/-- Whether the core or management core of an agent has not issued in this cycle, and may issue in it (R420, R422). -/
-- DESIGN CHOICE: log 8.
def cycleFree (a : Agent) (s : State) : Bool :=
  let site (sid : Nat) : Bool :=
    decide ((getSite s sid).core.lastIssue < s.time) && !idleCycle (getRegion s (regionAt sid)) s.time
  match a with
  | .strand sid _ => site sid
  | .sup sid => site sid
  | .mgmt k => decide ((getMgmt s k).lastIssue < s.time) &&
      (upto 4).all fun j => decide (j ≤ k % 4) || decide ((getMgmt s (k / 4 * 4 + j)).lastIssue < s.time)
/-- The first cycle in which an agent may issue after YIELD. -/
def yieldOf (a : Agent) (s : State) : Nat :=
  match a with
  | .strand sid k => (slotOf (getSite s sid).core k).yieldTo
  | .sup sid => (getSite s sid).core.sup.yieldTo
  | .mgmt k => (getMgmt s k).yieldTo
/-- Whether an agent is a candidate for issue (R100); a management core that is to take an interrupt is not. -/
def candidate (a : Agent) (s : State) : Bool :=
  cycleFree a s && decide (yieldOf a s ≤ s.time) &&
  (match a with | .mgmt k => !irqDue (getMgmt s k) | _ => true) &&
  (match readyOf a s with
   | .idle => false
   | .trapped _ => !trapOpen { s with cur := a } && accessRoom { s with cur := a }
   | .words w0 w1 _ _ => match decodeWords w0 w1 with
     | .ok i => accepts i { s with cur := a }
     | .error _ => !trapOpen { s with cur := a } && accessRoom { s with cur := a })
/-- The strand that a core's pipeline takes: the first candidate after the pointer of the highest effective class. -/
-- DESIGN CHOICE: log 9.
def chosenSlot (s : State) (sid : Nat) : Option Nat :=
  let c := (getSite s sid).core
  let l := (c.slots.map fun e => e.1).filter fun k => candidate (.strand sid k) s
  let top := l.foldl (fun m k => max m (effClass c k)) 0
  let l := l.filter fun k => effClass c k == top
  let ptr := tget 15 c.rr top
  ((upto 16).map fun j => (ptr + 1 + j) % 16).find? fun k => l.contains k
/-- The agent that a core issues for, the supervisor context ahead of every strand (R380). -/
def coreIssue (s : State) (sid : Nat) : List Due :=
  if candidate (.sup sid) s then [.issue (.sup sid)]
  else match chosenSlot s sid with
    | some k => [.issue (.strand sid k)]
    | none => []
/-- The instruction that a core is still to issue in this cycle. -/
def nextInstr (s : State) (sid : Nat) : Option Instr :=
  match coreIssue s sid with
  | [.issue a] => match readyOf a s with
    | .words w0 w1 _ _ => (decodeWords w0 w1).toOption
    | _ => none
  | _ => none
/-- The strand arrivals that a core is to apply in this cycle: after a HINIT of that hasp that is still to issue in it, and before any
other instruction issues (R343). -/
def dueArrivals (s : State) (sid : Nat) (c : Core) : List Due :=
  let first (h : Nat) : Bool := (nextInstr s sid).bind haspStage == some (1, h)
  c.strands.filterMap fun e => match e.2.wait with
    | .arriving t _ h _ => if t ≤ s.time ∧ first h = false then some (.wake sid e.1) else none
    | _ => none
/-- Every issue and every strand arrival that this cycle still owes. -/
-- DESIGN CHOICE: log 8.
def issues (s : State) : List Due :=
  (s.sites.flatMap fun e => if e.2.life == .live then
      (match dueArrivals s e.1 e.2.core with | [] => coreIssue s e.1 | l => l)
    else []) ++
  s.mgmts.flatMap fun e => if candidate (.mgmt e.1) s then [.issue (.mgmt e.1)] else []

/-! ### Events that may happen now -/

/-- An event as one that may come next. -/
def ev (i : Instr) (l : List Nat) : Due := .op { instr := i, arg := l }
/-- The places of a list whose elements satisfy a condition. -/
def places {α : Type} (l : List α) (f : α → Bool) : List Nat := (l.zipIdx.filter fun e => f e.1).map fun e => e.2
/-- One event where a condition holds. -/
-- DESIGN CHOICE: log 7.
def whenD (b : Bool) (d : Due) : List Due := if b then [d] else []

/-- An event that may come next where it would change something: it waits while it would not. -/
def whenActs (i : Instr) (run : State → Res) (l : List Nat) (s : State) : List Due :=
  let t := { s with arg := l }
  match run t with
  | .next u => if u = t then [] else [ev i l]
  | _ => [ev i l]

/-- The event of the packet at a place of a router's input. -/
def inputEvent (s : State) (sid q : Nat) : List Due :=
  match inputAt s sid q with
  | none => []
  | some (port, p) =>
    if dropLate s sid port p then []
    else if p.kind = kRED then [ev .redBlockArrival [sid, q]]
    else if p.kind = kRENORM then [ev .renormArrival [sid, q]]
    else if p.kind = kBCAST then [ev .bcastArrival [sid, q]]
    else if p.kind = kCOPYDATA ∧ bits p.arg1 18 17 = 3 then [ev .multicastTileArrival [sid, q]]
    else if p.kind = kCOPYACK then [ev .multicastCredit [sid, q, 1]]
    else if p.prb ∧ p.kind = kREPLY ∧ p.tgt = some sid then [ev .probeAnswer [sid, q]]
    else if p.prb ∧ p.kind ≠ kREPLY ∧ (p.fld ∨ p.tgt = some sid) then [ev .probeArrival [sid, q]]
    else if p.fld ∧ !p.prb then [ev .floodCopyArrival [sid, q]]
    else if p.kind = kFLOOD ∧ p.tgt = some sid ∧ !p.prb then [ev .floodPacketSink [sid, q]]
    else [ev .packetHop [sid, q]]
/-- The events of a site's router. -/
-- DEDUCED: log 65.
def routerEvents (s : State) (sid : Nat) (x : Site) : List Due :=
  ((upto x.router.inq.length).flatMap (inputEvent s sid)) ++
  (x.router.tiles.zipIdx.flatMap fun t =>
    if x.core.evict.st == .run || x.core.evict.st == .stopping then
      ((upto t.1.lines.length).filter (tileTurn x t.2)).map fun j => ev .multicastTileArrival [sid, t.2, 1, j]
    else []) ++
  ((places x.router.tiles fun t => t.left == 0 && t.lines == [] && (t.counter == 0 || (decide (t.due ≤ s.time) && !evicted x))).flatMap fun i =>
    whenActs .multicastCredit execMulticastCredit [sid, i, 0] s) ++
  ((x.router.trees.filter fun t => (treeStep s sid t.1).isSome).map fun t => ev .localContributionBlock [sid, t.1, 1]) ++
  whenD (x.core.inj1 != []) (ev .packetResolve [sid, 1])

/-- The event of the packet that a core handles next. -/
def arrivalEvent (x : Site) (p : Packet) : Instr :=
  if isAnswer p.kind then
    if !takesAnswers x || malformed x p then .answerArrival
    else match findOut x.core p.seq with
      | none => .answerArrival
      | some o =>
        if o.kind.chan?.isSome then .copyAnswer
        else if o.dead || isInvocation o.kind then .answerArrival
        else if isRemote o.kind then .remoteAnswer else .answerArrival
  else if p.kind = kCOPYDATA then if p.len = 0 ∧ p.counter ≠ 0 then .copyCounterPacket else .copydataArrival
  else if p.kind = kRLOAD ∨ p.kind = kRSTORE ∨ p.kind = kRATOMIC then
    if isHaspReq p then .haspRemoteRequest else .remoteRequestArrival
  else if p.handler ≠ 0 ∨ (p.kind = kINVOKE ∧ p.counter = 0) then .invokeArrival
  else if p.counter ≠ 0 then .counterLaunch else .messageArrival
/-- Whether a packet may act in this cycle: neither a strand nor the supervisor has acted on its counter (R294, R306), and its
hasp's turn has come (R343). -/
def packetInTurn (s : State) (sid : Nat) (x : Site) (p : Packet) : Bool :=
  if isHaspReq p then haspReqInTurn x.core p (nextInstr s sid)
  else !(decide (p.kind = kDATA ∨ p.kind = kINVOKE ∨ p.kind = kCOPYDATA) && x.core.countedBy.contains p.counter)
/-- The events of packets that have reached a core. -/
def arrivalEvents (s : State) (sid : Nat) (x : Site) : List Due :=
  (match x.core.landing with
   | some l =>
     let i := if l.pkt.kind = kCOPYDATA then Instr.copydataArrival else arrivalEvent x l.pkt
     (upto l.left.length).map fun k => ev i [sid, k]
   | none =>
     if turnReady x.core then [ev .copydataArrival [sid]]
     else match nextArrival x with
       | some p => whenD (packetInTurn s sid x p) (ev (arrivalEvent x p) [sid])
       | none => []) ++
  (match nextVc2 x with
   | some q => whenD (q.mgmt == .window && x.core.landing.isNone) (ev .remoteWindowAccess [sid])
   | none => []) ++
  whenD (stopHead x 1).isSome (ev .stopArrival [sid]) ++ whenD (stopHead x 2).isSome (ev .restoreArrival [sid]) ++
  whenD (stopHead x 3).isSome (ev .releaseArrival [sid])

/-- The units of accesses that may perform, on a core (0) or a management core (1). -/
-- DESIGN CHOICE: log 9.
def accessEvents (k m : Nat) (l : List Access) (time : Nat) (started : Access → Bool) : List Due :=
  l.flatMap fun a => (upto a.units.length).filterMap fun u =>
    if (mayPerform l time a.id u started).isSome then some (ev .localAccessPerform [k, a.id, u, m]) else none
/-- Results in flight whose time has come. -/
def resultEvents (k m : Nat) (ps : List Pending) (vs : List VPending) (time : Nat) : List Due :=
  ((places ps fun p => decide (p.ready ≤ time)).map fun i => ev .scalarResultWrite [k, i, m]) ++
  (places vs fun p => decide (p.ready ≤ time)).map fun i => ev .vectorCompletion [k, i, m]

/-- The services of a copy channel (R266), and the placement of its COPYACK (R270). -/
def channelEvents (s : State) (sid : Nat) (x : Site) (ch : Nat) (h : Chan) : List Due :=
  if !h.busy then []
  else if h.ended then whenActs .copyackPlacement execCopyackPlacement [sid, ch] s
  else
    let on : Bool := x.core.evict.st == .run && h.status == 0
    let serve (b : Bool) (k : Nat) : List Due := if b then whenActs .copyEngineServe execCopyEngineServe [sid, ch, k] s else []
    serve (on && !h.started && writesDone x.core h.key h.stream h.startAcc) 0 ++
    serve (on && h.started && !pastEnd h h.rd) 1 ++
    serve (on && h.started && !pastEnd h h.wr) 2 ++
    serve (on && h.owed != []) 3 ++
    serve (copyOver x.core ch && !x.core.countedBy.contains h.shape.ackcnt) 4
/-- The events of the tensor engine; an idle cycle begins to drain no row and sends none (R420), and a core that stops only writes
what has been fired (R256). -/
-- DEDUCED: log 19.
def tensorEvents (s : State) (sid : Nat) (c : Core) (idle : Bool) : List Due :=
  whenD (c.evict.st == .run && mayStart c.tensor) (ev .tensorOpStart [sid]) ++
  whenD ((c.evict.st == .run || c.evict.st == .stopping) && (toWrite c.tensor).isSome) (ev .tensorSlotWrite [sid]) ++
  match c.tensor.cur with
  | none => []
  | some o =>
    if c.evict.st ≠ .run ∨ (idle = true ∧ (o.left.isNone || o.kind != .tdrain) = true) then []
    else match o.kind with
      | .tdrain => (upto (rowLeft o).length).map fun i => ev .drainRowWrite [sid, i]
      | .tdrainF => if o.data.isSome then whenActs .steeredRowSend execSteeredRowSend [sid] s else []
      | _ => []
/-- Whether an access of the engine may perform: a TMMA fires no pass in an idle cycle (R420). -/
def engineServes (c : Core) (idle : Bool) (a : Access) : Bool :=
  engineBegun c a && !(idle && a.fin == .engine && c.tensor.cur.any fun o => o.kind == .tmma)
/-- The events of a core's Tumbler and scheduler while it runs. -/
def schedulerEvents (sid : Nat) (x : Site) (time : Nat) : List Due :=
  let c := x.core
  whenD (testDue x time) (.test sid) ++
  ((places c.tum.tests fun t => decide (t.ready ≤ time)).map fun i => ev .safetyTestEnd [sid, i]) ++
  whenD (c.tum.reeval && !passing c.tum) (ev .tumblerReevaluation [sid]) ++
  whenD (evaluationDue c) (ev .admissionEvaluation [sid]) ++
  (c.tum.zeroing.zipIdx.flatMap fun z =>
    if 1 < z.1.lines.length ∨ z.1.ready ≤ time then (upto (max 1 z.1.lines.length)).map fun j => ev .pageZeroingDone [sid, z.2, j] else []) ++
  whenD (nextSave c).isSome (.save sid) ++
  whenD ((savingNow c).isSome && freeFrames x != []) (ev .frameSaveDone [sid]) ++
  whenD (c.restores != []) (ev .frameRestoreDone [sid]) ++
  ((places c.outs fun o => match o.due with
     | some t => decide (t ≤ time) && (!mustWait c (retryTurn o.seq) (1 + o.pkt.len) || !c.allowQ.contains (retryTurn o.seq))
     | none => false).map fun i => ev .hardwareRetry [sid, i]) ++
  ((upto 8).flatMap fun t => whenD (nextContribution x t).isSome (ev .localContributionBlock [sid, t])) ++
  (match c.inj0 with | j :: _ => whenD (j.done && c.evict.stopAt.isNone) (ev .packetResolve [sid, 0]) | [] => [])
/-- The events of a core and of its contexts' fetches. -/
def coreEvents (s : State) (sid : Nat) (x : Site) : List Due :=
  let c := x.core
  let st := c.evict.st
  let idle := idleCycle (getRegion s (regionAt sid)) s.time
  (if st = .run then
     schedulerEvents sid x s.time ++
     (if idle then [] else (collDue s sid c).map fun g => .collective sid g) ++
     (upto 17).filterMap fun k =>
       let t := { s with cur := agentOf sid k }
       if runs t.cur t && fetchWanted t && !trapOpen t then some (ev .fetchLineFill [sid, k]) else none
   else []) ++
  ((places c.inj0 fun j => !j.done && !j.reads && decide (j.ready ≤ s.time)).map fun i => ev .packetLocalComplete [sid, i]) ++
  accessEvents sid 0 c.accesses s.time (engineServes c idle) ++
  resultEvents sid 0 c.scalars c.vectors s.time ++
  (c.found.map fun w => ev .eccCorrectionWriteback [sid, w, 0]) ++
  (c.chans.flatMap fun e => channelEvents s sid x e.1 e.2) ++
  tensorEvents s sid c idle ++
  whenD (st == .stopping && quiescent x) (ev .quiescence [sid]) ++ whenD (stoppedOver c s.time) (ev .stoppedEnd [sid]) ++
  whenD (st == .saving) (ev .saveComplete [sid]) ++ whenD (st == .restoring) (ev .restoreComplete [sid])
/-- The events of a site: a dead core takes no packets but those of the remote window (R429). -/
def siteEvents (s : State) (e : Nat × Site) : List Due :=
  let (sid, x) := e
  routerEvents s sid x ++ arrivalEvents s sid x ++ (if x.life == .live && !x.dead then coreEvents s sid x else [])

/-- The events of a management core. -/
def mgmtEvents (s : State) (e : Nat × Mgmt) : List Due :=
  let (k, m) := e
  let t := { s with cur := .mgmt k }
  whenD (runs t.cur t && fetchWanted t && !trapOpen t) (ev .fetchLineFill [k, 17]) ++
  accessEvents k 1 m.accesses s.time (fun _ => true) ++ resultEvents k 1 m.scalars m.vectors s.time ++
  (m.found.map fun w => ev .eccCorrectionWriteback [k, w, 1]) ++
  whenD (irqDue m && cycleFree (.mgmt k) s && !trapOpen t) (ev .mgmtInterrupt [k]) ++ whenD (m.echoes != 0) (ev .stopEcho [k]) ++
  (match m.arrivals with
   | [] => []
   | p :: _ => match p.mgmt with
     | .windowAnswer => [ev .remoteWindowAnswer [k]]
     | .portOpAnswer => [ev .remoteWindowAnswer [k]]
     | .guardDrop => [ev .guardReport [k]]
     | .coreHalt => [ev .coreHaltArrival [k]]
     | _ => [ev .stopCompletion [k]])
/-- The events of a port: a request is translated by a fresh walk or by any translation held. -/
def portEvents (s : State) (e : Nat × Port) : List Due :=
  let (p, u) := e
  if edgeHeld s (portSite p) then [] else
  (match u.arrivals with
   | [] => []
   | q :: _ =>
     if writesRoot q then [ev .portRootWrite [p]]
     else if invalidates q then [ev .portInval [p, 0]]
     else ev .portRequest [p, 0] :: (places u.cache fun c => c.park == q.park).flatMap fun i =>
       whenActs .portRequest execPortRequest [p, i + 1] s) ++
  (u.reqs.zipIdx.flatMap fun r => (upto (max 1 r.1.left.length)).map fun j => ev .portAccessComplete [p, r.2, j]) ++
  (upto u.invals.length).map fun i => ev .portInval [p, i + 1]
/-- The events of an ingress queue, and of a bridge unit. -/
def ingressEvents (s : State) (time : Nat) (e : Nat × Ingress) : List Due :=
  if edgeHeld s (ingSite e.1) then [] else
  whenD (e.2.arrivals != []) (ev .ingressAnswer [e.1]) ++
  (places e.2.outs fun o => match o.due with | some t => decide (t ≤ time) | none => false).map fun i => ev .ingressRetry [e.1, i]
-- DESIGN CHOICE: log 64.
def firstOfVc (l : List Packet) (i : Nat) : Bool :=
  match l[i]? with
  | some p => !(l.take i).any fun e => e.vc == p.vc
  | none => false
-- DESIGN CHOICE: log 64.
def bridgeEvents (s : State) (time : Nat) (e : Nat × Bridge) : List Due :=
  (((upto e.2.out.length).filter (firstOfVc e.2.out)).map fun i => ev .bridgeForward [e.1, i]) ++
  (if edgeHeld s (bridgeSite e.1) then [] else ((places e.2.inn fun p => decide (p.1 ≤ time)).filter (firstOfVc (e.2.inn.map fun p => p.2))).map fun i => ev .bridgeReinject [e.1, i])
/-- Every event that may happen now. -/
-- DESIGN CHOICE: log 5.
-- DESIGN CHOICE: log 7.
def events (s : State) : List Due :=
  s.sites.flatMap (siteEvents s) ++ s.mgmts.flatMap (mgmtEvents s) ++ s.ports.flatMap (portEvents s) ++
  s.ingress.flatMap (ingressEvents s s.time) ++ s.bridges.flatMap (bridgeEvents s s.time)

/-! ### The ends of waits (R104) -/

/-- Whether the condition that a context waits for holds; waits that an event ends are not among these. -/
-- DEDUCED: log 43.
def waitOver (s : State) (sid key : Nat) : Bool :=
  let x := getSite s sid
  let c := x.core
  let st := strandOf c key
  match st.wait with
  | .allowance n => (askers c).head? == some key && allowance c n
  | .release cls => (releaseFault x key cls).isSome || !releaseOpen x key cls
  | .channel _ => match st.job with
    | some h => chanFree c h.grp || ((groupOf c h.grp).getD { uid := 0 }).chans == 0
    | none => false
  | .treeSlot t _ => treeFree c t
  | .arriving t _ _ _ => decide (t ≤ s.time)
  | .fence m k => (fenceFault c key m k).isSome || !fenceOpen c key m k
  | .list => match st.pend with | some (.mcst _ _ _ _ v) => v.isSome | _ => false
  | .waitmsg mask => (oldestFor c key mask).isSome
  | .reply 6 _ => (acquireFault c key).isSome
  | .feed vec k _ => feedOver c key k vec
  | .mcst _ rel => mcstActs x key rel
  | .wfi => recordWaits c
  | _ => false

/-- A deferred fault delivered at a wait (R320). -/
def deliverDeferred (x : Site) (key : Nat) (v : TrapVal) : Site :=
  recordTrap (onCore (fun c => seeFrame (dropDeferred c key) key 0 8) x) key { v with pc := pcOf x.core key }
/-- FENCE ends, or delivers a deferred fault that it covers. -/
def wakeFence (m k key : Nat) (x : Site) : Site :=
  match fenceFault x.core key m k with
  | some v => deliverDeferred x key v
  | none => onCore (fun c => endWait c key true) x
/-- A release half ends: it delivers a deferred fault, or what follows it is done (R316, R320). -/
def wakeRelease (cls key time : Nat) (x : Site) : Site :=
  let st := strandOf x.core key
  match releaseFault x key cls, st.pend with
  | some v, _ => deliverDeferred x key v
  | none, some (.send p) => onCore (fun c => sendOrWait c x.id key time st.wlen p) x
  | none, some (.arrive d h drop) =>
    onCore (fun c => modStrand c key fun st => { st with wait := .arriving time d h drop, pend := none }) x
  | none, _ => onCore (fun c => endWait c key false) x
/-- Places have come free for a request whose turn it is (R283). -/
def wakeSend (key time : Nat) (x : Site) : Site :=
  let st := strandOf x.core key
  match st.pend with
  | some (.send p) => onCore (fun c => sendOff c x.id key time st.wlen p) x
  | _ => onCore (fun c => endWait (noWait c key) key false) x
/-- MCST goes on as far as its next entry. -/
def wakeMcst (left : List Nat) (rel : Option Nat) (key time : Nat) (x : Site) : Site :=
  match (strandOf x.core key).pend with
  | some (.mcst p _ _ _ _) => mcstGo x key time p left rel
  | _ => x
/-- The end of a management core's FENCE (R392). -/
def mgmtKey : Nat := 257
def mgmtFenceOver (m : Mgmt) : Bool :=
  match m.wait with
  | .fence mask kinds => !m.accesses.any (joined mask kinds)
  | _ => false
/-- A management core whose wait ended in an earlier cycle goes on. -/
def settleMgmt (m : Mgmt) : Mgmt := if m.wait = .over then { m with wait := .none } else m
/-- What follows the end of a context's wait, its strand SAVED or not. -/
-- DEDUCED: log 43.
def afterWait (key time : Nat) (w : Wait) (x : Site) : Site :=
  match w with
  | .allowance _ => wakeSend key time x
  | .release cls => wakeRelease cls key time x
  | .arriving _ d h drop => arriveLate x key d h drop
  | .feed vec k d => wakeFeed (onCore (fun c => seeFrame c key (0xF0 + 8 * k) 8) x) key k vec d time
  | .channel _ => resumeCopy x key
  | .treeSlot _ _ => onCore (fun c => resumeRed c key) x
  | .fence m k => wakeFence m k key x
  | .reply _ _ => match acquireFault x.core key with
    | some v => acquireTrap (onCore (fun c => seeFrame c key 0 8) x) key (pcOf x.core key) v
    | none => x
  | .list => mcstListed x key time
  | .mcst left rel => wakeMcst left rel key time x
  | _ => onCore (fun c => endWait c key true) x
/-- The wait of a context ends where its condition has held, and its strand is READY; or a trap that it has kept is taken. -/
-- DEDUCED: log 145.
def wakeUp (s : State) (sid key : Nat) : State :=
  if key = mgmtKey then (if mgmtFenceOver (getMgmt s sid) then modMgmt s sid fun m => settleMgmt (endMgmtWait m) else s)
  else
    let isOver := waitOver s sid key
    modSite s sid fun x =>
      let y := if isOver then afterWait key s.time (strandOf x.core key).wait x else x
      takeKept (onCore (fun c => readyNow c key) y) key

/-! ### The beginning of a cycle -/

/-- Trap records of the cycle that ends join those before them, the lowest slot first (R382). -/
def settleTraps (c : Core) : Core :=
  let new := (c.traps.filter fun r => r.fresh).mergeSort fun a b => decide (a.slot ≤ b.slot)
  { c with traps := (c.traps.filter fun r => !r.fresh) ++ new.map fun r => { r with fresh := false } }
/-- The age counters of READY strands that did not issue in the cycle that ends (R101, R420). -/
def ageSlots (time : Nat) (idle : Bool) (c : Core) : Core :=
  if idle then c
  else { c with slots := c.slots.map fun e =>
    if e.2.st == .ready && !(c.lastIssue == time && c.issued == e.1) then (e.1, { e.2 with age := e.2.age + 1 }) else e }
/-- Waits that have ended in the cycle that ends: their strands are READY (R104). -/
def settleWaits (c : Core) : Core :=
  ((c.slots.filter fun e => e.2.st == .waiting).map fun e => slotKey e.2).foldl readyNow (readyNow c supKey)
/-- What a core keeps for one cycle only dropped: which lines of frames have been written (R111), which hasps and counters have been
acted on (R294, R343), and what is due from the next
cycle on (R105, R126). -/
def settleCore (c : Core) : Core :=
  { c with frameLines := [], stored := [], haspAt := [], routed := false, countedBy := [], tum := settleTumbler c.tum }
/-- A site at the end of a cycle. -/
-- DESIGN CHOICE: log 22.
def settleSite (s : State) (e : Nat × Site) : Nat × Site :=
  (e.1, onRouter (ntSettle (tickFalls e.2 (s.time + 1))) (onCore (fun c =>
    settleCore (settleWaits (settleTraps (ageSlots s.time (idleCycle (getRegion s (regionAt e.1)) s.time) c)))) (settleErrors e.2)))

/-- The periodic events of a started module at a wafer time (R423, R424, R426, R427, R443). -/
def moduleClock (w t : Nat) : List Due :=
  let regions := (upto 16).map fun r => 16 * w + r
  let every (n : Nat) (l : List Due) : List Due := if t % n = 0 then l else []
  every 320 (regions.map fun r => ev .stepBoundary [r]) ++
  every 32 (regions.map fun r => ev .currentSample [r, Config.amps r t]) ++
  every 8 (regions.map fun r => ev .voltageSample [r, Config.millivolts r t]) ++
  every 16000 [ev .thermalSample (w :: (upto 144).map fun f => Config.temperature w f t)] ++
  every 5760000000000 [ev .lifeCounterUpdate [w, 1]]
/-- What a core owes at the beginning of a cycle: the effects that its last cycle has made due, and the ends of waits. -/
def coreClock (s : State) (sid : Nat) (x : Site) : List Due :=
  let c := x.core
  (if c.evict.st = .run then
     ((c.slots.filter fun e => e.2.st == .ready && decide (e.2.boost < 3) && decide (1024 * (e.2.boost + 1) ≤ e.2.age)).map fun e =>
       ev .agePromotion [sid, e.1]) ++
     ((c.slots.filter fun e => e.2.yieldTo != 0 && decide (e.2.yieldTo ≤ s.time)).map fun e => ev .yieldWindowEnd [sid, e.1]) ++
     whenD (c.sup.yieldTo != 0 && decide (c.sup.yieldTo ≤ s.time)) (ev .yieldWindowEnd [sid, 16])
   else []) ++
  ((places c.tum.releases (canRelease c)).reverse.map fun i => ev .releaseApply [sid, i]) ++
  ((c.pmapNext.takeWhile (pmapReady c)).map fun _ => ev .pmapWriteEffect [sid]) ++
  whenD (c.tdecNext != [] && tablesQuiet c) (ev .tdecWriteEffect [sid]) ++
  ((c.groups.filter fun e => e.2.st == .draining && drained c e.1).map fun e => ev .groupLeavesDraining [sid, e.1]) ++
  ((c.traps.filter fun r => r.fatal && !r.fresh).map fun r => ev .fatalTrap [sid, r.slot]) ++
  whenD c.sup.double.isSome (ev .doubleTrap [sid]) ++ whenD (presentDue x) (ev .trapPresentation [sid]) ++
  (if c.evict.st = .run then (c.strands.filter fun e => (waitOver s sid e.1 && !e.2.wait.isArrival) || (trapKept c e.1).isSome).map fun e => .wake sid e.1 else []) ++
  (let n := regF x 0x054 15 0
   whenD (n != 0 && s.time % n == 0) (ev .scrubLineRead [sid]))
/-- What a site owes at the beginning of a cycle. -/
def siteClock (s : State) (e : Nat × Site) : List Due :=
  let (sid, x) := e
  (if x.life == .live && !x.dead then coreClock s sid x else []) ++
  whenD x.router.ticked (ev .nameTableTick [sid])
/-- Everything due at the beginning of a cycle. -/
-- DEDUCED: log 65.
def clockEvents (s : State) : List Due :=
  (s.modules.flatMap fun e => if e.2.started then moduleClock e.1 s.time else []) ++
  s.sites.flatMap (siteClock s) ++
  (s.mgmts.flatMap fun e => whenD (mgmtFenceOver e.2) (.wake e.1 mgmtKey) ++
    whenD (e.2.yieldTo != 0 && decide (e.2.yieldTo ≤ s.time)) (ev .yieldWindowEnd [e.1, 17])) ++
  s.ingress.flatMap fun e => whenD (e.2.timers.any fun t => decide (t.2 < s.time)) (ev .ingressTimerExpiry [e.1])
/-- The clock moves to the next cycle: ages and trap records are brought up to date, levels take effect at a frame boundary
(R421), and what is then due is put on the agenda. -/
-- DESIGN CHOICE: log 22.
def tick (s : State) : State :=
  let s : State := { s with sites := s.sites.map (settleSite s), mgmts := s.mgmts.map (fun e => (e.1, settleMgmt e.2)), time := s.time + 1 }
  let s := if s.time % 8 = 0 then { s with regions := s.regions.map fun e => (e.1, { e.2 with level := levelNow e.2 }) } else s
  { s with agenda := clockEvents s }

/-! ### The outside world -/

/-- The events that only the outside world causes. -/
def fromOutside : Instr → Bool
  | .moduleReset => true
  | .siteJoin => true
  | .spdmRequest => true
  | .launchLineWrite => true
  | .ingressReset => true
  | .linkDown => true
  | .regulatorFail => true
  | _ => false
/-- A register whose parity has gone bad: its value is lost (R388); g0 and q0 are no stored registers. -/
def loseReg (file n : Nat) (x : Ctx) : Ctx :=
  if n = 0 ∧ file % 2 = 0 then x else
  let x := match file with
    | 0 => { x with g := terase x.g n }
    | 1 => { x with v := terase x.v n }
    | 2 => { x with q := terase x.q n }
    | _ => { x with m := terase x.m n }
  { x with parity := (file, n) :: x.parity.filter fun e => e != (file, n) }
/-- The same for a register of a pooled bank. -/
def losePool (c : Core) (x : Ctx) (file n : Nat) : Core :=
  if file = 0 ∧ 16 ≤ n then match poolIdx x n with | some i => { c with pool := terase c.pool i } | none => c else c
/-- An uncorrectable or correctable error of a word. -/
-- DEDUCED: log 16.
def upsetCore (p : Nat) (correctable : Bool) (c : Core) : Core :=
  let w := wordBase p
  if correctable then if c.bad.contains w || c.correctable.contains w then c else { c with correctable := w :: c.correctable }
  else { c with bad := w :: c.bad.filter (fun b => b != w), correctable := c.correctable.filter (fun b => b != w)
                found := c.found.filter fun b => b != w }
def upsetStore (a : Nat) (correctable : Bool) (m : Mgmt) : Mgmt :=
  let w := wordBase a
  if correctable then if m.bad.contains w || m.correctable.contains w then m else { m with correctable := w :: m.correctable }
  else { m with bad := w :: m.bad.filter (fun b => b != w), correctable := m.correctable.filter (fun b => b != w)
                found := m.found.filter fun b => b != w }
/-- What an input other than an event does; an event is left to the step. -/
-- DESIGN CHOICE: log 6.
def takeInputOf (i : Input) (s : State) : State :=
  match i with
  | .op o => if fromOutside o.instr then { s with agenda := [.op o] } else s
  | .upset sid phys correctable => modSite s sid (onCore (upsetCore phys correctable))
  | .upsetMgmt k a correctable => modMgmt s k (upsetStore a correctable)
  | .upsetPort p a => modPort s p fun u => { u with bad := wordBase a :: u.bad.filter fun b => b != wordBase a }
  | .parity sid ctx file n =>
    match agentOf sid ctx with
    | .strand sid k => modSite s sid (onCore fun c =>
        let x := (slotOf c k).ctx
        modSlot (losePool c x file n) k fun sl => { sl with ctx := loseReg file n sl.ctx })
    | .sup sid => modSite s sid (onCore fun c => { c with sup := { c.sup with ctx := loseReg file n c.sup.ctx } })
    | .mgmt k => modMgmt s k fun m => { m with ctx := loseReg file n m.ctx }
  | .hostWrite p a v => modPort s p fun u => { u with mem := mset u.mem a (BitVec.ofNat 8 v) }
  | .bindQueue q v => bindQueue q v s

/-! ### The choice -/

/-- What a step may do where nothing is due: something that may come next, the next input, or the clock. -/
inductive Move where
  | due (d : Due) | input | clock
  deriving DecidableEq, Repr

/-- The STOP packets that have reached running cores: they act in the cycle in which they come (R405, R407). -/
def stopsDue (s : State) : List Due :=
  s.sites.flatMap fun e =>
    if e.2.life == .live && !e.2.dead && e.2.core.evict.stopAt.isSome && e.2.core.evict.st == .run then
      whenD (stopHead e.2 1).isSome (ev .stopArrival [e.1]) ++ whenD (stopHead e.2 2).isSome (ev .restoreArrival [e.1]) ++
      whenD (stopHead e.2 3).isSome (ev .releaseArrival [e.1])
    else []
/-- The moves open at a state. An issue that a cycle owes, and a STOP, come before the clock moves on (R100, R407). -/
-- DESIGN CHOICE: log 4.
def moves (s : State) : List Move :=
  let owed := issues s
  (owed ++ events s).map Move.due ++ (if s.inputs = [] then [] else [.input]) ++ (if owed = [] ∧ stopsDue s = [] then [.clock] else [])
/-- The move made: the manual fixes no order among them (R165, R261). -/
-- DESIGN CHOICE: log 4.
def chosen (s : State) : Move :=
  let l := moves s
  l.getD (Config.pick s.picks % l.length) .clock
/-- A move other than an event or an issue. -/
def otherMove (m : Move) (s : State) : State :=
  match m with
  | .clock => tick s
  | .input => match s.inputs with
    | i :: rest => takeInputOf i { s with inputs := rest }
    | [] => s
  | .due _ => s
/-- The start of a safety test or of a frame save, or a step of a firmware collective. -/
def beginDue (d : Due) (s : State) : State :=
  match d with
  | .test sid => modSite s sid fun x => startTest x s.time
  | .save sid => modSite s sid (onCore startSave)
  | .collective sid g => (collStep s sid g).getD s
  | _ => s

end Sys2Proof.Machine
end

