-- ==== Sys2Proof/Machine/Step.lean ====
section
/-! DEFINITION. One step of the machine: what is due in this cycle, or one of the moves that may come next. -/

namespace Sys2Proof.Machine

/-- Instruction words executed by the agent at hand: they decode to an instruction, or are none (R82). -/
def runWords (w0 w1 len : Nat) (s : State) : Host.Outcome State Fault Refusal :=
  match decodeWords w0 w1 with
  | .ok i => exec i s
  | .error _ => exec .illegalInstruction { s with arg := [w0, w1, len] }

/-- The next instruction of an agent. -/
def stepIssue (a : Agent) (s : State) : Host.Outcome State Fault Refusal :=
  match readyOf a s with
  | .idle => .next s
  | .trapped t => .next t
  | .words w0 w1 len t => runWords w0 w1 len t

/-- An event with its operands, the issue of an agent, the end of a wait, or a start. -/
def stepDue (d : Due) (s : State) : Host.Outcome State Fault Refusal :=
  match d with
  | .op o => exec o.instr { s with arg := o.arg }
  | .issue a => stepIssue a s
  | .wake sid key => .next (wakeUp s sid key)
  | d => .next (beginDue d s)

/-- One step. -/
def step (s : State) : Host.Outcome State Fault Refusal :=
  match s.agenda with
  | d :: rest => stepDue d { s with agenda := rest }
  | [] => match chosen s with
    | .due d => stepDue d { s with picks := s.picks + 1 }
    | m => .next (otherMove m { s with picks := s.picks + 1 })

/-- The machine with an instruction placed where its next step fetches: site 0 live, one strand at the
instruction, and the pipeline's choice fallen on it. -/
-- DESIGN CHOICE: log 3.
def State.withFetchWord (s : State) (nbits w : Nat) : State :=
  { modSite s 0 (fun x => placeWord x (w % 2 ^ nbits)) with agenda := [.issue (.strand 0 0)] }

end Sys2Proof.Machine
end

