-- ==== Sys2Proof/Safety.lean ====
section
/-! DEFINITION. What counts as a safe run, and the words in which claims are stated: what an operation leaves
unchanged, and the bytes of every memory. -/

namespace Sys2Proof

open Sys2Proof.Machine

/-- Whether an outcome is a next state. -/
def goesOn (r : Res) : Bool :=
  match r with
  | .next _ => true
  | .fault _ => false
  | .refused _ => false

/-- A state from which n steps neither fault nor are refused. -/
def SafeFor (n : Nat) (s : State) : Prop := goesOn (core.run n s) = true

/-- A state from which no number of steps faults or is refused. -/
def Safe (s : State) : Prop := ∀ n, SafeFor n s

/-! ### Memories -/

/-- The byte of a core's local store at a physical offset, of a management core's store, of the memory behind a
port, and of a firmware image of a module. -/
def storeByte (s : State) (sid p : Nat) : Byte := mget (getSite s sid).core.mem p
def mgmtByte (s : State) (k a : Nat) : Byte := mget (getMgmt s k).store a
def portByte (s : State) (p a : Nat) : Byte := mget (getPort s p).mem a
def imageByte (s : State) (w n a : Nat) : Byte := mget (tget [] (getModule s w).images n) a

/-- Every byte of every memory reads alike in two states. -/
def sameMemory (s t : State) : Prop :=
  (∀ sid p, storeByte t sid p = storeByte s sid p) ∧ (∀ k a, mgmtByte t k a = mgmtByte s k a) ∧
  (∀ p a, portByte t p a = portByte s p a) ∧ ∀ w n a, imageByte t w n a = imageByte s w n a

/-! ### What an instruction of the agent at hand leaves unchanged -/

/-- The registers of the agent's own context but for one: every other resident general register, every other
vector and mask register, and all build, feed and floating-point registers and the bank map. -/
def ctxSame (d : Option RegRef) (x y : Ctx) : Prop :=
  (∀ r, r < 16 → d ≠ some (.g r) → tget 0 y.g r = tget 0 x.g r) ∧
  (∀ n, d ≠ some (.v n) → tget 0 y.v n = tget 0 x.v n) ∧ (∀ n, d ≠ some (.q n) → tget 0 y.q n = tget 0 x.q n) ∧
  y.m = x.m ∧ y.f = x.f ∧ y.fpflags = x.fpflags ∧ y.fpctl = x.fpctl ∧ y.lfsr = x.lfsr ∧ y.banks = x.banks

/-- Every pooled general register of a core but the one that gd stands in. -/
def poolSame (d : Option RegRef) (x : Ctx) (c c' : Core) : Prop :=
  ∀ i, (∀ r, d = some (.g r) → 16 ≤ r → poolIdx x r ≠ some i) → tget 0 c'.pool i = tget 0 c.pool i

/-- A site with parts of its core out of sight. -/
def blankSite (hide : Core → Core) (x : Site) : Site := { x with core := hide x.core }

/-- What a frame takes out of sight of the agent's core, of its management core and of its strand slot. -/
structure Hide where
  core : Core → Core := id
  mgmt : Mgmt → Mgmt := id
  slot : Slot → Slot := id

/-- From s to t an instruction of the agent at hand changes nothing but the register d, the agent's program
counter, its held fetch lines and its marks of bad parity, and what h takes out of sight. -/
def changesOnly (d : Option RegRef) (h : Hide) (s t : State) : Prop :=
  { t with sites := [], mgmts := [] } = { s with sites := [], mgmts := [] } ∧
  ctxSame d (curCtx s) (curCtx t) ∧
  match s.cur with
  | .strand sid k =>
    let c := (getSite s sid).core
    let c' := (getSite t sid).core
    t.mgmts = s.mgmts ∧ (∀ n, n ≠ sid → getSite t n = getSite s n) ∧
    blankSite (fun c => h.core { c with slots := [], pool := [] }) (getSite t sid)
      = blankSite (fun c => h.core { c with slots := [], pool := [] }) (getSite s sid) ∧
    (∀ j, j ≠ k → slotOf c' j = slotOf c j) ∧
    h.slot { slotOf c' k with ctx := {} } = h.slot { slotOf c k with ctx := {} } ∧
    poolSame d (slotOf c k).ctx c c'
  | .sup sid =>
    t.mgmts = s.mgmts ∧ (∀ n, n ≠ sid → getSite t n = getSite s n) ∧
    blankSite (fun c => h.core { c with sup := { c.sup with ctx := {} } }) (getSite t sid)
      = blankSite (fun c => h.core { c with sup := { c.sup with ctx := {} } }) (getSite s sid)
  | .mgmt k =>
    t.sites = s.sites ∧ (∀ n, n ≠ k → getMgmt t n = getMgmt s n) ∧
    h.mgmt { getMgmt t k with ctx := {} } = h.mgmt { getMgmt s k with ctx := {} }

/-- The frame of an instruction that writes at most the register d: nothing else, and no byte of memory. -/
def writesOnly (d : Option RegRef) (s t : State) : Prop := changesOnly d {} s t ∧ sameMemory s t

/-- The general registers an agent can name: all 64 for a strand, g0 to g15 in S and M (R81). -/
def nameable (s : State) (r : Nat) : Prop := curLevel s = .u ∨ r < 16

end Sys2Proof
end

