-- ==== Sys2Proof/Certificates/Slice0/Obligations.lean ====
section
/-! DEFINITION. The statements about the model, with the words in which they are said. A statement in several parts is the conjunction of them. -/

namespace Sys2Proof.Claims

end Sys2Proof.Claims

open Sys2Proof Sys2Proof.Machine Sys2Proof.Claims

/-! ### Words that the statements share -/

namespace Sys2Proof.Claims

/-- A signed 14-bit and a signed 20-bit field as a 64-bit word (R80). -/
def imm14 (i : Nat) : Word := (BitVec.ofNat 14 i).signExtend 64
def imm20 (i : Nat) : Word := (BitVec.ofNat 20 i).signExtend 64

/-- What an instruction that completes leaves: gd holds v (g0 still reads zero), the program counter has moved by n
bytes, nothing else has changed and no byte of any memory. -/
def wrote (s t : State) (d : Nat) (v : Word) (n : Nat) : Prop :=
  readG t d = (if d = 0 then 0 else v) ∧ curPc t = curPc s + BitVec.ofNat 64 n ∧ writesOnly (some (.g d)) s t

/-! ### Scalar results (R141 to R149) -/

/-- The register that a one-cycle scalar instruction writes. -/
def aluDest : Instr → Option Nat
  | .add d _ _ | .sub d _ _ | .and d _ _ | .or d _ _ | .xor d _ _ | .andn d _ _ | .shl d _ _ | .shr d _ _ | .sar d _ _
  | .rol d _ _ | .min d _ _ | .max d _ _ | .minn d _ _ | .maxn d _ _ | .slt d _ _ | .sltn d _ _ | .seq d _ _
  | .sel d _ _ | .clz d _ | .ctz d _ | .popc d _ | .bfx d _ _ | .bfi d _ _ | .addi d _ _ | .andi d _ _ | .ori d _ _
  | .xori d _ _ | .shli d _ _ | .shri d _ _ | .sari d _ _ | .slti d _ _ | .sltin d _ _ | .lui d _ | .adrp d _ => some d
  | _ => none

/-- Position and width of the field that BFX and BFI name by B (R145). -/
def fieldPos (b : Word) : Nat := b.toNat % 64
def fieldWid (b : Word) : Nat := Nat.min (b.toNat / 256 % 128) (64 - fieldPos b)

/-- What the value v that a one-cycle scalar instruction writes must be, by its row in the tables of R141 and R146
and the rules they name. -/
def aluRule (s : State) (v : Word) : Instr → Prop
  | .add _ a b => v.toNat = ((readG s a).toNat + (readG s b).toNat) % 2 ^ 64
  | .sub _ a b => (v.toNat : Int) = ((readG s a).toNat - (readG s b).toNat : Int) % 2 ^ 64
  | .and _ a b => ∀ k, v.getLsbD k = ((readG s a).getLsbD k && (readG s b).getLsbD k)
  | .or _ a b => ∀ k, v.getLsbD k = ((readG s a).getLsbD k || (readG s b).getLsbD k)
  | .xor _ a b => ∀ k, v.getLsbD k = ((readG s a).getLsbD k != (readG s b).getLsbD k)
  | .andn _ a b => ∀ k, v.getLsbD k = ((readG s a).getLsbD k && !(readG s b).getLsbD k)
  | .shl _ a b => v.toNat = (readG s a).toNat * 2 ^ (readG s b).toNat % 2 ^ 64
  | .shr _ a b => v.toNat = (readG s a).toNat / 2 ^ (readG s b).toNat
  | .sar _ a b => v.toInt = (readG s a).toInt / 2 ^ Nat.min (readG s b).toNat 63
  | .rol _ a b => ∀ k, k < 64 → v.getLsbD ((k + (readG s b).toNat) % 64) = (readG s a).getLsbD k
  | .min _ a b => v.toInt = min (readG s a).toInt (readG s b).toInt
  | .max _ a b => v.toInt = max (readG s a).toInt (readG s b).toInt
  | .minn _ a b => v.toNat = min (readG s a).toNat (readG s b).toNat
  | .maxn _ a b => v.toNat = max (readG s a).toNat (readG s b).toNat
  | .slt _ a b => v = if (readG s a).toInt < (readG s b).toInt then 1 else 0
  | .sltn _ a b => v = if (readG s a).toNat < (readG s b).toNat then 1 else 0
  | .seq _ a b => v = if readG s a = readG s b then 1 else 0
  | .sel d a b => v = if readG s d = 0 then readG s b else readG s a
  | .clz _ a => v.toNat ≤ 64 ∧ (∀ k, k < v.toNat → (readG s a).getLsbD (63 - k) = false) ∧
      (v.toNat < 64 → (readG s a).getLsbD (63 - v.toNat) = true)
  | .ctz _ a => v.toNat ≤ 64 ∧ (∀ k, k < v.toNat → (readG s a).getLsbD k = false) ∧
      (v.toNat < 64 → (readG s a).getLsbD v.toNat = true)
  | .popc _ a => v.toNat = ((List.range 64).filter fun k => (readG s a).getLsbD k).length
  | .bfx _ a b => ∀ k, v.getLsbD k =
      (decide (k < fieldWid (readG s b)) && (readG s a).getLsbD (fieldPos (readG s b) + k))
  | .bfi d a b => ∀ k, v.getLsbD k =
      if fieldPos (readG s b) ≤ k ∧ k < fieldPos (readG s b) + fieldWid (readG s b)
      then (readG s a).getLsbD (k - fieldPos (readG s b)) else (readG s d).getLsbD k
  | .addi _ a i => v = readG s a + imm14 i
  | .andi _ a i => v = readG s a &&& imm14 i
  | .ori _ a i => v = readG s a ||| imm14 i
  | .xori _ a i => v = readG s a ^^^ imm14 i
  | .shli _ a n => v.toNat = (readG s a).toNat * 2 ^ n % 2 ^ 64
  | .shri _ a n => v.toNat = (readG s a).toNat / 2 ^ n
  | .sari _ a n => v.toInt = (readG s a).toInt / 2 ^ Nat.min n 63
  | .slti _ a i => v = if (readG s a).toInt < (imm14 i).toInt then 1 else 0
  | .sltin _ a i => v = if (readG s a).toNat < (imm14 i).toNat then 1 else 0
  | .lui _ i => v = imm20 i <<< 14
  | .adrp _ i => v = curPc s + imm20 i * 4
  | _ => True

end Sys2Proof.Claims

/-- R137, R141, R142, R144 to R149: ADD, SUB, AND, OR, XOR, ANDN, SHL, SHR, SAR, ROL, MIN, MAX, MINN, MAXN, SLT, SLTN,
SEQ, SEL, CLZ, CTZ, POPC, BFX, BFI, ADDI, ANDI, ORI, XORI, SHLI, SHRI, SARI, SLTI, SLTIN, LUI and ADRP complete whenever
the checks of issue pass: gd holds the result of the instruction's row, the program counter moves past the
instruction, and nothing else changes. -/
def Obligations.ScalarResults : Prop :=
  ∀ (i : Instr) (s : State) (d : Nat), aluDest i = some d → guardTrap i s = none → nameable s d →
    ∃ t v, exec i s = .next t ∧ aluRule s v i ∧ wrote s t d v 4

/-! ### Products and quotients (R139, R141, R143) -/

namespace Sys2Proof.Claims

/-- The results in flight of the agent at hand. -/
def inFlight (s : State) : List Pending :=
  match s.cur with
  | .mgmt k => (getMgmt s k).scalars
  | _ => (curSite s).core.scalars

/-- The destination of a multiplication or division, and whether it is a division. -/
def slowDest : Instr → Option (Nat × Bool)
  | .mul d _ _ | .mulh d _ _ | .mulhn d _ _ => some (d, false)
  | .div d _ _ | .divn d _ _ | .rem d _ _ | .remn d _ _ => some (d, true)
  | _ => none

/-- The quotient and the remainder of the signed and of the unsigned division (R143). -/
def sQuot (a b : Word) : Word := if b = 0 then BitVec.allOnes 64 else BitVec.ofInt 64 (a.toInt.tdiv b.toInt)
def sRem (a b : Word) : Word := if b = 0 then a else BitVec.ofInt 64 (a.toInt.tmod b.toInt)

/-- The result of a multiplication or division. -/
def slowRule (s : State) (v : Word) : Instr → Prop
  | .mul _ a b => v.toNat = (readG s a).toNat * (readG s b).toNat % 2 ^ 64
  | .mulh _ a b => v.toInt = (readG s a).toInt * (readG s b).toInt / 2 ^ 64
  | .mulhn _ a b => v.toNat = (readG s a).toNat * (readG s b).toNat / 2 ^ 64
  | .div _ a b => v = sQuot (readG s a) (readG s b)
  | .rem _ a b => v = sRem (readG s a) (readG s b)
  | .divn _ a b => v = if readG s b = 0 then BitVec.allOnes 64 else readG s a / readG s b
  | .remn _ a b => v = if readG s b = 0 then readG s a else readG s a % readG s b
  | _ => True

/-- R139, R141, R143: MUL, MULH, MULHN, DIV, DIVN, REM and REMN complete whenever the checks of issue pass: the program
counter moves on, no register or byte of memory changes yet, and the result stands in flight for gd (for none where d
is 0), to be readable 3 cycles later, or 18 for a division. -/
def MultiplyAndDivide : Prop :=
  ∀ (i : Instr) (s : State) (d : Nat) (slow : Bool), slowDest i = some (d, slow) → guardTrap i s = none →
    ∃ t p, exec i s = .next t ∧ slowRule s p.val i ∧ inFlight t = inFlight s ++ [p] ∧
      p.key = curKey s ∧ p.d = (if d = 0 then none else some d) ∧ p.ready = s.time + (if slow then 18 else 3) ∧
      curPc t = curPc s + 4 ∧ sameMemory s t ∧
      changesOnly none { core := fun c => { c with scalars := [] }, mgmt := fun m => { m with scalars := [] } } s t

/-- R139: SCALAR_RESULT_WRITE, for a result of a strand that stands in a slot, once its latency has passed: the result
leaves those in flight and the strand's gd holds it (g0 still reads zero); every other register of the strand, every
other slot, every other site and every byte of memory stays. -/
def SlowResultWritten : Prop :=
  ∀ (s : State) (sid n k d : Nat) (p : Pending), s.arg = [sid, n, 0] →
    (getSite s sid).core.scalars[n]? = some p → p.ready ≤ s.time → p.d = some d →
    p.key < 256 → (strandOf (getSite s sid).core p.key).saved = none → findSlot (getSite s sid).core p.key = some k →
    gMapped (slotOf (getSite s sid).core k).ctx d = true →
    ∃ t, exec .scalarResultWrite s = .next t ∧
      (getSite t sid).core.scalars = (getSite s sid).core.scalars.eraseIdx n ∧
      readG { t with cur := .strand sid k } d = (if d = 0 then 0 else p.val) ∧
      changesOnly (some (.g d)) { core := fun c => { c with scalars := [] } } { s with cur := .strand sid k } { t with cur := .strand sid k } ∧
      sameMemory s t

end Sys2Proof.Claims

/-- Multiplications and divisions: what they compute, and when and how the result is written: `MultiplyAndDivide`, `SlowResultWritten`, together. -/
def Obligations.ProductsAndQuotients : Prop :=
  Sys2Proof.Claims.MultiplyAndDivide ∧ Sys2Proof.Claims.SlowResultWritten

/-! ### Branches and jumps (R150 to R152) -/

namespace Sys2Proof.Claims

/-- The offset of a conditional branch and whether it is taken. -/
def branchTaken (s : State) : Instr → Option (Nat × Prop)
  | .beq a b o => some (o, readG s a = readG s b)
  | .bne a b o => some (o, readG s a ≠ readG s b)
  | .blt a b o => some (o, (readG s a).toInt < (readG s b).toInt)
  | .bge a b o => some (o, (readG s b).toInt ≤ (readG s a).toInt)
  | .bltn a b o => some (o, (readG s a).toNat < (readG s b).toNat)
  | .bgen a b o => some (o, (readG s b).toNat ≤ (readG s a).toNat)
  | _ => none

/-- R150: BEQ, BNE, BLT, BGE, BLTN and BGEN go to their own address plus four times the signed offset where the
condition holds, and past themselves where it does not; they write no register and no memory. -/
def BranchTargets : Prop :=
  ∀ (i : Instr) (s : State) (o : Nat) (c : Prop), branchTaken s i = some (o, c) → guardTrap i s = none →
    ∃ t, exec i s = .next t ∧ (c → curPc t = curPc s + imm14 o * 4) ∧ (¬c → curPc t = curPc s + 4) ∧ writesOnly none s t

/-- R151, R152: JAL and JALR write their own address plus 4 to gd (nothing to g0) and go to their target, which JALR
forms from the value that ga held before. -/
def JumpAndLink : Prop :=
  ∀ (s : State) (d : Nat), nameable s d →
    (∀ o, guardTrap (.jal d o) s = none → ∃ t, exec (.jal d o) s = .next t ∧
      readG t d = (if d = 0 then 0 else curPc s + 4) ∧ curPc t = curPc s + imm20 o * 4 ∧ writesOnly (some (.g d)) s t) ∧
    ∀ a i, guardTrap (.jalr d a i) s = none → ∃ t, exec (.jalr d a i) s = .next t ∧
      readG t d = (if d = 0 then 0 else curPc s + 4) ∧ curPc t = readG s a + imm14 i ∧ writesOnly (some (.g d)) s t

end Sys2Proof.Claims

/-- Branches and jumps: where they go and what they write: `BranchTargets`, `JumpAndLink`, together. -/
def Obligations.BranchesAndJumps : Prop :=
  Sys2Proof.Claims.BranchTargets ∧ Sys2Proof.Claims.JumpAndLink

/-! ### NOP, YIELD, WID and TIME (R155 to R159) -/

namespace Sys2Proof.Claims

/-- The first cycle in which the context at hand may issue again after YIELD. -/
def yieldEnd (s : State) : Nat :=
  match s.cur with
  | .strand sid k => (slotOf (getSite s sid).core k).yieldTo
  | .sup sid => (getSite s sid).core.sup.yieldTo
  | .mgmt k => (getMgmt s k).yieldTo

/-- What YIELD changes beside the program counter, out of sight. -/
def yieldHide (s : State) : Hide where
  core c := match s.cur with | .sup _ => { c with sup := { c.sup with yieldTo := 0 } } | _ => c
  mgmt m := { m with yieldTo := 0 }
  slot sl := { sl with yieldTo := 0 }

/-- R155, R156 and R103: NOP only moves the program counter; YIELD also keeps its own context out of issue for the 16
cycles that follow, and no memory, and nothing of another strand or site, changes. -/
def NopAndYield : Prop :=
  ∀ s : State, (guardTrap .nop s = none → ∃ t, exec .nop s = .next t ∧ curPc t = curPc s + 4 ∧ writesOnly none s t) ∧
    (guardTrap .yield s = none → ∃ t, exec .yield s = .next t ∧ curPc t = curPc s + 4 ∧ yieldEnd t = s.time + 17 ∧
      changesOnly none (yieldHide s) s t ∧ sameMemory s t)

/-- R27, R28, R158, R159, R353: WID writes the level of the group's work identifier that its selector names, counted from the
top with the widths of the WSHAPE below it, or with selector 6 the WSHAPE; TIME writes the wafer time as the core's
field reads it, at least the machine's own count and at most 64 later (R353 bounds the skew by 64; that it is a constant of the field and of the
wafer, added to the machine's count, is the model's choice, log 11). -/
def WorkIdentifierAndTime : Prop :=
  ∀ (s : State) (d : Nat), nameable s d →
    (∀ b, b < 7 → guardTrap (.wid d b) s = none → ∃ t v, exec (.wid d b) s = .next t ∧ wrote s t d v 4 ∧
      (b = 6 → v = BitVec.ofNat 64 (actGroupVal s).wshape) ∧
      (b < 6 → v.toNat = (actGroupVal s).wid.toNat /
          2 ^ (((List.range 6).filter fun j => decide (b < j)).map fun j => (actGroupVal s).wshape / 2 ^ (6 * j) % 64).sum %
          2 ^ ((actGroupVal s).wshape / 2 ^ (6 * b) % 64))) ∧
    (guardTrap (.time d) s = none → ∃ t v, exec (.time d) s = .next t ∧ wrote s t d v 4 ∧
      ∃ skew, skew ≤ 64 ∧ v = BitVec.ofNat 64 (s.time + skew))

end Sys2Proof.Claims

/-- NOP, YIELD, WID and TIME: `NopAndYield`, `WorkIdentifierAndTime`, together. -/
def Obligations.NopYieldWidAndTime : Prop :=
  Sys2Proof.Claims.NopAndYield ∧ Sys2Proof.Claims.WorkIdentifierAndTime

/-! ### Traps -/

namespace Sys2Proof.Claims

/-- A strand that stands in a slot as it does when it issues: it is found there, has no frame, is READY, and its
group is not being saved. -/
def standing (s : State) (sid k : Nat) : Prop :=
  let c := (getSite s sid).core
  let key := slotKey (slotOf c k)
  key < 256 ∧ findSlot c key = some k ∧ (strandOf c key).saved = none ∧ (slotOf c k).st = .ready ∧
    ∀ g, groupOf c (slotOf c k).grp = some g → g.victim = false

/-- The same of the agent at hand, when it is a strand. -/
def agentStands (s : State) : Prop := ∀ sid k, s.cur = .strand sid k → standing s sid k

/-- From s to t the agent at hand takes a trap with TRAP_PC at its instruction. A strand is TRAPPED and a record is
kept for its slot (R381), fatal where TRAP_VEC.EN is 0 and the supervisor context is not HALTED (R383); in S the trap is a double
trap, still to be taken (R384); a management core writes its trap
registers, sets IN_TRAP and goes to TRAP_VEC.BASE, or halts where IN_TRAP was set (R390). -/
def trapTaken (s t : State) (cause info : Nat) (deferred : Bool := false) : Prop :=
  match s.cur with
  | .strand sid k =>
    let c := (getSite s sid).core
    (slotOf (getSite t sid).core k).st = .trapped ∧ curPc t = curPc s ∧
    ∃ r : TrapRec, (getSite t sid).core.traps = c.traps ++ [r] ∧ r.slot = k ∧ r.grp = (slotOf c k).grp ∧
      r.idx = (slotOf c k).idx ∧ (r.fatal = true ↔ regF (getSite s sid) 0x023 21 21 = 0 ∧ c.sup.st ≠ .halted) ∧
      r.val = { cause := cause, pc := curPc s, info := BitVec.ofNat 64 info, deferred := deferred }
  | .sup sid => curPc t = curPc s ∧
    (getSite t sid).core.sup.double = some { cause := cause, pc := curPc s, info := BitVec.ofNat 64 info, deferred := deferred }
  | .mgmt k =>
    let m := getMgmt s k
    let m' := getMgmt t k
    if mreg m 0x703 % 2 = 1 then m'.st = .halted
    else mreg m' 0x020 % 2 ^ 21 = cause + (if deferred then 2 ^ 20 else 0) ∧ mreg m' 0x021 = (curPc s).toNat ∧
      mreg m' 0x022 = info % 2 ^ 64 ∧ mreg m' 0x703 = 1 ∧ (curPc t).toNat = mreg m 0x023 % 2 ^ 21

/-- The file and the number of a register of the files g, v and q that an instruction reads. -/
def readsFile : Use → Option (Nat × Nat)
  | .rg n => some (0, n)
  | .rv n => some (1, n)
  | .rq n => some (2, n)
  | _ => none

/-- A precise trap: taken, with no general register and no byte of memory changed. -/
def preciseTrap (s t : State) (cause info : Nat) : Prop :=
  trapTaken s t cause info ∧ (∀ r, readG t r = readG s r) ∧ sameMemory s t

end Sys2Proof.Claims

/-- R83, R136, R138 and R388: every instruction that the encoding admits is checked in this order before its own checks,
and traps with no other effect: ILLEGAL_INSTRUCTION with its words where it is not legal at the level at hand; else
PRIVILEGE with its words in U where it is of major 0x39 or names stream s15; else (for an instruction that names no system
register) REGISTER_BANK with subcode 1 and the first register, in the order of its fields, that lies in an unmapped bank; else
MACHINE_CHECK with subcode 4, the register and its file (0 general, 1 vector, 2 mask) where a register that it reads has bad parity:
the first in the order of its fields (the place of these checks in the order is the model's reading, log 15). -/
def Obligations.ChecksInOrder : Prop :=
  ∀ (i : Instr) (s : State), i.WellFormed → agentStands s →
    (levelOk i s = false → ∃ t, exec i s = .next t ∧ preciseTrap s t 0x01 (wordsInfo i)) ∧
    (levelOk i s = true → curLevel s = .u → legality i = .priv ∨ streamOf i = some 15 →
      ∃ t, exec i s = .next t ∧ preciseTrap s t 0x02 (wordsInfo i)) ∧
    (levelOk i s = true → ¬(curLevel s = .u ∧ (legality i = .priv ∨ streamOf i = some 15)) → sysNumber i = none →
      (∀ pre u post n, uses i = pre ++ u :: post → u.gOf = some n → gMapped (curCtx s) n = false →
        (∀ u' ∈ pre, ∀ n', u'.gOf = some n' → gMapped (curCtx s) n' = true) →
        ∃ t, exec i s = .next t ∧ preciseTrap s t 0x06 (1 + n * 2 ^ 8)) ∧
      ((∀ u ∈ uses i, ∀ n, u.gOf = some n → gMapped (curCtx s) n = true) →
        ∀ pre u post f n, uses i = pre ++ u :: post → (∀ u' ∈ pre, parityOf (curCtx s) u' = none) → readsFile u = some (f, n) →
          (f, n) ∈ (curCtx s).parity → ∃ t, exec i s = .next t ∧ trapTaken s t 0x13 (4 + n * 2 ^ 8 + f * 2 ^ 14) ∧ sameMemory s t))

/-! ### Local accesses (R163 to R178) -/

namespace Sys2Proof.Claims

/-- The accesses of the agent's core, or management core, that have issued and not wholly performed. -/
def accessesOf (s : State) : List Access :=
  match s.cur with
  | .mgmt k => (getMgmt s k).accesses
  | _ => (curSite s).core.accesses

/-- The first failing check of R163 on an access of n bytes by the agent at hand: cause and subcode. A management core's
accesses are checked against its own store (R392). A store into the firmware's handler entries is refused whatever page reaches them,
which is the model's reading of R31 (log 73). -/
def firstFailure (s : State) (ea n : Nat) (rd wr : Bool) : Option (Nat × Nat) :=
  let limit := match s.cur with | .mgmt _ => 0x40000 | _ => 0x200000
  let x := curSite s
  let e := pmapAt x.core (ea / 4096)
  let inU : Bool := match s.cur with | .strand _ _ => true | _ => false
  if limit < ea + n then some (0x04, 4)
  else if ea % n ≠ 0 then some (0x05, 0)
  else if curLevel s = .m then none
  else if !eValid e then some (0x04, 1)
  else if inU && decide (resvL x ≤ ePhys e) && (checkGrp s != some (eOwner e)) then some (0x04, 2)
  else if (rd && !eR e) || (wr && !eW e) || (inU && eS e) then some (0x04, 3)
  else if wr && inFirmwareEntries x ea n then some (0x04, 3)
  else none

/-- What a load, store, atomic, VLD or VST does: its address, bytes, whether it reads and writes, its stream, its units and
what becomes of their result. -/
structure LocalForm where
  ea : Nat
  n : Nat
  rd : Bool
  wr : Bool
  stream : Nat
  units : List AUnit
  fin : AFin

/-- The address of the M format: ga plus the scaled offset, unbounded (R80, R171). -/
def mAddr (s : State) (a o n : Nat) : Nat := (readG s a).toNat + o * n
def toReg (d : Nat) : Option Nat := if d = 0 then none else some d
def loadForm (s : State) (d a st o n : Nat) (sg : Bool) : LocalForm :=
  { ea := mAddr s a o n, n := n, rd := true, wr := false, stream := st, units := [.read (mAddr s a o n) n 0]
    fin := .load n sg (toReg d) }
def storeForm (s : State) (d a st o n : Nat) : LocalForm :=
  { ea := mAddr s a o n, n := n, rd := false, wr := true, stream := st, fin := .none
    units := [.write (mAddr s a o n) n ((readG s d).toNat % 2 ^ (8 * n))] }
def atomicForm (s : State) (d a b st op : Nat) : LocalForm :=
  { ea := (readG s a).toNat, n := 8, rd := true, wr := true, stream := st, fin := .atomic (toReg d)
    units := [.rmw (readG s a).toNat op (readG s b) (readG s d)] }
/-- The local form of an instruction (R171, R173, R177). -/
def localForm (s : State) : Instr → Option LocalForm
  | .ldb d a st o => some (loadForm s d a st o 1 true)
  | .ldbn d a st o => some (loadForm s d a st o 1 false)
  | .ldh d a st o => some (loadForm s d a st o 2 true)
  | .ldhn d a st o => some (loadForm s d a st o 2 false)
  | .ldw d a st o => some (loadForm s d a st o 4 true)
  | .ldwn d a st o => some (loadForm s d a st o 4 false)
  | .ldd d a st o => some (loadForm s d a st o 8 false)
  | .stb d a st o => some (storeForm s d a st o 1)
  | .sth d a st o => some (storeForm s d a st o 2)
  | .stw d a st o => some (storeForm s d a st o 4)
  | .std d a st o => some (storeForm s d a st o 8)
  | .ladd d a b st => some (atomicForm s d a b st 0)
  | .lmin d a b st => some (atomicForm s d a b st 1)
  | .lmax d a b st => some (atomicForm s d a b st 2)
  | .land d a b st => some (atomicForm s d a b st 3)
  | .lor d a b st => some (atomicForm s d a b st 4)
  | .lxor d a b st => some (atomicForm s d a b st 5)
  | .lswp d a b st => some (atomicForm s d a b st 6)
  | .lcas d a b st => some (atomicForm s d a b st 7)
  | .vld d a st o => some {
      ea := mAddr s a o 128, n := 128, rd := true, wr := false, stream := st, fin := .vec (some d)
      units := [.read (mAddr s a o 128) 32 0, .read (mAddr s a o 128 + 32) 32 32, .read (mAddr s a o 128 + 64) 32 64,
                .read (mAddr s a o 128 + 96) 32 96] }
  | .vst d a st o =>
    let v := (vGet (curCtx s) d).toNat
    some {
      ea := mAddr s a o 128, n := 128, rd := false, wr := true, stream := st, fin := .none
      units := [.write (mAddr s a o 128) 32 (v % 2 ^ 256), .write (mAddr s a o 128 + 32) 32 (v / 2 ^ 256 % 2 ^ 256),
                .write (mAddr s a o 128 + 64) 32 (v / 2 ^ 512 % 2 ^ 256), .write (mAddr s a o 128 + 96) 32 (v / 2 ^ 768 % 2 ^ 256)] }
  | _ => none

/-- R163, R165, R171, R173, R177: LDB, LDBN, LDH, LDHN, LDW, LDWN, LDD, STB, STH, STW, STD, LADD, LMIN, LMAX, LAND, LOR,
LXOR, LSWP, LCAS, VLD and VST whose checks all pass complete: one access joins those that have issued, with the address,
stream, units and result of the form, the values read at issue, and the program counter moves on. No register and no byte of
memory changes before the access performs. -/
def LocalAccessIssued : Prop :=
  ∀ (i : Instr) (s : State) (f : LocalForm), localForm s i = some f → guardTrap i s = none →
    firstFailure s f.ea f.n f.rd f.wr = none →
    ∃ t x, exec i s = .next t ∧ accessesOf t = accessesOf s ++ [x] ∧ x.key = curKey s ∧ x.pc = curPc s ∧ x.ea = f.ea ∧
      x.rd = f.rd ∧ x.wr = f.wr ∧ x.stream = f.stream ∧ x.units = f.units ∧ x.fin = f.fin ∧ x.acc = 0 ∧ x.via = [] ∧
      x.ready = s.time + 1 ∧ curPc t = curPc s + 4 ∧ sameMemory s t ∧
      changesOnly none { core := fun c => { c with accesses := [], accIds := 0 }
                         mgmt := fun m => { m with accesses := [], accIds := 0 } } s t

/-- R163: the same instructions trap on the first check that fails, LOCAL_ACCESS with its subcode or MISALIGNED, with no
access made: TRAP_INFO holds the subcode, the write bit, the stream and the low 32 bits of the address. -/
def LocalAccessTraps : Prop :=
  ∀ (i : Instr) (s : State) (f : LocalForm) (cause sub : Nat), localForm s i = some f → guardTrap i s = none →
    agentStands s → firstFailure s f.ea f.n f.rd f.wr = some (cause, sub) →
    ∃ t, exec i s = .next t ∧ accessesOf t = accessesOf s ∧
      preciseTrap s t cause (sub + (if f.wr then 16 else 0) + f.stream * 2 ^ 8 + f.ea % 2 ^ 32 * 2 ^ 32)

/-- An enabled lane of VGATH or VSCAT: its number and its address (R178). -/
def enabledLanes (s : State) (q b : Nat) : List (Nat × Nat) :=
  ((List.range 32).filter fun k => (qGet (curCtx s) q).getLsbD (4 * k)).map fun k =>
    (k, ((vGet (curCtx s) b).extractLsb' (32 * k) 32).toNat)
/-- The bytes of a width code: .w, .h, .b. -/
def laneBytes (w : Nat) : Nat := match w with | 0 => 4 | 1 => 2 | _ => 1

/-- R178: VGATH and VSCAT whose every enabled lane passes its checks complete. With no lane enabled VGATH writes the zero
vector and VSCAT nothing; else one access joins those that have issued, its units each holding the lanes of one 32-byte
line, every enabled lane in some unit and no other: for VGATH lane, address and width, for VSCAT lane, address, width and the low
bits of the lane of vd. No byte of memory changes yet. Where an enabled lane fails a check they make no access and trap on the
lowest that does, with its lane number and its address in TRAP_INFO. -/
def GatherScatterIssued : Prop :=
  ∀ (s : State) (d a b w st : Nat), (∀ m, s.cur ≠ .mgmt m) →
    (guardTrap (.vgath d a b w st) s = none → (∀ e ∈ enabledLanes s a b, firstFailure s e.2 (laneBytes w) true false = none) →
      ∃ t, exec (.vgath d a b w st) s = .next t ∧ curPc t = curPc s + 4 ∧ sameMemory s t ∧
        (enabledLanes s a b = [] → vGet (curCtx t) d = 0 ∧ writesOnly (some (.v d)) s t) ∧
        (enabledLanes s a b ≠ [] → ∃ (x : Access) (ls : List (List (Nat × Nat × Nat))), accessesOf t = accessesOf s ++ [x] ∧ x.key = curKey s ∧ x.stream = st ∧ x.rd = true ∧
          x.wr = false ∧ x.fin = .vec (some d) ∧ x.units = ls.map AUnit.gather ∧
          (∀ l ∈ ls, ∀ e ∈ l, ∀ e' ∈ l, e.2.1 / 32 = e'.2.1 / 32) ∧
          (∀ e, (∃ l ∈ ls, e ∈ l) ↔ e ∈ (enabledLanes s a b).map fun p => (p.1, p.2, laneBytes w)) ∧
          changesOnly none { core := fun c => { c with accesses := [], accIds := 0 } } s t)) ∧
    (guardTrap (.vscat d a b w st) s = none → (∀ e ∈ enabledLanes s a b, firstFailure s e.2 (laneBytes w) false true = none) →
      ∃ t, exec (.vscat d a b w st) s = .next t ∧ curPc t = curPc s + 4 ∧ sameMemory s t ∧
        (enabledLanes s a b = [] → writesOnly none s t) ∧
        (enabledLanes s a b ≠ [] → ∃ (x : Access) (ls : List (List (Nat × Nat × Nat × Nat))), accessesOf t = accessesOf s ++ [x] ∧ x.key = curKey s ∧ x.stream = st ∧ x.rd = false ∧
          x.wr = true ∧ x.fin = .none ∧ x.units = ls.map AUnit.scatter ∧
          (∀ l ∈ ls, ∀ e ∈ l, ∀ e' ∈ l, e.2.1 / 32 = e'.2.1 / 32) ∧
          (∀ e, (∃ l ∈ ls, e ∈ l) ↔ e ∈ (enabledLanes s a b).map fun p =>
            (p.1, p.2, laneBytes w, ((vGet (curCtx s) d).extractLsb' (32 * p.1) (8 * laneBytes w)).toNat)) ∧
          changesOnly none { core := fun c => { c with accesses := [], accIds := 0 } } s t)) ∧
    ∀ wr : Bool, guardTrap (if wr then .vscat d a b w st else .vgath d a b w st) s = none → agentStands s →
      ∀ pre k ea post cause sub, enabledLanes s a b = pre ++ (k, ea) :: post →
        (∀ e ∈ pre, firstFailure s e.2 (laneBytes w) (!wr) wr = none) → firstFailure s ea (laneBytes w) (!wr) wr = some (cause, sub) →
        ∃ t, exec (if wr then .vscat d a b w st else .vgath d a b w st) s = .next t ∧ accessesOf t = accessesOf s ∧
          preciseTrap s t cause (sub + (if wr then 16 else 0) + st * 2 ^ 8 + k * 2 ^ 16 + ea % 2 ^ 32 * 2 ^ 32)

end Sys2Proof.Claims

/-- Local accesses issue, or trap with no effect where a check fails: `LocalAccessIssued`, `GatherScatterIssued`, `LocalAccessTraps`, together. -/
def Obligations.LocalAccessesIssue : Prop :=
  Sys2Proof.Claims.LocalAccessIssued ∧ Sys2Proof.Claims.GatherScatterIssued ∧ Sys2Proof.Claims.LocalAccessTraps

namespace Sys2Proof.Claims

/-- Access i of a site's core may perform now: it is x, its cycle has come, and no earlier access of its strand and
stream is left (R165). -/
def mayGo (s : State) (sid i : Nat) (x : Access) : Prop :=
  let l := (getSite s sid).core.accesses
  l.find? (fun y => y.id == i) = some x ∧ x.ready ≤ s.time ∧
    ∀ y ∈ l.takeWhile (fun y => y.id != i), ¬(y.key = x.key ∧ y.stream = x.stream)

/-- The state in which strand key of a site stands in slot k, ready for its register d to be written. -/
def reaches (s : State) (sid key k d : Nat) : Prop :=
  key < 256 ∧ (strandOf (getSite s sid).core key).saved = none ∧ findSlot (getSite s sid).core key = some k ∧
    gMapped (slotOf (getSite s sid).core k).ctx d = true
/-- The hardware has written no frame line at a physical offset in this cycle, so that a store there takes effect (R111). -/
def lineFree (s : State) (sid p : Nat) : Prop := p / 32 ∉ (getSite s sid).core.frameLines
/-- The machine seen by the strand in slot k of a site. -/
def seenBy (s : State) (sid k : Nat) : State := { s with cur := .strand sid k }

/-- R165, R169, R171: LOCAL_ACCESS_PERFORM of a scalar load that meets no uncorrectable word: gd holds the bytes of the
local store at the access's physical offset in that cycle, sign- or zero-extended, the access is gone, and no other
register and no byte of memory changes. -/
def LoadPerforms : Prop :=
  ∀ (s : State) (sid i k a n d : Nat) (sg : Bool) (x : Access), s.arg = [sid, i, 0, 0] → mayGo s sid i x →
    x.units = [.read a n 0] → x.fin = .load n sg (some d) → x.acc = 0 → n ∈ [1, 2, 4, 8] → reaches s sid x.key k d →
    badIn (getSite s sid).core.bad (physVia (getSite s sid).core x.via a) n = none →
    ∃ t v, exec .localAccessPerform s = .next t ∧
      v = mread (getSite s sid).core.mem (physVia (getSite s sid).core x.via a) n ∧
      readG (seenBy t sid k) d = (if d = 0 then 0 else if sg then (BitVec.ofNat (8 * n) v).signExtend 64 else BitVec.ofNat 64 v) ∧
      (getSite t sid).core.accesses = (getSite s sid).core.accesses.filter (fun y => y.id != i) ∧ sameMemory s t ∧
      changesOnly (some (.g d)) { core := fun c => { c with accesses := [], found := [] } } (seenBy s sid k) (seenBy t sid k)

/-- R111, R165, R171: performing a store of n bytes that needs no read of a bad word: the bytes at its physical
offset hold the value, lowest byte first, unless the hardware has written that line of a frame in the cycle, which then stands; every other byte of every memory, every register and every other site stays. -/
def StorePerforms : Prop :=
  ∀ (s : State) (sid i a n v : Nat) (x : Access), s.arg = [sid, i, 0, 0] → mayGo s sid i x →
    x.units = [.write a n v] → x.fin = .none →
    (n < 8 → badIn (getSite s sid).core.bad (physVia (getSite s sid).core x.via a) n = none) →
    ∃ t p, exec .localAccessPerform s = .next t ∧ p = physVia (getSite s sid).core x.via a ∧
      (lineFree s sid p → ∀ j, j < n → storeByte t sid (p + j) = BitVec.ofNat 8 (v / 256 ^ j)) ∧
      (∀ q, q < p ∨ p + n ≤ q → storeByte t sid q = storeByte s sid q) ∧ (¬lineFree s sid p → sameMemory s t) ∧
      (getSite t sid).core.accesses = (getSite s sid).core.accesses.filter (fun y => y.id != i) ∧
      (∀ m, m ≠ sid → getSite t m = getSite s m) ∧ { t with sites := [] } = { s with sites := [] } ∧
      blankSite (fun c => { c with mem := [], accesses := [], bad := [], correctable := [], found := [], stored := [] }) (getSite t sid) =
        blankSite (fun c => { c with mem := [], accesses := [], bad := [], correctable := [], found := [], stored := [] }) (getSite s sid)

/-- The word that an atomic leaves (R173, R326): by operation, old value, operand and expected value. -/
def atomicValue {w : Nat} (op : Nat) (old b c : BitVec w) : BitVec w :=
  match op with
  | 0 => old + b
  | 1 => if old.toInt < b.toInt then old else b
  | 2 => if b.toInt < old.toInt then old else b
  | 3 => old &&& b
  | 4 => old ||| b
  | 5 => old ^^^ b
  | 6 => b
  | _ => if old = c then b else old

/-- R165, R173: performing a local atomic on a good dword: gd holds the old dword, the dword holds the new
value of the operation (LCAS only where the old one equals the expected one), where no frame line is written
there in the cycle (R111); all other bytes and registers stay. -/
def AtomicPerforms : Prop :=
  ∀ (s : State) (sid i k a op d : Nat) (b c : Word) (x : Access), s.arg = [sid, i, 0, 0] → mayGo s sid i x →
    x.units = [.rmw a op b c] → x.fin = .atomic (some d) → op < 8 → reaches s sid x.key k d →
    badIn (getSite s sid).core.bad (physVia (getSite s sid).core x.via a) 8 = none →
    lineFree s sid (physVia (getSite s sid).core x.via a) →
    ∃ t p old, exec .localAccessPerform s = .next t ∧ p = physVia (getSite s sid).core x.via a ∧
      old = BitVec.ofNat 64 (mread (getSite s sid).core.mem p 8) ∧ readG (seenBy t sid k) d = (if d = 0 then 0 else old) ∧
      mread (getSite t sid).core.mem p 8 = (atomicValue op old b c).toNat ∧
      (∀ q, q < p ∨ p + 8 ≤ q → storeByte t sid q = storeByte s sid q) ∧
      changesOnly (some (.g d)) { core := fun c => { c with mem := [], accesses := [], bad := [], correctable := [], found := [], stored := [] } }
        (seenBy s sid k) (seenBy t sid k)

/-- R165, R177: performing the last line of a VLD: vd holds what the earlier lines have left with this
line's 32 bytes in place; of one of several lines of a VST: its 32 bytes are written, the access
keeps the others. -/
def VectorLinePerforms : Prop :=
  ∀ (s : State) (sid i u a : Nat) (x : Access), mayGo s sid i x →
    (∀ o k d, s.arg = [sid, i, 0, 0] → x.units = [.read a 32 o] → x.fin = .vec (some d) → d < 16 → reaches s sid x.key k 0 →
      badIn (getSite s sid).core.bad (physVia (getSite s sid).core x.via a) 32 = none →
      ∃ t, exec .localAccessPerform s = .next t ∧ sameMemory s t ∧
        vGet (slotOf (getSite t sid).core k).ctx d =
          BitVec.ofNat 1024 (x.acc + mread (getSite s sid).core.mem (physVia (getSite s sid).core x.via a) 32 * 256 ^ o) ∧
        changesOnly (some (.v d)) { core := fun c => { c with accesses := [], found := [] } } (seenBy s sid k) (seenBy t sid k)) ∧
    (∀ v, s.arg = [sid, i, u, 0] → x.fin = .none → x.units[u]? = some (.write a 32 v) → 1 < x.units.length →
      lineFree s sid (physVia (getSite s sid).core x.via a) →
      ∃ t p, exec .localAccessPerform s = .next t ∧ p = physVia (getSite s sid).core x.via a ∧
        (∀ j, j < 32 → storeByte t sid (p + j) = BitVec.ofNat 8 (v / 256 ^ j)) ∧
        (∀ q, q < p ∨ p + 32 ≤ q → storeByte t sid q = storeByte s sid q) ∧
        (getSite t sid).core.accesses.find? (fun y => y.id == i) = some { x with units := x.units.eraseIdx u })

/-- R168, R169: performing a load or atomic of a strand that meets an uncorrectable word: no register
or byte is written; MACHINE_CHECK waits for it (an earlier one stays) with TRAP_PC at the access, and
UE_COUNT counts the word, up to its limit. -/
def UncorrectableLoad : Prop :=
  ∀ (s : State) (sid i k a n d w : Nat) (sg : Bool) (x : Access), s.arg = [sid, i, 0, 0] → mayGo s sid i x →
    (x.units = [.read a n 0] ∧ x.fin = .load n sg (some d) ∨ (∃ op b c, x.units = [.rmw a op b c] ∧ x.fin = .atomic (some d)) ∧ n = 8) →
    reaches s sid x.key k d → badIn (getSite s sid).core.bad (physVia (getSite s sid).core x.via a) n = some w →
    ∃ t v, exec .localAccessPerform s = .next t ∧ sameMemory s t ∧ (∀ r, readG (seenBy t sid k) r = readG (seenBy s sid k) r) ∧
      (strandOf (getSite t sid).core x.key).mcheck = some v ∧
      (∀ v', (strandOf (getSite s sid).core x.key).mcheck = some v' → v = v') ∧
      ((strandOf (getSite s sid).core x.key).mcheck = none → v.cause = 0x13 ∧ v.pc = x.pc ∧ v.deferred = true) ∧
      (0 < n → w % 8 = 0 → physVia (getSite s sid).core x.via a % 8 + n ≤ 8 →
        regF (getSite t sid) 0x052 47 32 = min (regF (getSite s sid) 0x052 47 32 + 1) 0xFFFF)

/-- The agent at hand is the supervisor context of a site, or a management core. -/
def seenByS (s : State) (sid : Nat) : State := { s with cur := .sup sid }
def seenByM (s : State) (k : Nat) : State := { s with cur := .mgmt k }
/-- From s to t nothing has changed but what f takes out of sight of one core. -/
def coreSame (s t : State) (sid : Nat) (f : Core → Core) : Prop :=
  (∀ m, m ≠ sid → getSite t m = getSite s m) ∧ { t with sites := [] } = { s with sites := [] } ∧
    blankSite f (getSite t sid) = blankSite f (getSite s sid)
/-- From s to t nothing has changed but one management core, and of that only its register d and what f takes out of sight. -/
def mgmtSame (s t : State) (k : Nat) (d : Option Nat) (f : Mgmt → Mgmt) : Prop :=
  { t with mgmts := [] } = { s with mgmts := [] } ∧ (∀ n, n ≠ k → getMgmt t n = getMgmt s n) ∧
    (∀ r, r < 16 → d ≠ some r → readG (seenByM t k) r = readG (seenByM s k) r) ∧
    f { getMgmt t k with ctx := {}, accesses := [] } = f { getMgmt s k with ctx := {}, accesses := [] }
/-- What a load of n bytes writes. -/
def loadValue (n v : Nat) (sg : Bool) : Word := if sg then (BitVec.ofNat (8 * n) v).signExtend 64 else BitVec.ofNat 64 v

/-- R165, R171, R173: performing an access whose result is discarded (gd = g0) writes no register, an atomic still its dword; of one of the
supervisor context it writes that context's gd. -/
def DiscardedAndSupervisorAccesses : Prop :=
  ∀ (s : State) (sid i a : Nat) (x : Access), s.arg = [sid, i, 0, 0] → mayGo s sid i x →
    let c := (getSite s sid).core
    let p := physVia c x.via a
    (∀ n sg, x.units = [.read a n 0] → x.acc = 0 → n ∈ [1, 2, 4, 8] → badIn c.bad p n = none →
      (x.fin = .load n sg none → ∃ t, exec .localAccessPerform s = .next t ∧ sameMemory s t ∧
        (getSite t sid).core.accesses = c.accesses.filter (fun y => y.id != i) ∧
        coreSame s t sid fun c => { c with accesses := [], found := [] }) ∧
      (∀ d, x.fin = .load n sg (some d) → x.key = supKey → d < 16 → ∃ t, exec .localAccessPerform s = .next t ∧ sameMemory s t ∧
        readG (seenByS t sid) d = (if d = 0 then 0 else loadValue n (mread c.mem p n) sg) ∧
        changesOnly (some (.g d)) { core := fun c => { c with accesses := [], found := [] } } (seenByS s sid) (seenByS t sid))) ∧
    ∀ op b v, x.units = [.rmw a op b v] → op < 8 → badIn c.bad p 8 = none → lineFree s sid p →
      (x.fin = .atomic none ∨ (x.key = supKey ∧ ∃ d, d < 16 ∧ x.fin = .atomic (some d))) →
      let old : Word := BitVec.ofNat 64 (mread c.mem p 8)
      ∃ t, exec .localAccessPerform s = .next t ∧ mread (getSite t sid).core.mem p 8 = (atomicValue op old b v).toNat ∧
        (∀ q, q < p ∨ p + 8 ≤ q → storeByte t sid q = storeByte s sid q) ∧
        (x.fin = .atomic none →
          coreSame s t sid fun c => { c with mem := [], accesses := [], bad := [], correctable := [], found := [], stored := [] }) ∧
        ∀ d, x.fin = .atomic (some d) → readG (seenByS t sid) d = (if d = 0 then 0 else old) ∧
          changesOnly (some (.g d)) { core := fun c => { c with mem := [], accesses := [], bad := [], correctable := [], found := [], stored := [] } }
            (seenByS s sid) (seenByS t sid)

/-- R165, R392: performing a load, store or atomic of a management core, on its own store: the register or the bytes written and no other; one
that meets an uncorrectable word writes nothing, and MACHINE_CHECK waits for the core. -/
def ManagementAccessesPerform : Prop :=
  ∀ (s : State) (k i a : Nat) (x : Access), s.arg = [k, i, 0, 1] →
    let m := getMgmt s k
    m.accesses.find? (fun y => y.id == i) = some x → x.ready ≤ s.time →
    (∀ y ∈ m.accesses.takeWhile (fun y => y.id != i), ¬(y.key = x.key ∧ y.stream = x.stream)) →
    let gone := fun t : State => (getMgmt t k).accesses = m.accesses.filter (fun y => y.id != i)
    let errors := fun m : Mgmt => { m with store := [], bad := [], correctable := [], found := [] }
    (∀ n sg d, x.units = [.read a n 0] → x.fin = .load n sg d → x.acc = 0 → n ∈ [1, 2, 4, 8] → (∀ r, d = some r → r < 16) → badIn m.bad a n = none →
      ∃ t, exec .localAccessPerform s = .next t ∧ sameMemory s t ∧ gone t ∧ mgmtSame s t k d (fun m => { m with found := [] }) ∧
        ∀ r, d = some r → readG (seenByM t k) r = if r = 0 then 0 else loadValue n (mread m.store a n) sg) ∧
    (∀ n v, x.units = [.write a n v] → x.fin = .none → (n < 8 → badIn m.bad a n = none) →
      ∃ t, exec .localAccessPerform s = .next t ∧ gone t ∧ mgmtSame s t k none errors ∧
        (∀ j, j < n → mgmtByte t k (a + j) = BitVec.ofNat 8 (v / 256 ^ j)) ∧
        ∀ q, q < a ∨ a + n ≤ q → mgmtByte t k q = mgmtByte s k q) ∧
    (∀ op b v d, x.units = [.rmw a op b v] → x.fin = .atomic d → op < 8 → (∀ r, d = some r → r < 16) → badIn m.bad a 8 = none →
      let old : Word := BitVec.ofNat 64 (mread m.store a 8)
      ∃ t, exec .localAccessPerform s = .next t ∧ gone t ∧ mgmtSame s t k d errors ∧
        mread (getMgmt t k).store a 8 = (atomicValue op old b v).toNat ∧ (∀ q, q < a ∨ a + 8 ≤ q → mgmtByte t k q = mgmtByte s k q) ∧
        ∀ r, d = some r → readG (seenByM t k) r = if r = 0 then 0 else old) ∧
    ∀ n w, (∃ sg d, x.units = [.read a n 0] ∧ x.fin = .load n sg d) ∨ (∃ op b v d, x.units = [.rmw a op b v] ∧ x.fin = .atomic d ∧ n = 8) →
      badIn m.bad a n = some w →
      ∃ t v, exec .localAccessPerform s = .next t ∧ sameMemory s t ∧ gone t ∧ (getMgmt t k).mcheck = some v ∧ (∀ v', m.mcheck = some v' → v = v') ∧
        (m.mcheck = none → v.cause = 0x13 ∧ v.pc = x.pc) ∧ ∀ r, readG (seenByM t k) r = readG (seenByM s k) r

/-- R165, R178: performing the last line of a VGATH: each of its lanes of vd holds the bytes at the lane's address, zero-extended, with
what the earlier lines have left; of a line of a VSCAT, each of its lanes writes its bytes, in lane order, and no other byte changes. -/
def GatherScatterPerform : Prop :=
  ∀ (s : State) (sid i : Nat) (x : Access), s.arg = [sid, i, 0, 0] → mayGo s sid i x →
    let c := (getSite s sid).core
    let at' := fun a => physVia c x.via a
    (∀ (l : List (Nat × Nat × Nat)) (d k : Nat), x.units = [.gather l] → x.fin = .vec (some d) → d < 16 → reaches s sid x.key k 0 →
      (∀ e ∈ l, badIn c.bad (at' e.2.1) e.2.2 = none) →
      ∃ t, exec .localAccessPerform s = .next t ∧ sameMemory s t ∧
        vGet (slotOf (getSite t sid).core k).ctx d =
          BitVec.ofNat 1024 (x.acc + (l.map fun e => mread c.mem (at' e.2.1) e.2.2 * 2 ^ (32 * e.1)).sum) ∧
        changesOnly (some (.v d)) { core := fun c => { c with accesses := [], found := [] } } (seenBy s sid k) (seenBy t sid k)) ∧
    ∀ (l : List (Nat × Nat × Nat × Nat)) (rest : List AUnit), x.units = .scatter l :: rest → x.fin = .none →
      (∀ e ∈ l, badIn c.bad (at' e.2.1) e.2.2.1 = none ∧ lineFree s sid (at' e.2.1)) →
      ∃ t, exec .localAccessPerform s = .next t ∧
        (∀ pre e post, l = pre ++ e :: post → ∀ j, j < e.2.2.1 →
          (∀ e' ∈ post, ¬(at' e'.2.1 ≤ at' e.2.1 + j ∧ at' e.2.1 + j < at' e'.2.1 + e'.2.2.1)) →
          storeByte t sid (at' e.2.1 + j) = BitVec.ofNat 8 (e.2.2.2 / 256 ^ j)) ∧
        (∀ q, (∀ e ∈ l, q < at' e.2.1 ∨ at' e.2.1 + e.2.2.1 ≤ q) → storeByte t sid q = storeByte s sid q) ∧
        (rest = [] → (getSite t sid).core.accesses = c.accesses.filter (fun y => y.id != i)) ∧
        (rest ≠ [] → (getSite t sid).core.accesses.find? (fun y => y.id == i) = some { x with units := rest }) ∧
        coreSame s t sid fun c => { c with mem := [], accesses := [], bad := [], correctable := [], found := [], stored := [] }

end Sys2Proof.Claims

/-- Local accesses perform: the bytes they read and write, and no other: `LoadPerforms`, `StorePerforms`, `AtomicPerforms`, `VectorLinePerforms`, `UncorrectableLoad`, `DiscardedAndSupervisorAccesses`, `ManagementAccessesPerform`, `GatherScatterPerform`, together. -/
def Obligations.LocalAccessesPerform : Prop :=
  Sys2Proof.Claims.LoadPerforms ∧ Sys2Proof.Claims.StorePerforms ∧ Sys2Proof.Claims.AtomicPerforms ∧ Sys2Proof.Claims.VectorLinePerforms ∧ Sys2Proof.Claims.UncorrectableLoad ∧ Sys2Proof.Claims.DiscardedAndSupervisorAccesses ∧ Sys2Proof.Claims.ManagementAccessesPerform ∧ Sys2Proof.Claims.GatherScatterPerform

namespace Sys2Proof.Claims

/-- What a wait changes beside the agent's wait itself, out of sight: its slot's state, age and promotions. -/
def waitHide : Hide where
  core c := { c with strands := [] }
  slot sl := { sl with st := .free, age := 0, boost := 0 }

/-- From s to t the strand or the supervisor context at hand begins to wait: for w, at its own instruction, WAITING in its slot,
with no register, no other strand's state and no byte of memory changed (R104). -/
def waits (s t : State) (w : Wait) : Prop :=
  (strandOf (curSite t).core (curKey s)).wait = w ∧ curPc t = curPc s ∧
  (∀ sid k, s.cur = .strand sid k → (slotOf (curSite t).core k).st = .waiting) ∧ changesOnly none waitHide s t ∧
  (∀ key, key ≠ curKey s → strandOf (curSite t).core key = strandOf (curSite s).core key) ∧ sameMemory s t

/-- Whether FENCE m, k of the strand or supervisor context at hand joins something: an access of a stream of m and of a kind
in k, or with kind bit 2 a remote write of such a stream (R174, R318). -/
def fenceJoins (s : State) (m k : Nat) : Prop :=
  (∃ x ∈ (curSite s).core.accesses, x.key = curKey s ∧ m.testBit x.stream = true ∧
      (x.rd = true ∧ k.testBit 0 = true ∨ x.wr = true ∧ k.testBit 1 = true)) ∨
    (k.testBit 2 = true ∧ ∃ o ∈ (curSite s).core.outs, o.key = curKey s ∧ o.dead = false ∧ o.kind = .rst ∧
      m.testBit o.pkt.stream = true)
/-- Whether FENCE m, k of the agent at hand covers the deferred fault v of its strand: kind bit 2, and a stream of m (R320). -/
def fenceCovers (s : State) (m k : Nat) (v : TrapVal) : Prop :=
  let st := strandOf (curSite s).core (curKey s)
  st.deferred = some v ∧ k.testBit 2 = true ∧ ∃ e ∈ st.deferredOf, m.testBit e.1 = true

end Sys2Proof.Claims

/-- R174, R320: FENCE of a strand or of S that covers a deferred fault of the strand traps with it at once, whatever it still joins;
otherwise it completes at issue where it joins nothing, and where it joins something it waits with reason 10; on a management
core it joins that core's own accesses. -/
def Obligations.FenceCompletesOrWaits : Prop :=
  ∀ (s : State) (m k : Nat), guardTrap (.fence m k) s = none → agentStands s →
    ((∀ c, s.cur ≠ .mgmt c) → (∀ v, ¬fenceCovers s m k v) → ¬fenceJoins s m k →
      ∃ t, exec (.fence m k) s = .next t ∧ curPc t = curPc s + 4 ∧ writesOnly none s t) ∧
    ((∀ c, s.cur ≠ .mgmt c) → ∀ v, fenceCovers s m k v →
      ∃ t, exec (.fence m k) s = .next t ∧ trapTaken s t v.cause v.info.toNat v.deferred ∧ sameMemory s t ∧
        (strandOf (curSite t).core (curKey s)).deferred = none) ∧
    ((∀ c, s.cur ≠ .mgmt c) → (∀ v, ¬fenceCovers s m k v) → fenceJoins s m k →
      ∃ t, exec (.fence m k) s = .next t ∧ waits s t (.fence m k) ∧ (Wait.fence m k).reason = 10) ∧
    (∀ c, s.cur = .mgmt c →
      ((∀ x ∈ accessesOf s, ¬(m.testBit x.stream = true ∧ (x.rd = true ∧ k.testBit 0 = true ∨ x.wr = true ∧ k.testBit 1 = true))) →
        ∃ t, exec (.fence m k) s = .next t ∧ curPc t = curPc s + 4 ∧ writesOnly none s t) ∧
      ((∃ x ∈ accessesOf s, m.testBit x.stream = true ∧ (x.rd = true ∧ k.testBit 0 = true ∨ x.wr = true ∧ k.testBit 1 = true)) →
        ∃ t, exec (.fence m k) s = .next t ∧ (getMgmt t c).wait = .fence m k ∧ curPc t = curPc s ∧ sameMemory s t))

/-! ### Vector instructions (R204 to R225) -/

namespace Sys2Proof.Claims

/-- Lane i of width w of a vector register (R204). -/
def vlane (w i : Nat) (v : Vec) : BitVec w := v.extractLsb' (w * i) w
/-- The vector results in flight of the agent at hand. -/
def vectorsOf (s : State) : List VPending :=
  match s.cur with
  | .mgmt k => (getMgmt s k).vectors
  | _ => (curSite s).core.vectors
/-- LFSR_STATE after an instruction that converts n elements: stepped once for each when FPCTL.RM is RS (R195). -/
def lfsrAfter (s : State) (n : Nat) : Word :=
  if roundMode s = 5 ∧ 0 < n then BitVec.ofNat 64 (lfsrSteps n (lfsrOf s)) else (curCtx s).lfsr
/-- The random bits of element i of an instruction that converts n elements (R195): 0 when it does not round with RS. -/
def randomOf (s : State) (n i : Nat) : Nat := (drawsFor (roundMode s) n (lfsrOf s)).1.getD i 0

/-- From s to t a vector instruction has issued (R206): its result p is in flight, to be written lat cycles later at the
earliest, marked to trap where it raises an enabled flag; LFSR_STATE has stepped n times when it rounds with RS; the program
counter has moved on and no other register and no byte of memory has changed. -/
def vectorIssued (s t : State) (p : VPending) (lat n : Nat) : Prop :=
  vectorsOf t = vectorsOf s ++ [p] ∧ p.key = curKey s ∧ p.pc = curPc s ∧ p.ready = s.time + lat ∧
  p.traps = (p.flags &&& trapEnables s != 0) ∧ curPc t = curPc s + 4 ∧ (curCtx t).lfsr = lfsrAfter s n ∧ sameMemory s t ∧
  changesOnly none { core := fun c => { c with vectors := [] }, mgmt := fun m => { m with vectors := [] } }
    (modCurCtx s fun x => { x with lfsr := lfsrAfter s n }) t

/-- An integer lane of the result of R212 and R213, from the lanes of va and vb; sg says whether the type is signed. -/
def intLane (w : Nat) (sg : Bool) (x y : BitVec w) : Instr → Option (BitVec w)
  | .vadd _ _ _ _ => some (x + y)
  | .vsub _ _ _ _ => some (x - y)
  | .vmul _ _ _ _ => some (x * y)
  | .vmin _ _ _ _ => some (if (if sg then x.toInt < y.toInt else x.toNat < y.toNat) then x else y)
  | .vmax _ _ _ _ => some (if (if sg then x.toInt < y.toInt else x.toNat < y.toNat) then y else x)
  | .vshl _ _ _ _ => some (x <<< y.toNat)
  | .vshr _ _ _ _ => some (if sg then x.sshiftRight y.toNat else x >>> y.toNat)
  | .vabs _ _ _ => some (if x.toInt < 0 then -x else x)
  | .vneg _ _ _ => some (-x)
  | _ => none
/-- The operands d, a, b and the type of a lane instruction; b is a where it has one operand. -/
def laneForm : Instr → Option (Nat × Nat × Nat × Nat)
  | .vadd d a b t | .vsub d a b t | .vmul d a b t | .vmin d a b t | .vmax d a b t | .vshl d a b t | .vshr d a b t => some (d, a, b, t)
  | .vabs d a t | .vneg d a t => some (d, a, a, t)
  | _ => none

/-- R206, R212, R213: VADD, VSUB, VMUL, VMIN, VMAX, VSHL, VSHR, VABS and VNEG on integer lanes complete whenever the checks of
issue pass: the result in flight for vd has every lane as the low bits of the operation, no flag is raised, and nothing traps;
VMUL takes 4 cycles, the others 2. -/
def VectorIntegerLanes : Prop :=
  ∀ (i : Instr) (s : State) (d a b ty : Nat), laneForm i = some (d, a, b, ty) → i.WellFormed → isIntT ty = true →
    guardTrap i s = none →
    ∃ t p v, exec i s = .next t ∧ vectorIssued s t p (match i with | .vmul _ _ _ _ => 4 | _ => 2) 0 ∧
      p.vd = some (d, v) ∧ p.gd = none ∧ p.qd = none ∧ p.flags = 0 ∧
      ∀ k, k < 1024 / laneBits ty → some (vlane (laneBits ty) k v) =
        intLane (laneBits ty) (isSignedT ty) (vlane (laneBits ty) k (vGet (curCtx s) a)) (vlane (laneBits ty) k (vGet (curCtx s) b)) i

/-- The exponent of a finite value, and its value in units of 2^e0. -/
def expo : Machine.Num → Int
  | .fin _ _ e => e
  | _ => 0
def inUnits (e0 : Int) : Machine.Num → Int
  | .fin n m e => (if n then -1 else 1) * (m * 2 ^ (e - e0).toNat : Nat)
  | _ => 0
def isFinite : Machine.Num → Prop
  | .fin _ _ _ => True
  | _ => False
/-- r is exactly x + y, and exactly x · y. -/
def isSum (r x y : Machine.Num) : Prop :=
  isFinite r ∧ ∃ e0, e0 ≤ expo r ∧ e0 ≤ expo x ∧ e0 ≤ expo y ∧ inUnits e0 r = inUnits e0 x + inUnits e0 y
def isProduct (r x y : Machine.Num) : Prop :=
  isFinite r ∧ ∃ e0, e0 + e0 ≤ expo r ∧ e0 ≤ expo x ∧ e0 ≤ expo y ∧ inUnits (e0 + e0) r = inUnits e0 x * inUnits e0 y
/-- The exact result of VADD, VSUB, VMUL and VFMA on finite lanes. -/
def isExact (r x y z : Machine.Num) : Instr → Prop
  | .vadd _ _ _ _ => isSum r x y
  | .vsub _ _ _ _ => isSum r x y.negate
  | .vmul _ _ _ _ => isProduct r x y
  | .vfma _ _ _ _ => ∃ q, isProduct q x y ∧ isSum r q z
  | _ => False
/-- The operands of a float arithmetic instruction. -/
def floatForm : Instr → Option (Nat × Nat × Nat × Nat)
  | .vadd d a b t | .vsub d a b t | .vmul d a b t | .vfma d a b t => some (d, a, b, t)
  | _ => none
/-- A float lane of a register as a value. -/
def laneVal (ty k : Nat) (v : Vec) : Machine.Num := decodeFloat (laneFloat ty) (vlane (laneBits ty) k v).toNat
/-- The rounding mode of a float destination: code 6 is RNE (R194). -/
def floatMode (s : State) : Nat := if roundMode s = 6 then 0 else roundMode s

/-- The operands of a float arithmetic instruction in the order in which a NaN is looked for. -/
def laneOperands (x y z : Machine.Num) : Instr → List Machine.Num
  | .vfma _ _ _ _ => [x, y, z]
  | _ => [x, y]
/-- The operation is invalid on operands that are no NaN: ∞ − ∞ or 0 × ∞ (R211). -/
def laneInvalid (x y z : Machine.Num) : Instr → Prop
  | .vadd _ _ _ _ => x.isInf = true ∧ y.isInf = true ∧ x.neg ≠ y.neg
  | .vsub _ _ _ _ => x.isInf = true ∧ y.isInf = true ∧ x.neg = y.neg
  | .vmul _ _ _ _ => x.isInf = true ∧ y.isZero = true ∨ x.isZero = true ∧ y.isInf = true
  | .vfma _ _ _ _ => (x.isInf = true ∧ y.isZero = true ∨ x.isZero = true ∧ y.isInf = true) ∨
      (x.isInf = true ∨ y.isInf = true) ∧ z.isInf = true ∧ (x.neg != y.neg) ≠ z.neg
  | _ => False
/-- The sign of an infinite result, where the operation has one. -/
def laneInfinite (x y z : Machine.Num) : Instr → Option Bool
  | .vadd _ _ _ _ => if x.isInf then some x.neg else if y.isInf then some y.neg else none
  | .vsub _ _ _ _ => if x.isInf then some x.neg else if y.isInf then some (!y.neg) else none
  | .vmul _ _ _ _ => if x.isInf || y.isInf then some (x.neg != y.neg) else none
  | .vfma _ _ _ _ => if x.isInf || y.isInf then some (x.neg != y.neg) else if z.isInf then some z.neg else none
  | _ => none
/-- The sign of a result that is exactly zero, its operands finite: that of two zeros of one sign, else + but − under RDN; a product's own (R211). -/
def zeroSign (mode : Nat) (x y z : Machine.Num) : Instr → Bool
  | .vadd _ _ _ _ => if x.isZero && y.isZero && x.neg == y.neg then x.neg else mode == 2
  | .vsub _ _ _ _ => if x.isZero && y.isZero && x.neg != y.neg then x.neg else mode == 2
  | .vmul _ _ _ _ => x.neg != y.neg
  | .vfma _ _ _ _ => if (x.isZero || y.isZero) && z.isZero && (x.neg != y.neg) == z.neg then z.neg else mode == 2
  | _ => false
/-- The bits and flags of one lane (R197, R198, R211): a NaN operand gives the canonical NaN with the sign of the first, INVALID where one signals; an
invalid operation the positive one with INVALID; an infinite result that infinity with no flag; and finite operands their exact result rounded once, with
the flags of that rounding. -/
def laneIs (f : FloatFmt) (mode rnd : Nat) (x y z : Machine.Num) (i : Instr) (out : Nat × Nat) : Prop :=
  let ops := laneOperands x y z i
  let numbers := ∀ v ∈ ops, v.isNan = false
  (∀ v, ops.find? Machine.Num.isNan = some v → out = (packNan f v.neg, if ops.any Machine.Num.isSnan then 1 else 0)) ∧
  (numbers → laneInvalid x y z i → out = (packNan f false, 1)) ∧
  (numbers → ¬laneInvalid x y z i → ∀ n, laneInfinite x y z i = some n → out = (packInf f n, 0)) ∧
  ((∀ v ∈ ops, isFinite v) → ∃ r, isExact r x y z i ∧ (r.isZero = true → r.neg = zeroSign mode x y z i) ∧ out = encodeFloat f r mode rnd)

/-- R195, R197, R206, R211: VADD, VSUB, VMUL and VFMA on float lanes complete whenever the checks of issue pass. A lane whose
operands are all finite holds their exact sum, difference, product or fused product and sum, rounded once into the lane format
in the mode of FPCTL.RM, a zero with the sign that R211 gives it; infinities give an infinity, or the canonical NaN where the operation is invalid; a
NaN operand gives the canonical NaN with the sign of the first NaN of va, vb, vd (VFMA
only). The flags are those of all lanes together. LFSR_STATE steps once for every lane under RS. -/
def VectorFloatArithmetic : Prop :=
  ∀ (i : Instr) (s : State) (d a b ty : Nat), floatForm i = some (d, a, b, ty) → i.WellFormed → isFloatT ty = true →
    guardTrap i s = none →
    ∃ (t : State) (p : VPending) (v : Vec) (out : Nat → Nat × Nat), exec i s = .next t ∧
      vectorIssued s t p (match i with | .vmul _ _ _ _ => 4 | .vfma _ _ _ _ => 4 | _ => 2) (1024 / laneBits ty) ∧
      p.vd = some (d, v) ∧ p.gd = none ∧ p.qd = none ∧
      (∀ k, k < 1024 / laneBits ty →
        laneIs (laneFloat ty) (floatMode s) (randomOf s (1024 / laneBits ty) k) (laneVal ty k (vGet (curCtx s) a))
          (laneVal ty k (vGet (curCtx s) b)) (laneVal ty k (vGet (curCtx s) d)) i (out k) ∧
        (vlane (laneBits ty) k v).toNat = (out k).1 % 2 ^ laneBits ty) ∧
      ∀ j, p.flags.testBit j = true ↔ ∃ k, k < 1024 / laneBits ty ∧ (out k).2.testBit j = true

/-- R211: VMIN and VMAX on float lanes: of two numbers the lesser or greater encoding, −0 below +0, with no flag where no lane
has a NaN; a NaN operand gives the canonical NaN, and INVALID is set where a lane has a signalling one. VABS clears and VNEG inverts the sign bit of every lane, with no flag. -/
def VectorFloatMinMaxSign : Prop :=
  ∀ (s : State) (d a b ty : Nat), isFloatT ty = true →
    let w := laneBits ty
    (∀ i, (i = .vmin d a b ty ∨ i = .vmax d a b ty) → i.WellFormed → guardTrap i s = none →
      ∃ t p v, exec i s = .next t ∧ vectorIssued s t p 2 0 ∧ p.vd = some (d, v) ∧
        (p.flags = 0 ∨ p.flags = 1) ∧
        (p.flags = 1 ↔ ∃ k, k < 1024 / w ∧ ((laneVal ty k (vGet (curCtx s) a)).isSnan = true ∨ (laneVal ty k (vGet (curCtx s) b)).isSnan = true)) ∧
        ∀ k, k < 1024 / w →
          let x := laneVal ty k (vGet (curCtx s) a)
          let y := laneVal ty k (vGet (curCtx s) b)
          let less := numLt x y = true ∨ numLt y x = false ∧ x.neg = true
          (x.isNan = true → (vlane w k v).toNat = packNan (laneFloat ty) x.neg % 2 ^ w) ∧
          (x.isNan = false → y.isNan = true → (vlane w k v).toNat = packNan (laneFloat ty) y.neg % 2 ^ w) ∧
          (x.isNan = false → y.isNan = false →
            ((less ↔ i = .vmin d a b ty) → vlane w k v = vlane w k (vGet (curCtx s) a)) ∧
            (¬(less ↔ i = .vmin d a b ty) → vlane w k v = vlane w k (vGet (curCtx s) b)))) ∧
    ((Instr.vabs d a ty).WellFormed → guardTrap (.vabs d a ty) s = none →
      ∃ t p v, exec (.vabs d a ty) s = .next t ∧ vectorIssued s t p 2 0 ∧ p.vd = some (d, v) ∧ p.flags = 0 ∧
        ∀ k, k < 1024 / w → ∀ j, j < w → (vlane w k v).getLsbD j =
          (decide (j ≠ w - 1) && (vlane w k (vGet (curCtx s) a)).getLsbD j)) ∧
    ((Instr.vneg d a ty).WellFormed → guardTrap (.vneg d a ty) s = none →
      ∃ t p v, exec (.vneg d a ty) s = .next t ∧ vectorIssued s t p 2 0 ∧ p.vd = some (d, v) ∧ p.flags = 0 ∧
        ∀ k, k < 1024 / w → ∀ j, j < w → (vlane w k v).getLsbD j =
          ((vlane w k (vGet (curCtx s) a)).getLsbD j != decide (j = w - 1)))

/-- A comparison's operands: destination mask, registers, type, and 0 for eq, 1 for lt, 2 for le. -/
def compareForm : Instr → Option (Nat × Nat × Nat × Nat × Nat)
  | .vcmpEq d a b t => some (d, a, b, t, 0)
  | .vcmpLt d a b t => some (d, a, b, t, 1)
  | .vcmpLe d a b t => some (d, a, b, t, 2)
  | _ => none

/-- R205, R215: VCMP_EQ, VCMP_LT and VCMP_LE complete whenever the checks of issue pass: all the mask bits of a lane in qd hold
its outcome, by the lane's own type; a float comparison with a NaN is false, and it sets INVALID for a NaN under lt and le
and for a signalling NaN under eq, and no other flag. -/
def VectorCompare : Prop :=
  ∀ (i : Instr) (s : State) (d a b ty c : Nat), compareForm i = some (d, a, b, ty, c) → i.WellFormed → guardTrap i s = none →
    let w := laneBits ty
    ∃ t p q, exec i s = .next t ∧ vectorIssued s t p 2 0 ∧ p.qd = some (d, q) ∧ p.vd = none ∧ p.gd = none ∧
      (p.flags = 0 ∨ p.flags = 1) ∧
      (p.flags = 1 ↔ isFloatT ty = true ∧ ∃ k, k < 1024 / w ∧ ∃ v, (v = vGet (curCtx s) a ∨ v = vGet (curCtx s) b) ∧
        ((laneVal ty k v).isSnan = true ∨ c ≠ 0 ∧ (laneVal ty k v).isNan = true)) ∧
      ∀ k, k < 1024 / w → ∀ j, j < w / 8 →
        let x := vlane w k (vGet (curCtx s) a)
        let y := vlane w k (vGet (curCtx s) b)
        let fx := laneVal ty k (vGet (curCtx s) a)
        let fy := laneVal ty k (vGet (curCtx s) b)
        (isNatT ty = true → q.getLsbD (w / 8 * k + j) =
          (if c = 0 then decide (x = y) else if c = 1 then decide (x.toNat < y.toNat) else decide (x.toNat ≤ y.toNat))) ∧
        (isSignedT ty = true → q.getLsbD (w / 8 * k + j) =
          (if c = 0 then decide (x = y) else if c = 1 then decide (x.toInt < y.toInt) else decide (x.toInt ≤ y.toInt))) ∧
        (isFloatT ty = true →
          (fx.isNan = true ∨ fy.isNan = true → q.getLsbD (w / 8 * k + j) = false) ∧
          (fx.isNan = false → fy.isNan = false → q.getLsbD (w / 8 * k + j) =
            (if c = 0 then !numLt fx fy && !numLt fy fx else if c = 1 then numLt fx fy else !numLt fy fx)))

end Sys2Proof.Claims

/-- Float vector arithmetic, minima, signs and comparisons: `VectorFloatArithmetic`, `VectorFloatMinMaxSign`, `VectorCompare`, together. -/
def Obligations.VectorFloats : Prop :=
  Sys2Proof.Claims.VectorFloatArithmetic ∧ Sys2Proof.Claims.VectorFloatMinMaxSign ∧ Sys2Proof.Claims.VectorCompare

namespace Sys2Proof.Claims

/-- R204, R205, R214, R216, R220: VAND, VOR, VXOR, VSEL, VPERM, VEXT, VINS and VBCAST complete whenever the checks of issue pass, with
no flag and the result of their rows in flight: all 1,024 bits combined; a lane of va where the mask enables it and of vd
elsewhere; the lane of va that vb names, or 0; the lane that gb names, zero-extended, or 0; vd with one lane replaced, or
unchanged; the low bits of ga in every lane. -/
def VectorBitsAndMoves : Prop :=
  ∀ (s : State) (d a b c : Nat), c < 3 →
    let w := 32 / 2 ^ c
    let A := vGet (curCtx s) a
    let B := vGet (curCtx s) b
    let D := vGet (curCtx s) d
    (∀ i op, (i = .vand d a b ∧ op = Bool.and ∨ i = .vor d a b ∧ op = Bool.or ∨ i = .vxor d a b ∧ op = Bool.xor) →
      guardTrap i s = none → ∃ t p v, exec i s = .next t ∧ vectorIssued s t p 2 0 ∧ p.vd = some (d, v) ∧ p.flags = 0 ∧
        ∀ k, k < 1024 → v.getLsbD k = op (A.getLsbD k) (B.getLsbD k)) ∧
    (guardTrap (.vsel d a b c) s = none → ∃ t p v, exec (.vsel d a b c) s = .next t ∧ vectorIssued s t p 2 0 ∧
      p.vd = some (d, v) ∧ p.flags = 0 ∧
      ∀ k, k < 1024 / w → vlane w k v = if (qGet (curCtx s) b).getLsbD (w / 8 * k) then vlane w k A else vlane w k D) ∧
    (guardTrap (.vperm d a b c) s = none → ∃ t p v, exec (.vperm d a b c) s = .next t ∧ vectorIssued s t p 2 0 ∧
      p.vd = some (d, v) ∧ p.flags = 0 ∧
      ∀ k, k < 1024 / w → vlane w k v =
        if (vlane w k B).toNat < 1024 / w then vlane w (vlane w k B).toNat A else 0) ∧
    (guardTrap (.vext d a b c) s = none → ∃ t p v, exec (.vext d a b c) s = .next t ∧ vectorIssued s t p 3 0 ∧
      p.gd = some (d, v) ∧ p.vd = none ∧ p.flags = 0 ∧
      v.toNat = if (readG s b).toNat < 1024 / w then (vlane w (readG s b).toNat A).toNat else 0) ∧
    (guardTrap (.vins d a b c) s = none → ∃ t p v, exec (.vins d a b c) s = .next t ∧ vectorIssued s t p 2 0 ∧
      p.vd = some (d, v) ∧ p.flags = 0 ∧
      ∀ k, k < 1024 / w → vlane w k v = if k = (readG s b).toNat then (readG s a).setWidth w else vlane w k D) ∧
    (guardTrap (.vbcast d a c) s = none → ∃ t p v, exec (.vbcast d a c) s = .next t ∧ vectorIssued s t p 2 0 ∧
      p.vd = some (d, v) ∧ p.flags = 0 ∧ ∀ k, k < 1024 / w → vlane w k v = (readG s a).setWidth w)

end Sys2Proof.Claims

/-- Integer vector lanes, bitwise operations and moves: `VectorIntegerLanes`, `VectorBitsAndMoves`, together. -/
def Obligations.VectorLanesAndBits : Prop :=
  Sys2Proof.Claims.VectorIntegerLanes ∧ Sys2Proof.Claims.VectorBitsAndMoves

namespace Sys2Proof.Claims

/-- R218, R219: VSUM and VRMAX on integer lanes: the exact sum of all lanes in bits 63 to 0, or the greatest lane by its type in
lane 0, all other bits zero and no flag. -/
def VectorIntReductions : Prop :=
  ∀ (s : State) (d a ty : Nat), isIntT ty = true →
    let w := laneBits ty
    let A := vGet (curCtx s) a
    let val := fun k => if isSignedT ty then (vlane w k A).toInt else ((vlane w k A).toNat : Int)
    ((Instr.vsum d a ty).WellFormed → guardTrap (.vsum d a ty) s = none →
      ∃ t p v, exec (.vsum d a ty) s = .next t ∧ vectorIssued s t p 6 0 ∧ p.vd = some (d, v) ∧ p.flags = 0 ∧
        v.toNat < 2 ^ 64 ∧ (v.toNat : Int) = ((List.range (1024 / w)).map val).sum % 2 ^ 64) ∧
    ((Instr.vrmax d a ty).WellFormed → guardTrap (.vrmax d a ty) s = none →
      ∃ t p v, exec (.vrmax d a ty) s = .next t ∧ vectorIssued s t p 6 0 ∧ p.vd = some (d, v) ∧ p.flags = 0 ∧
        ∃ k, k < 1024 / w ∧ v.toNat = (vlane w k A).toNat ∧ ∀ j, j < 1024 / w → val j ≤ val k)

/-- The exact sum of a list of finite values, in units of 2^e0. -/
def sumUnits (e0 : Int) (xs : List Machine.Num) : Int := (xs.map (inUnits e0)).sum

/-- R218, R219: VSUM on float lanes that are all finite rounds their exact sum once into FP32, lane order being of no account, with the flags of that
rounding, a zero sum being +0 but of lanes that are all −0; infinities of one sign give it, of both the canonical NaN with INVALID;
and VRMAX leaves in lane 0 a lane that no other exceeds; a NaN lane gives the canonical NaN with the sign of the lowest one. All
other bits of vd are zero. -/
def VectorFloatReductions : Prop :=
  ∀ (s : State) (d a ty : Nat), isFloatT ty = true →
    let w := laneBits ty
    let A := vGet (curCtx s) a
    let xs := (List.range (1024 / w)).map fun k => laneVal ty k A
    ((Instr.vsum d a ty).WellFormed → guardTrap (.vsum d a ty) s = none →
      ∃ t p v, exec (.vsum d a ty) s = .next t ∧ vectorIssued s t p 6 1 ∧ p.vd = some (d, v) ∧
        ((∀ x ∈ xs, isFinite x) → ∃ r e0, isFinite r ∧ e0 ≤ expo r ∧ (∀ x ∈ xs, e0 ≤ expo x) ∧ inUnits e0 r = sumUnits e0 xs ∧
          (r.isZero = true → r.neg = xs.all Machine.Num.neg) ∧ p.flags = (encodeFloat fp32 r (floatMode s) (randomOf s 1 0)).2 ∧
          v = BitVec.ofNat 1024 (encodeFloat fp32 r (floatMode s) (randomOf s 1 0)).1) ∧
        (∀ x, xs.find? Machine.Num.isNan = some x → v = BitVec.ofNat 1024 (packNan fp32 x.neg) ∧
          p.flags = if xs.any Machine.Num.isSnan then 1 else 0) ∧
        ((∀ x ∈ xs, x.isNan = false) → ∀ n, (∃ x ∈ xs, x.isInf = true ∧ x.neg = n) →
          ((∃ x ∈ xs, x.isInf = true ∧ x.neg ≠ n) → v = BitVec.ofNat 1024 (packNan fp32 false) ∧ p.flags = 1) ∧
          ((∀ x ∈ xs, x.isInf = true → x.neg = n) → v = BitVec.ofNat 1024 (packInf fp32 n) ∧ p.flags = 0))) ∧
    ((Instr.vrmax d a ty).WellFormed → guardTrap (.vrmax d a ty) s = none →
      ∃ t p v, exec (.vrmax d a ty) s = .next t ∧ vectorIssued s t p 6 0 ∧ p.vd = some (d, v) ∧
        ((∀ x ∈ xs, x.isNan = false) → p.flags = 0 ∧ ∃ k, k < 1024 / w ∧ v.toNat = (vlane w k A).toNat ∧
          ∀ x ∈ xs, numLt (laneVal ty k A) x = false) ∧
        (∀ x, xs.find? Machine.Num.isNan = some x → v = BitVec.ofNat 1024 (packNan (laneFloat ty) x.neg)))

end Sys2Proof.Claims

/-- VSUM and VRMAX over integer and float lanes: `VectorIntReductions`, `VectorFloatReductions`, together. -/
def Obligations.VectorReductions : Prop :=
  Sys2Proof.Claims.VectorIntReductions ∧ Sys2Proof.Claims.VectorFloatReductions

namespace Sys2Proof.Claims

/-- The function and operands of a transcendental instruction. -/
def functionForm : Instr → Option (TFun × Nat × Nat × Nat)
  | .vrcp d a t => some (.rcp, d, a, t)
  | .vrsq d a t => some (.rsq, d, a, t)
  | .vexp2 d a t => some (.exp2, d, a, t)
  | .vlog2 d a t => some (.log2, d, a, t)
  | .vtanh d a t => some (.tanh, d, a, t)
  | _ => none

/-- R195, R206, R217: VRCP, VRSQ, VEXP2, VLOG2 and VTANH complete whenever the checks of issue pass: 12 cycles later at the earliest
vd holds in every lane the function of the lane of va, rounded in the mode of FPCTL.RM into the lane format, the flags being
those of the lanes together; they hold the transcendental unit. -/
def VectorFunctions : Prop :=
  ∀ (i : Instr) (s : State) (fn : TFun) (d a ty : Nat), functionForm i = some (fn, d, a, ty) → i.WellFormed →
    guardTrap i s = none →
    let w := laneBits ty
    let out := fun k => transKind fn (laneFloat ty) (laneVal ty k (vGet (curCtx s) a)) (floatMode s) (randomOf s (1024 / w) k)
    ∃ t p v, exec i s = .next t ∧ vectorIssued s t p 12 (1024 / w) ∧ p.vd = some (d, v) ∧ p.trans = true ∧
      (∀ k, k < 1024 / w → (vlane w k v).toNat = (out k).1 % 2 ^ w) ∧
      ∀ j, p.flags.testBit j = true ↔ ∃ k, k < 1024 / w ∧ (out k).2.testBit j = true

/-- A float encoding of 0 and of 1, by sign. -/
def zeroBits (f : FloatFmt) (neg : Bool) : Nat := if neg then 2 ^ (f.eb + f.mb) else 0
def oneBits (f : FloatFmt) (neg : Bool) : Nat := zeroBits f neg + (2 ^ (f.eb - 1) - 1) * 2 ^ f.mb
/-- An encoding of a finite number of a sign whose units in the last place u and magnitude m of them lie within err of those of the exact value q u, q
being told by what lies below it. -/
def within (f : FloatFmt) (bits : Nat) (neg : Bool) (err : Rat) (below above : Rat → Prop) : Prop :=
  ∃ (m : Nat) (e : Int), decodeFloat f bits = .fin neg m e ∧ ¬above (((m : Rat) - err) * 2 ^ e) ∧ ¬below (((m : Rat) + err) * 2 ^ e)

/-- q lies below, and above, 1/√x. -/
def lessRsq (x q : Rat) : Prop := q < 0 ∨ q ^ 2 * x < 1
def moreRsq (x q : Rat) : Prop := 0 < q ∧ 1 < q ^ 2 * x

/-- R198, R217: the values of VRCP, VRSQ, VEXP2, VLOG2 and VTANH in a lane. Of NaNs, infinities, zeros and negative numbers they are those of R217's table, with its flags.
VRCP and VRSQ of any other number that does not overflow lie within half a unit in the last place of 1/x and 1/√x under RNE and RNA, and within one under the other
modes, and are inexact exactly where they differ from it. VEXP2 of an integer and VLOG2 of a power of two are exact, VLOG2 of 1 being +0 (the values of VEXP2, VLOG2 and VTANH
at other numbers are not stated here). -/
def FunctionValues : Prop :=
  ∀ (f : FloatFmt) (mode r : Nat), f ∈ [fp32, bf16, fp16] → mode < 6 →
    let is := fun (fn : TFun) (x : Machine.Num) (bits flags : Nat) => transKind fn f x mode r = (bits, flags)
    (∀ fn n s, is fn (.nan n s) (packNan f n) (if s then 1 else 0)) ∧
    (∀ n, is .rcp (.inf n) (zeroBits f n) 0 ∧ is .tanh (.inf n) (oneBits f n) 0) ∧
    is .rsq (.inf false) (zeroBits f false) 0 ∧ is .exp2 (.inf false) (packInf f false) 0 ∧ is .log2 (.inf false) (packInf f false) 0 ∧
    is .rsq (.inf true) (packNan f false) 1 ∧ is .exp2 (.inf true) (zeroBits f false) 0 ∧ is .log2 (.inf true) (packNan f false) 1 ∧
    (∀ n e, is .rcp (.fin n 0 e) (packInf f n) 2 ∧ is .rsq (.fin n 0 e) (packInf f n) 2 ∧ is .exp2 (.fin n 0 e) (oneBits f false) 0 ∧
      is .log2 (.fin n 0 e) (packInf f true) 2 ∧ is .tanh (.fin n 0 e) (zeroBits f n) 0) ∧
    ∀ (m : Nat) (e : Int), 0 < m →
      is .rsq (.fin true m e) (packNan f false) 1 ∧ is .log2 (.fin true m e) (packNan f false) 1 ∧
      (∀ n out, out = transKind .rcp f (.fin n m e) mode r →
        out.2.testBit 1 = false → ∀ err : Rat, (if mode = 0 ∨ mode = 4 then err = 1 / 2 else 1 < err) →
          within f out.1 n err (fun q => q * ((m : Rat) * 2 ^ e) < 1) (fun q => 1 < q * ((m : Rat) * 2 ^ e)) ∧
          (out.2.testBit 3 = false ↔ within f out.1 n 0 (fun q => q * ((m : Rat) * 2 ^ e) < 1) fun q => 1 < q * ((m : Rat) * 2 ^ e))) ∧
      (∀ out, out = transKind .rsq f (.fin false m e) mode r →
        out.2.testBit 1 = false → ∀ err : Rat, (if mode = 0 ∨ mode = 4 then err = 1 / 2 else 1 < err) →
          within f out.1 false err (lessRsq (m * 2 ^ e)) (moreRsq (m * 2 ^ e)) ∧
          (out.2.testBit 3 = false ↔ within f out.1 false 0 (lessRsq (m * 2 ^ e)) (moreRsq (m * 2 ^ e)))) ∧
      (∀ n, m < 4096 → transKind .exp2 f (.fin n m 0) mode r = encodeFloat f (.fin false 1 (if n then -(m : Int) else m)) mode r) ∧
      is .log2 (.fin false 1 0) (zeroBits f false) 0 ∧
      ∀ k : Nat, transKind .log2 f (.fin false (2 ^ k) e) mode r =
        encodeFloat f (.fin (decide ((k : Int) + e < 0)) ((k : Int) + e).natAbs 0) mode r

/-- A register with n bits from bit lo replaced by the low bits of x. -/
def placed (old : Vec) (lo n x : Nat) : Nat := old.toNat % 2 ^ lo + x % 2 ^ n * 2 ^ lo + old.toNat / 2 ^ (lo + n) * 2 ^ (lo + n)
/-- The kinds, capacities and operands of a conversion: destination and source. -/
def convertForm : Instr → Option (Kind × Kind × Nat × Nat × Nat × Nat × Nat)
  | .vcvt d a f sf p => some (kindOfFmt f, kindOfFmt sf, capacity f, capacity sf, d, a, p)
  | .vcvtLane d a f sf p => some (kindOfLane f, kindOfLane sf, laneCount f, laneCount sf, d, a, p)
  | _ => none

/-- R222, R223: VCVT in both forms completes whenever the checks of issue pass. With n the lesser capacity, element k of va (of part
P where the source is the narrower) is converted once into element k of vd (of part P where the destination is the
narrower), with the random bits of its place; a narrower destination keeps every other bit of vd, and otherwise every bit
above the last element is zero. -/
def VectorConvert : Prop :=
  ∀ (i : Instr) (s : State) (dk sk : Kind) (cd cs d a part : Nat), convertForm i = some (dk, sk, cd, cs, d, a, part) →
    i.WellFormed → guardTrap i s = none →
    let n := Nat.min cd cs
    let src := fun k => elemAt (vGet (curCtx s) a).toNat sk.width (if n < cs then part * n + k else k)
    let new := packElems dk.width ((List.range n).map fun k =>
      (convertKind (tablesOf s) dk sk (src k) (roundMode s) (randomOf s n k)).1)
    ∃ t p v, exec i s = .next t ∧ vectorIssued s t p 4 n ∧ p.vd = some (d, v) ∧
      v.toNat = if n < cd then placed (vGet (curCtx s) d) (dk.width * (part * n)) (dk.width * n) new else new

/-- R224, R225: VQNT and VDQNT complete whenever the checks of issue pass: VQNT puts the images of its blocks, in order, at byte
P·k·z of vd and keeps every other byte; VDQNT decodes the images at that byte of va and rounds every element into its lane of
vd. -/
def VectorQuantise : Prop :=
  ∀ (s : State) (d a f sf part : Nat),
    ((Instr.vqnt d a f sf part).WellFormed → guardTrap (.vqnt d a f sf part) s = none →
      let n := blockElems f
      let k := capacity sf / n
      let block := fun b => encodeBlock f ((List.range n).map fun j => laneVal sf (n * b + j) (vGet (curCtx s) a)) (roundMode s)
        ((List.range n).map fun j => randomOf s (capacity sf) (n * b + j))
      ∃ t p v, exec (.vqnt d a f sf part) s = .next t ∧ vectorIssued s t p 6 (capacity sf) ∧ p.vd = some (d, v) ∧
        v.toNat = placed (vGet (curCtx s) d) (8 * (part * (k * imageBytes f))) (8 * (k * imageBytes f))
          (packElems (8 * imageBytes f) ((List.range k).map fun b => (block b).1))) ∧
    ((Instr.vdqnt d a f sf part).WellFormed → guardTrap (.vdqnt d a f sf part) s = none →
      let k := capacity f / blockElems sf
      let z := 8 * imageBytes sf
      let xs := ((List.range k).map fun b => decodeBlock sf ((vGet (curCtx s) a).toNat / 2 ^ (part * k * z + z * b) % 2 ^ z)).flatten
      ∃ t p v, exec (.vdqnt d a f sf part) s = .next t ∧ vectorIssued s t p 4 (capacity f) ∧ p.vd = some (d, v) ∧
        ∀ j, j < capacity f → ∀ x, xs[j]? = some x →
          (vlane (fmtBits f) j v).toNat = (encodeFloat (laneFloat f) x (floatMode s) (randomOf s (capacity f) j)).1 % 2 ^ fmtBits f)

end Sys2Proof.Claims

/-- Transcendental functions, conversion, quantisation and dequantisation: `VectorFunctions`, `FunctionValues`, `VectorConvert`, `VectorQuantise`, together. -/
def Obligations.VectorFunctionsAndFormats : Prop :=
  Sys2Proof.Claims.VectorFunctions ∧ Sys2Proof.Claims.FunctionValues ∧ Sys2Proof.Claims.VectorConvert ∧ Sys2Proof.Claims.VectorQuantise

/-- R201, R206: VECTOR_COMPLETION of a result of a strand in a slot whose latency has passed: it leaves those in flight.
Where it does not trap its vector, mask and general registers hold its values and FPFLAGS has its flags besides those it had;
where it traps FP_TRAP none of them is written, FPFLAGS has the flags, LFSR_STATE stands as before the instruction, and a trap of
cause 0x09 at the instruction's address is recorded for a strand that is READY; one that waits or is being saved keeps it (log 145). No
memory changes. -/
def Obligations.VectorResultWritten : Prop :=
  ∀ (s : State) (sid n k : Nat) (p : VPending), s.arg = [sid, n, 0] → (getSite s sid).core.vectors[n]? = some p →
    p.ready ≤ s.time → p.key = slotKey (slotOf (getSite s sid).core k) → reaches s sid p.key k 0 →
    ∃ t, exec .vectorCompletion s = .next t ∧
      (getSite t sid).core.vectors = (getSite s sid).core.vectors.eraseIdx n ∧ sameMemory s t ∧
      (let x := (slotOf (getSite s sid).core k).ctx
       let y := (slotOf (getSite t sid).core k).ctx
       y.fpflags = (x.fpflags ||| BitVec.ofNat 64 p.flags) ∧
       (p.traps = false →
         (∀ d, vGet y d = match p.vd with | some (e, v) => if d = e then v else vGet x d | none => vGet x d) ∧
         (∀ d, 0 < d → qGet y d = match p.qd with | some (e, v) => if d = e then v else qGet x d | none => qGet x d) ∧
         (∀ e v, p.gd = some (e, v) → gMapped x e = true → readG (seenBy t sid k) e = if e = 0 then 0 else v) ∧
         (p.gd = none → ∀ r, readG (seenBy t sid k) r = readG (seenBy s sid k) r) ∧ y.lfsr = x.lfsr) ∧
       (p.traps = true →
         (∀ d, vGet y d = vGet x d) ∧ (∀ d, qGet y d = qGet x d) ∧
         (∀ r, readG (seenBy t sid k) r = readG (seenBy s sid k) r) ∧ y.lfsr = p.lfsr.getD x.lfsr ∧
         (standing s sid k → (slotOf (getSite t sid).core k).st = .trapped ∧
           ∃ r : TrapRec, (getSite t sid).core.traps = (getSite s sid).core.traps ++ [r] ∧ r.slot = k ∧
             r.val = { cause := 0x09, pc := p.pc, info := p.info, deferred := false }) ∧
         ((slotOf (getSite s sid).core k).st = .waiting → (getSite t sid).core.traps = (getSite s sid).core.traps ∧
           (strandOf (getSite t sid).core p.key).trapOnResume = some { cause := 0x09, pc := p.pc, info := p.info, deferred := false })))

namespace Sys2Proof.Claims

/-- R194: rounding a magnitude num / den to an integer: the neighbour taken is exact where there is nothing to round; else RNE
takes the nearer and the even one of two equally near, RNA the nearer and the greater of two, RTZ the lesser magnitude, RDN
and RUP the lesser and the greater value, and RS the greater magnitude exactly when the fraction in units of 2^-24 and the
random bits reach one. -/
def RoundingModes : Prop :=
  ∀ (neg : Bool) (num den r : Nat), 0 < den →
    let u := fun m => ((roundMag neg num den m r).1 : Int) * den - num
    (∀ m, m < 6 → -(den : Int) < u m ∧ u m < den ∧ ((roundMag neg num den m r).2 = true ↔ u m ≠ 0) ∧ (den ∣ num → u m = 0)) ∧
    2 * (u 0).natAbs ≤ den ∧ (2 * (u 0).natAbs = den → (roundMag neg num den 0 r).1 % 2 = 0) ∧
    2 * (u 4).natAbs ≤ den ∧ (2 * (u 4).natAbs = den → 0 < u 4) ∧
    u 1 ≤ 0 ∧ (neg = true → 0 ≤ u 2) ∧ (neg = false → u 2 ≤ 0) ∧ (neg = true → u 3 ≤ 0) ∧ (neg = false → 0 ≤ u 3) ∧
    (¬den ∣ num → (0 < u 5 ↔ 2 ^ 24 ≤ num % den * 2 ^ 24 / den + r))

/-- R180 to R182, R197: decoding an FP32, BF16 or FP16 encoding that is no NaN and rounding its value into the same format gives
the encoding back, in every rounding mode and with no flag. -/
def FloatRoundTrip : Prop :=
  ∀ (f : FloatFmt) (x mode r : Nat), f ∈ [fp32, bf16, fp16] → x < 2 ^ f.width → (decodeFloat f x).isNan = false →
    encodeFloat f (decodeFloat f x) mode r = (x, 0)

end Sys2Proof.Claims

/-- Rounding modes, and floats that decode and encode to themselves: `RoundingModes`, `FloatRoundTrip`, together. -/
def Obligations.FloatFormats : Prop :=
  Sys2Proof.Claims.RoundingModes ∧ Sys2Proof.Claims.FloatRoundTrip

/-! ### System registers (R7, R393, R396) -/

namespace Sys2Proof.Claims

/-- What a system register reads at a core: a context's own registers, the window onto the presented strand (0 where none is
presented), else the site's (R393). -/
def coreReads (s : State) (n : Nat) : Nat :=
  match n with
  | 0x001 => (curCtx s).fpflags.toNat
  | 0x002 => (curCtx s).fpctl.toNat
  | 0x003 => (curCtx s).lfsr.toNat
  | _ =>
    if 0x010 ≤ n ∧ n ≤ 0x019 then (mGet (curCtx s) (n - 0x010)).toNat
    else if 0x100 ≤ n ∧ n ≤ 0x13F then
      match actSlot s with
      | some k => (readG (seenBy s (curSid s) k) (n - 0x100)).toNat
      | none => 0
    else if 0x140 ≤ n ∧ n ≤ 0x15F then
      match actSlot s with
      | some k => strandRead (curSite s).core k n
      | none => 0
    else readReg (curSite s) n
/-- An access that goes to its register at once: not one that waits for a vector instruction, nor one of a management core through
a window or to a port, nor one that meets a bad register of the presented strand. -/
def goesAtOnce (s : State) (n : Nat) : Prop :=
  sysWaits n s = false ∧ windowParity s n = none ∧ ∀ k, s.cur = .mgmt k → n < 0x800 ∧ isPortReg n = false

/-- R393, R396: SYSR whose checks pass, of a register that can be read at once, completes: gd holds the register's value as it
stands when the instruction issues, and nothing else changes. On a management core the value is that of its own or its module's
register. -/
def SystemRegisterRead : Prop :=
  ∀ (s : State) (d n : Nat), guardTrap (.sysr d n) s = none → nameable s d → goesAtOnce s n →
    ∃ t v, exec (.sysr d n) s = .next t ∧ wrote s t d (BitVec.ofNat 64 v) 4 ∧
      ((∀ k, s.cur ≠ .mgmt k) → v = coreReads s n) ∧ (∀ k, s.cur = .mgmt k → v = mgmtRead k n s)

/-- A bit of a register after SYSW (1), SYSSET (2) or SYSCLR (3) of v, from its RW bits and its bit before (R7, R396). -/
def newBit (op mask old v k : Nat) : Bool :=
  if mask.testBit k then (if op = 1 then v.testBit k else if op = 2 then old.testBit k || v.testBit k else old.testBit k && !v.testBit k)
  else old.testBit k
/-- The registers of a site that have no rule of their own for a write. -/
def plainReg (n : Nat) : Prop :=
  (siteRegAccess n).isSome ∧ isContextReg n = false ∨ n ∈ [0x020, 0x021, 0x022, 0x023, 0x024]
/-- The site's registers that do. -/
def ownRule : List Nat :=
  [0x041, 0x042, 0x043, 0x045, 0x046, 0x051, 0x055, 0x059, 0x05B, 0x060, 0x063, 0x064, 0x065, 0x066, 0x071, 0x072, 0x082, 0x020]
/-- From s to t nothing of any site changes but the agent's program counter and fetch lines and register n of a site. -/
def onlyRegister (s t : State) (sid n : Nat) : Prop :=
  { t with sites := [] } = { s with sites := [] } ∧ (∀ m, m ≠ sid → getSite t m = getSite s m) ∧
  (∀ m, m ≠ n → reg (getSite t sid) m = reg (getSite s sid) m) ∧ (getSite t sid).router = (getSite s sid).router ∧
  (getSite t sid).id = (getSite s sid).id ∧ (getSite t sid).life = (getSite s sid).life ∧ (getSite t sid).dead = (getSite s sid).dead
/-- The instruction of an operation: 1 SYSW, 2 SYSSET, 3 SYSCLR. -/
def sysInstr (op d n : Nat) : Instr := if op = 1 then .sysw d n else if op = 2 then .sysset d n else .sysclr d n

/-- R7, R396: SYSW, SYSSET and SYSCLR of a site's register without a rule of its own, by a strand or in S, complete: of its RW bits
SYSW writes all, SYSSET sets and SYSCLR clears those that are 1 in gd, every other bit and register stays, and the program
counter moves on. -/
def SiteRegisterWritten : Prop :=
  ∀ (s : State) (op d n : Nat), op ∈ [1, 2, 3] → (∀ k, s.cur ≠ .mgmt k) → plainReg n → n ∉ ownRule →
    guardTrap (sysInstr op d n) s = none → goesAtOnce s n →
    ∃ t, exec (sysInstr op d n) s = .next t ∧ onlyRegister s t (curSid s) n ∧ curPc t = curPc s + 4 ∧
      (curSite t).core = (curSite (advance s 4)).core ∧ (∀ r, readG t r = readG s r) ∧ sameMemory s t ∧
      ∀ k, k < 64 → (reg (getSite t (curSid s)) n).testBit k =
        newBit op (rwMask n) (reg (getSite s (curSid s)) n) (readG s d).toNat k

/-- R199, R200, R279, R396: SYSW of FPFLAGS, FPCTL, LFSR_STATE or MBUILDn by any agent that may name it completes once no vector
instruction of its own is in progress: FPFLAGS keeps bits 5 to 0, FPCTL its rounding mode (7 is stored as 0) and trap enables,
LFSR_STATE bits 31 to 0, MBUILDn all 64 bits; no general register and no memory changes. -/
def ContextRegisterWritten : Prop :=
  ∀ (s : State) (d n : Nat), guardTrap (.sysw d n) s = none → sysWaits n s = false → isCtxNumber n = true →
    ∃ t, exec (.sysw d n) s = .next t ∧ curPc t = curPc s + 4 ∧ (∀ r, readG t r = readG s r) ∧ sameMemory s t ∧
      (curCtx t).fpflags = (if n = 0x001 then BitVec.ofNat 64 ((readG s d).toNat % 2 ^ 6) else (curCtx s).fpflags) ∧
      (curCtx t).fpctl = (if n = 0x002 then
          BitVec.ofNat 64 ((if (readG s d).toNat % 8 = 7 then 0 else (readG s d).toNat % 8) + (readG s d).toNat / 16 % 64 * 16)
        else (curCtx s).fpctl) ∧
      (curCtx t).lfsr = (if n = 0x003 then BitVec.ofNat 64 ((readG s d).toNat % 2 ^ 32) else (curCtx s).lfsr) ∧
      ∀ m, mGet (curCtx t) m = (if 0x010 ≤ n ∧ m = n - 0x010 then readG s d else mGet (curCtx s) m)

end Sys2Proof.Claims

/-- SYSW, SYSSET and SYSCLR of a site's and of a context's registers: `SiteRegisterWritten`, `ContextRegisterWritten`, together. -/
def Obligations.SystemRegistersWritten : Prop :=
  Sys2Proof.Claims.SiteRegisterWritten ∧ Sys2Proof.Claims.ContextRegisterWritten

namespace Sys2Proof.Claims

/-- R207, R391, R393: an access to FPFLAGS, FPCTL or LFSR_STATE does nothing while a vector instruction of the agent is in
progress, and issues again; the register instructions of a number that the level at hand may not use trap PRIVILEGE, and of one
that is not in the map ILLEGAL_INSTRUCTION; on a management core a number of the remote window makes it wait for the answer. -/
def SystemRegisterWaitsAndTraps : Prop :=
  ∀ (s : State) (d n : Nat) (i : Instr), (i = .sysr d n ∨ i = .sysw d n ∨ i = .sysset d n ∨ i = .sysclr d n) →
    (guardTrap i s = none → sysWaits n s = true → exec i s = .next s) ∧
    (agentStands s → sysFault n (match i with | .sysr _ _ => false | _ => true) s = some true →
      ∃ t, exec i s = .next t ∧ preciseTrap s t 0x01 (wordsInfo i)) ∧
    (agentStands s → sysFault n (match i with | .sysr _ _ => false | _ => true) s = some false →
      ∃ t, exec i s = .next t ∧ preciseTrap s t 0x02 (wordsInfo i)) ∧
    (∀ k, s.cur = .mgmt k → guardTrap i s = none → 0x800 ≤ n →
      ∃ t, exec i s = .next t ∧ curPc t = curPc s ∧
        (getMgmt t k).wait = .window (match i with | .sysr d _ => some d | _ => none))

end Sys2Proof.Claims

/-- SYSR: what it reads, and when a register access waits or traps: `SystemRegisterRead`, `SystemRegisterWaitsAndTraps`, together. -/
def Obligations.SystemRegistersRead : Prop :=
  Sys2Proof.Claims.SystemRegisterRead ∧ Sys2Proof.Claims.SystemRegisterWaitsAndTraps

/-! ### Traps and privileged instructions (R379 to R398) -/

/-- R397, R82, R83: TRAP and BREAK take their trap with the code in TRAP_INFO whenever the checks of issue pass, and words that are
no instruction take ILLEGAL_INSTRUCTION with those words. -/
def Obligations.SoftwareTraps : Prop :=
  ∀ s : State, agentStands s →
    (∀ n, guardTrap (.trap n) s = none → ∃ t, exec (.trap n) s = .next t ∧ preciseTrap s t 0x11 n) ∧
    (∀ n, guardTrap (.brk n) s = none → ∃ t, exec (.brk n) s = .next t ∧ preciseTrap s t 0x12 n) ∧
    ∀ w0 w1 len, s.arg = [w0, w1, len] →
      ∃ t, exec .illegalInstruction s = .next t ∧ preciseTrap s t 0x01 (w0 + (if len = 8 then w1 * 2 ^ 32 else 0))

namespace Sys2Proof.Claims

/-- A mesh link of a router that is up, with the router at its other end. -/
def meshLink (s : State) (sid d n : Nat) : Prop := d < 4 ∧ linkUp (getSite s sid) d = true ∧ nbr sid d = some n ∧ n ≠ sid
/-- The cycles of the link between two routers: 1, or 9 between reticle fields (R24). -/
def linkCycles (sid n : Nat) : Nat := if fieldOf sid = fieldOf n then 1 else 9
/-- From s to t packet p has entered the link d of a router: its header will be at the router n beyond it after the link's cycles, and its
tail, one flit a cycle, as many cycles after it was ready here and no earlier than the flits before it (R24). -/
def onLink (s t : State) (sid d n : Nat) (p : Packet) : Prop :=
  ∃ q : Packet, (getSite t n).router.inq = (getSite s n).router.inq ++ [(opp d, s.time + linkCycles sid n, q)] ∧
    { q with trail := [] } = { p with hop1 := none, tail := max (s.time + p.len) p.tail + linkCycles sid n, trail := [] } ∧
    (sid, d, q.tail) ∈ q.trail
/-- From s to t a rim site has sent packet a of its own towards a site of its wafer, wherever routing takes it by a link that is up. -/
def sentFrom (s t : State) (sid dst : Nat) (a : Packet → Prop) : Prop :=
  siteW dst = siteW sid → dst ≠ sid → ∀ d n, routeTo (getSite s sid) dst = some d → meshLink s sid d n →
    ∃ p, onLink s t sid d n p ∧ p.tgt = some dst ∧ a p
/-- From s to t port p has answered request q with a packet of a kind, kind-specific bits and payload, past the guard of its edge. -/
def portAnswers (s t : State) (p : Nat) (q : Packet) (kind ks : Nat) (pay : Packet → Prop) : Prop :=
  portPark (getSite s (portSite p)) 5 = q.park → isNull q.src = false →
    sentFrom s t (portSite p) q.origin fun a => a.kind = kind ∧ a.vc = 1 ∧ a.dest = q.src ∧ a.src = q.dest ∧ a.seq = q.seq ∧ a.park = q.park ∧
      a.ks = ks ∧ a.ansTo = some q.origin ∧ pay a
/-- From s to t a core has sent CORE_HALT to the management core of its GUARD_MGR side (R384). -/
def haltSent (s t : State) (sid : Nat) : Prop :=
  siteW sid < 4 → sentFrom s t sid (rimAt (siteW sid) (regF (getSite s sid) 0x073 45 44) 96) fun a => a.mgmt = .coreHalt ∧ a.kind = kMGMT ∧ a.vc = 2

/-- A strand's TRAP_CAUSE, TRAP_PC and TRAP_INFO as a presented record shows them (R382, R389). -/
def shows (x : Site) (r : TrapRec) : Prop :=
  regF x 0x020 7 0 = r.val.cause % 2 ^ 8 ∧ regF x 0x020 11 8 = min r.slot 15 ∧ regF x 0x020 15 12 = r.grp % 16 ∧
  regF x 0x020 19 16 = r.idx % 16 ∧ regF x 0x020 20 20 = (if r.val.deferred then 1 else 0) ∧
  reg x 0x021 = r.val.pc.toNat ∧ reg x 0x022 = r.val.info.toNat

/-- R382: TRAP_PRESENTATION: where the supervisor context is IDLE, TRAP_VEC.EN is 1 and a record waits that was not taken in
this cycle, the oldest such record is presented: the trap registers show it, it leaves the records, and the context runs from
TRAP_VEC.BASE. -/
def TrapPresented : Prop :=
  ∀ (s : State) (sid : Nat) (r : TrapRec), s.arg = [sid] → (getSite s sid).core.sup.st = .idle →
    regF (getSite s sid) 0x023 21 21 = 1 → nextRecord (getSite s sid).core = some r → (getSite s sid).core.evict.st = .run →
    (getSite s sid).dead = false →
    ∃ t, exec .trapPresentation s = .next t ∧ shows (getSite t sid) r ∧ (getSite t sid).core.sup.st = .running ∧
      (getSite t sid).core.sup.present = some r ∧
      (getSite t sid).core.sup.ctx.pc = BitVec.ofNat 64 (regF (getSite s sid) 0x023 20 0) ∧
      (getSite t sid).core.traps = (getSite s sid).core.traps.filter (fun q => q != r) ∧ sameMemory s t ∧
      (∀ m, m ≠ sid → getSite t m = getSite s m)

/-- R383, R384, R386: FATAL_TRAP shows the record of a trap taken while TRAP_VEC.EN was 0 and terminates its group, which is DRAINING with
no strand left; DOUBLE_TRAP halts the supervisor context, its cause kept in TRAP_CAUSE[31:24] and its address, where
TRAP_VEC.SAVE is 1, in TRAP_SAVE, and tells the management core with CORE_HALT. -/
def FatalAndDoubleTraps : Prop :=
  (∀ (s : State) (sid k : Nat) (r : TrapRec) (g : Group), s.arg = [sid, k] →
    (getSite s sid).core.traps.find? (fun r => r.fatal && r.slot == k) = some r → groupOf (getSite s sid).core r.grp = some g →
    g.live.all (fun i => decide (i < 16)) = true →
    ∃ t, exec .fatalTrap s = .next t ∧ shows (getSite t sid) r ∧ sameMemory s t ∧
      ∃ g', groupOf (getSite t sid).core r.grp = some g' ∧ g'.st = .draining ∧ g'.live = []) ∧
  ∀ (s : State) (sid : Nat) (v : TrapVal), s.arg = [sid] → (getSite s sid).core.sup.double = some v →
    ∃ t, exec .doubleTrap s = .next t ∧ (getSite t sid).core.sup.st = .halted ∧ (getSite t sid).core.sup.double = none ∧
      regF (getSite t sid) 0x020 31 24 = v.cause % 256 ∧
      (regF (getSite s sid) 0x023 22 22 = 1 → reg (getSite t sid) 0x024 = v.pc.toNat) ∧ haltSent s t sid

end Sys2Proof.Claims

/-- Trap records are presented; fatal and double traps: `TrapPresented`, `FatalAndDoubleTraps`, together. -/
def Obligations.TrapsPresentedAndFatal : Prop :=
  Sys2Proof.Claims.TrapPresented ∧ Sys2Proof.Claims.FatalAndDoubleTraps

namespace Sys2Proof.Claims

/-- R385, R398: ERET in S with KILL 0 makes the presented strand READY at TRAP_PC and the context IDLE; with KILL 1 the record's
group is terminated; KILL and S_CAUSE then read zero; in M, in a trap, it goes to TRAP_PC and clears IN_TRAP, and outside one it is ILLEGAL_INSTRUCTION. -/
def ReturnFromTrap : Prop :=
  ∀ s : State, guardTrap .eret s = none →
    (∀ sid r, s.cur = .sup sid → (getSite s sid).core.sup.present = some r → r.slot < 16 →
      ∃ t, exec .eret s = .next t ∧ (getSite t sid).core.sup.st = .idle ∧ (getSite t sid).core.sup.present = none ∧ sameMemory s t ∧
        regF (getSite t sid) 0x020 23 23 = 0 ∧ regF (getSite t sid) 0x020 31 24 = 0 ∧
        (regF (getSite s sid) 0x020 23 23 = 0 → (slotOf (getSite t sid).core r.slot).st = .ready ∧
          (slotOf (getSite t sid).core r.slot).ctx.pc = BitVec.ofNat 64 (reg (getSite s sid) 0x021) ∧
          ∀ n, readG (seenBy t sid r.slot) n = readG (seenBy s sid r.slot) n) ∧
        (regF (getSite s sid) 0x020 23 23 = 1 → ∀ g, groupOf (getSite s sid).core r.grp = some g →
          g.live.all (fun i => decide (i < 16)) = true →
          ∃ g', groupOf (getSite t sid).core r.grp = some g' ∧ g'.st = .draining ∧ g'.live = [])) ∧
    (∀ k, s.cur = .mgmt k → mreg (getMgmt s k) 0x703 % 2 = 1 →
      ∃ t, exec .eret s = .next t ∧ curPc t = BitVec.ofNat 64 (mreg (getMgmt s k) 0x021) ∧ mreg (getMgmt t k) 0x703 = 0 ∧
        (∀ r, readG t r = readG s r) ∧ sameMemory s t) ∧
    (∀ k, s.cur = .mgmt k → mreg (getMgmt s k) 0x703 % 2 = 0 →
      ∃ t, exec .eret s = .next t ∧ preciseTrap s t 0x01 (wordsInfo .eret))

/-- R384, R390, R398: HALT halts the supervisor context, with CORE_HALT sent to its management core, or the management core. WFI goes on where a record waits for presentation, or an
enabled interrupt for a management core, and otherwise waits. MGMT_INTERRUPT takes the lowest enabled pending interrupt of a
running core that is in no trap: TRAP_CAUSE is 0x40 plus its number, TRAP_PC the next instruction, and the core goes to
TRAP_VEC.BASE. CORE_HALT_ARRIVAL raises interrupt 5. -/
def HaltWaitAndInterrupt : Prop :=
  ∀ s : State,
    (guardTrap .halt s = none →
      (∀ sid, s.cur = .sup sid → ∃ t, exec .halt s = .next t ∧ (getSite t sid).core.sup.st = .halted ∧ sameMemory s t ∧ haltSent s t sid) ∧
      ∀ k, s.cur = .mgmt k → ∃ t, exec .halt s = .next t ∧ (getMgmt t k).st = .halted ∧ sameMemory s t) ∧
    (guardTrap .wfi s = none →
      (∀ sid, s.cur = .sup sid →
        ((∃ r ∈ (getSite s sid).core.traps, r.fatal = false ∧ r.fresh = false) →
          ∃ t, exec .wfi s = .next t ∧ curPc t = curPc s + 4 ∧ writesOnly none s t) ∧
        ((∀ r ∈ (getSite s sid).core.traps, r.fatal = true ∨ r.fresh = true) →
          ∃ t, exec .wfi s = .next t ∧ waits s t .wfi)) ∧
      ∀ k, s.cur = .mgmt k →
        (mreg (getMgmt s k) 0x701 &&& mreg (getMgmt s k) 0x702 ≠ 0 →
          ∃ t, exec .wfi s = .next t ∧ curPc t = curPc s + 4 ∧ writesOnly none s t) ∧
        (mreg (getMgmt s k) 0x701 &&& mreg (getMgmt s k) 0x702 = 0 →
          ∃ t, exec .wfi s = .next t ∧ (getMgmt t k).wait = .wfi ∧ curPc t = curPc s)) ∧
    (∀ k j, s.arg = [k] → (getMgmt s k).st = .running → (getMgmt s k).wait = .none → mreg (getMgmt s k) 0x703 % 2 = 0 →
      j < 6 → (mreg (getMgmt s k) 0x701 &&& mreg (getMgmt s k) 0x702).testBit j = true →
      (∀ i, i < j → (mreg (getMgmt s k) 0x701 &&& mreg (getMgmt s k) 0x702).testBit i = false) →
      ∃ t, exec .mgmtInterrupt s = .next t ∧ mreg (getMgmt t k) 0x020 % 2 ^ 8 = 0x40 + j ∧
        mreg (getMgmt t k) 0x021 = (getMgmt s k).ctx.pc.toNat ∧ mreg (getMgmt t k) 0x703 = 1 ∧
        (getMgmt t k).ctx.pc = BitVec.ofNat 64 (mreg (getMgmt s k) 0x023 % 2 ^ 21) ∧ sameMemory s t) ∧
    (∀ k p, s.arg = [k] → (getMgmt s k).arrivals.head? = some p → p.mgmt = .coreHalt →
      ∃ t, exec .coreHaltArrival s = .next t ∧ (mreg (getMgmt t k) 0x702).testBit 5 = true ∧
        (getMgmt t k).arrivals = (getMgmt s k).arrivals.tail ∧ sameMemory s t)

end Sys2Proof.Claims

/-- ERET, HALT, WFI, management interrupts and CORE_HALT: `ReturnFromTrap`, `HaltWaitAndInterrupt`, together. -/
def Obligations.ReturnHaltAndInterrupt : Prop :=
  Sys2Proof.Claims.ReturnFromTrap ∧ Sys2Proof.Claims.HaltWaitAndInterrupt

/-! ### Writes of the registers that have rules of their own -/

namespace Sys2Proof.Claims

/-- The same with only the store of one register's value, and its refusal bit, changed: what a refused write leaves. -/
def refusedWrite (s t : State) (sid n err hi lo : Nat) : Prop :=
  onlyRegister s t sid n ∧ (getSite t sid).core = (getSite s sid).core ∧ regF (getSite t sid) n err err = 1 ∧
  regF (getSite t sid) n hi lo = regF (getSite s sid) n hi lo
/-- What a write that is taken leaves of a register alone. -/
def takenWrite (s t : State) (sid n err hi lo v : Nat) : Prop :=
  onlyRegister s t sid n ∧ (getSite t sid).core = (getSite s sid).core ∧ regF (getSite t sid) n err err = 0 ∧
  regF (getSite t sid) n hi lo = v

/-- R118, R260, R285, R306, R394: the writes of TUMBLER_CFG (while no group exists, and at most 383), HTAB_BASE (page-aligned with 32
KiB below the end of the store), MSGLEN_MAX (not 0), TIER_CFG (at least one unit within 128, a stripe of 2^12 to 2^30) and
DCNT_SEL (not 0, no UNBIND) take effect and clear the register's refusal bit, and otherwise change nothing but set it. -/
def ConfigurationWrites : Prop :=
  ∀ (s : State) (sid v : Nat), s.arg = [sid, v] →
    (∃ t, exec .tumblerCfgWrite s = .next t ∧
      ((getSite s sid).core.groups = [] ∧ v % 2 ^ 9 ≤ 383 → takenWrite s t sid 0x045 9 8 0 (v % 2 ^ 9)) ∧
      (¬((getSite s sid).core.groups = [] ∧ v % 2 ^ 9 ≤ 383) → refusedWrite s t sid 0x045 9 8 0)) ∧
    (∃ t, exec .htabBaseWrite s = .next t ∧
      (v % 4096 = 0 ∧ v % 2 ^ 21 + 32768 ≤ 0x200000 → takenWrite s t sid 0x046 21 20 0 (v % 2 ^ 21)) ∧
      (¬(v % 4096 = 0 ∧ v % 2 ^ 21 + 32768 ≤ 0x200000) → refusedWrite s t sid 0x046 21 20 0)) ∧
    (∃ t, exec .msglenMaxWrite s = .next t ∧ (v % 64 ≠ 0 → takenWrite s t sid 0x060 6 5 0 (v % 64)) ∧
      (v % 64 = 0 → refusedWrite s t sid 0x060 6 5 0)) ∧
    (∃ t, exec .tierCfgWrite s = .next t ∧
      (v / 2 ^ 7 % 2 ^ 8 ≠ 0 ∧ v % 2 ^ 7 + v / 2 ^ 7 % 2 ^ 8 ≤ 128 ∧ 12 ≤ v / 2 ^ 15 % 2 ^ 5 ∧ v / 2 ^ 15 % 2 ^ 5 ≤ 30 →
        takenWrite s t sid 0x063 56 55 0 (v % 2 ^ 56)) ∧
      (¬(v / 2 ^ 7 % 2 ^ 8 ≠ 0 ∧ v % 2 ^ 7 + v / 2 ^ 7 % 2 ^ 8 ≤ 128 ∧ 12 ≤ v / 2 ^ 15 % 2 ^ 5 ∧ v / 2 ^ 15 % 2 ^ 5 ≤ 30) →
        refusedWrite s t sid 0x063 56 55 0)) ∧
    (∃ t, exec .dcntSelWrite s = .next t ∧ (v % 64 ≠ 0 → v / 2 ^ 7 % 2 = 0 → takenWrite s t sid 0x065 6 5 0 (v % 64)) ∧
      (v % 64 = 0 → refusedWrite s t sid 0x065 6 5 0))

/-- R53, R54, R118, R161, R192, R200, R396: REGISTER_WRITE of a register without a rule of its own writes its RW bits; CORE_NAME_WRITE at a live site whose core is not dead
writes bits 17 to 0, from S only a name of PARK_CFG's range; PMAP_DATA_WRITE is queued for the page of PMAP_SEL with the
accesses it must wait for, and one of S that names or replaces a pool page is not made and traps PRIVILEGE; TDEC_DATA_WRITE for the entry of TDEC_SEL; FPCTL_WRITE stores the rounding mode (7 as 0) and
the trap enables of a context. -/
def NamePageAndTableWrites : Prop :=
  (∀ (s : State) (sid n v : Nat), s.arg = [sid, n, v] → n ∉ ownRule →
    ∃ t, exec .registerWrite s = .next t ∧ onlyRegister s t sid n ∧ (getSite t sid).core = (getSite s sid).core ∧
      ∀ k, k < 64 → (reg (getSite t sid) n).testBit k = newBit 1 (rwMask n) (reg (getSite s sid) n) v k) ∧
  (∀ (s : State) (sid l v : Nat), s.arg = [sid, l, v] → (getSite s sid).life = .live → (getSite s sid).dead = false →
    ∃ t, exec .coreNameWrite s = .next t ∧
      (let name := v % 2 ^ 18 + reg (getSite s sid) 0x041 / 2 ^ 18 % 4 * 2 ^ 18
       let inPark := regF (getSite s sid) 0x073 19 0 ≤ name ∧ name ≤ regF (getSite s sid) 0x073 39 20
       (l = 0 ∧ ¬inPark → t = s) ∧
       (l ≠ 0 ∨ inPark → onlyRegister s t sid 0x041 ∧ regF (getSite t sid) 0x041 19 0 = name))) ∧
  (∀ (s : State) (sid v : Nat), s.arg = [sid, 1, v] → ¬(v.testBit 19 = true ∧ 383 < v % 2 ^ 9) →
    ∃ t, exec .pmapDataWrite s = .next t ∧ onlyRegister s t sid 0x050 ∧ regF (getSite t sid) 0x050 9 9 = 0 ∧
      (getSite t sid).core = { (getSite s sid).core with
        pmapNext := (getSite s sid).core.pmapNext ++ [(regF (getSite s sid) 0x050 8 0, BitVec.ofNat 64 (v % 2 ^ 20), (getSite s sid).core.accIds)] }) ∧
  (∀ (s : State) (sid d v : Nat),
    let p := regF (getSite s sid) 0x050 8 0
    let pool := ePool (getSite s sid) (v % 2 ^ 20) = true ∨ ePool (getSite s sid) (pmapLatest (getSite s sid).core p) = true
    (s.arg = [sid, 0, v] → pool → exec .pmapDataWrite s = .next s) ∧
    (s.arg = [sid, 0, v] → ¬pool → ¬(v.testBit 19 = true ∧ 383 < v % 2 ^ 9) → ∃ t, exec .pmapDataWrite s = .next t ∧
      (getSite t sid).core.pmapNext = (getSite s sid).core.pmapNext ++ [(p, BitVec.ofNat 64 (v % 2 ^ 20), (getSite s sid).core.accIds)]) ∧
    (s.cur = .sup sid → levelOk (.sysw d 0x051) s = true → ePool (getSite s sid) (pmapLatest (getSite s sid).core p) = true ∨
        guardTrap (.sysw d 0x051) s = none ∧ ePool (getSite s sid) ((readG s d).toNat % 2 ^ 20) = true →
      ∃ t, exec (.sysw d 0x051) s = .next t ∧ preciseTrap s t 0x02 (wordsInfo (.sysw d 0x051)))) ∧
  (∀ (s : State) (sid v : Nat), s.arg = [sid, v] → (regF (getSite s sid) 0x058 8 8 = 0 ∨ regF (getSite s sid) 0x058 7 0 < 16) →
    ∃ t, exec .tdecDataWrite s = .next t ∧ onlyRegister s t sid 0x058 ∧
      (getSite t sid).core = { (getSite s sid).core with
        tdecNext := (getSite s sid).core.tdecNext ++ [(regF (getSite s sid) 0x058 7 0 + 256 * regF (getSite s sid) 0x058 8 8, v % 2 ^ 19)] }) ∧
  ∀ (s : State) (a b v : Nat), s.arg = [a, b, v] →
    ∃ t, exec .fpctlWrite s = .next t ∧
      (curCtx { t with cur := agentOf a b }).fpctl =
        BitVec.ofNat 64 ((if v % 8 = 7 then 0 else v % 8) + v / 16 % 64 * 16) ∧ sameMemory s t

/-- A site and a port that an entry may name: not the router's own site; a link that is up; west or north for a site that lies west or
north, else east or south towards it (R61). -/
def entryTowards (x : Site) (px py d : Nat) : Prop :=
  linkUp x d = true ∧ (px ≠ siteX x.id ∨ py ≠ siteY x.id) ∧
    (if px < siteX x.id ∨ py < siteY x.id then d = 0 ∨ d = 3 else d = 1 ∧ siteX x.id < px ∨ d = 2 ∧ siteY x.id < py)

/-- R61, R252, R286, R306, R355: the writes of MBOX_CFG (while no copy is held, 1 to 32 pages that fit), STEER_DATA, NT_DATA and
RTREE_DATA take effect at the selected entry or are refused with the register's refusal bit: an entry of the name table that is invalid, or whose site and port are
legal, is taken, and any other refused with ERR, the table as it was; a tree entry whose ports are links that are up and whose
parent is no child, of a tree that is not busy, is taken, and any other refused with ERR, the entry as it was (an entry that another event of a higher rank has changed in the cycle stays, log 151); COUNTER_UNBIND leaves the counter
unbound. -/
def TableWrites : Prop :=
  ∀ (s : State) (sid v : Nat), s.arg = [sid, v] →
    (let base := v % 2 ^ 9
     let n := v / 2 ^ 9 % 2 ^ 6
     let ok := (getSite s sid).core.copies = [] ∧ 0 < n ∧ n ≤ 32 ∧ base + 2 * n ≤ 512
     ∃ t, exec .mboxCfgWrite s = .next t ∧ onlyRegister s t sid 0x055 ∧
       (ok → regF (getSite t sid) 0x055 15 15 = 0 ∧ regF (getSite t sid) 0x055 14 0 = v % 2 ^ 15 ∧
         (getSite t sid).core.mboxPtr = 0 ∧ (getSite t sid).core.mboxPages.length = n) ∧
       (¬ok → refusedWrite s t sid 0x055 15 14 0)) ∧
    (let i := v / 2 ^ 20 % 2 ^ 10
     let bad := v.testBit 31 = true ∧ (i = 0 ∨ v.testBit 30 = true ∧ 63 < i ∨ v % 2 ^ 18 = 0x3FFFF)
     ∃ t, exec .steerDataWrite s = .next t ∧ onlyRegister s t sid 0x05A ∧
       (¬bad → regF (getSite t sid) 0x05A 6 6 = 0 ∧
         tget 0 (getSite t sid).core.steer (steerSelected (getSite s sid)) = BitVec.ofNat 64 (v % 2 ^ 32)) ∧
       (bad → (getSite t sid).core = (getSite s sid).core ∧ regF (getSite t sid) 0x05A 6 6 = 1)) ∧
    (∃ t, exec .ntDataWrite s = .next t ∧
      (∀ m, m ≠ sid → getSite t m = getSite s m) ∧ (getSite t sid).core = (getSite s sid).core ∧
      (regF (getSite t sid) 0x070 9 9 = 0 → tget 0 (getSite s sid).router.ntRank (ntSelected (getSite s sid)) ≤ 3 →
        tget 0 (getSite t sid).router.nt (ntSelected (getSite s sid)) = BitVec.ofNat 64 (v % 2 ^ 43)) ∧
      (v.testBit 42 = false ∨ entryTowards (getSite s sid) (v / 2 ^ 20 % 2 ^ 8) (v / 2 ^ 28 % 2 ^ 8) (v / 2 ^ 36 % 4) →
        regF (getSite t sid) 0x070 9 9 = 0) ∧
      (v.testBit 42 = true → ¬entryTowards (getSite s sid) (v / 2 ^ 20 % 2 ^ 8) (v / 2 ^ 28 % 2 ^ 8) (v / 2 ^ 36 % 4) →
        regF (getSite t sid) 0x070 9 9 = 1 ∧ (getSite t sid).router = (getSite s sid).router)) ∧
    ((getSite s sid).dead = false → ∃ t, exec .rtreeDataWrite s = .next t ∧ (∀ m, m ≠ sid → getSite t m = getSite s m) ∧
      (getSite t sid).core = (getSite s sid).core ∧
      (regF (getSite t sid) 0x081 3 3 = 0 →
        tget 0 (getSite t sid).router.rtree (treeSelected (getSite s sid)) = BitVec.ofNat 64 (v % 2 ^ 9)) ∧
      (treeBusy (getSite s sid) (treeSelected (getSite s sid)) = false → v % 8 ≠ 6 →
        (∀ p, p < 5 → (v % 8 = p + 1 ∨ v.testBit (p + 3) = true) → treePort s sid p = true) →
        (∀ p, p < 5 → v % 8 = p + 1 → v.testBit (p + 3) = false) → regF (getSite t sid) 0x081 3 3 = 0) ∧
      (v % 8 = 6 ∨ treeBusy (getSite s sid) (treeSelected (getSite s sid)) = true ∨
          (∃ p, p < 5 ∧ (v % 8 = p + 1 ∨ v.testBit (p + 3) = true) ∧ treePort s sid p = false) ∨
          (∃ p, p < 5 ∧ v % 8 = p + 1 ∧ v.testBit (p + 3) = true) →
        regF (getSite t sid) 0x081 3 3 = 1 ∧ (getSite t sid).router = (getSite s sid).router)) ∧
    ∃ t, exec .counterUnbind s = .next t ∧ (v % 64 ≠ 0 → counterOf (getSite t sid).core (v % 64) = none) ∧ ∀ m, m ≠ sid → getSite t m = getSite s m

end Sys2Proof.Claims

/-- Configuration and table registers: writes that take effect or are refused: `ConfigurationWrites`, `TableWrites`, together. -/
def Obligations.ConfigurationRegisters : Prop :=
  Sys2Proof.Claims.ConfigurationWrites ∧ Sys2Proof.Claims.TableWrites

namespace Sys2Proof.Claims

/-- R164, R192: PMAP_WRITE_EFFECT: the oldest queued write of the page map takes effect once every access issued before it has
performed and no copy-form load or COPYDATA is half done, and no sooner (log 33: it is queued, and later accesses keep to the entry they were checked
against); TDEC_WRITE_EFFECT: the queued writes of the tables take effect together in a cycle in which nothing
that uses them is in progress, the last write of an entry standing. -/
def DelayedWrites : Prop :=
  (∀ (s : State) (sid page n : Nat) (e : Word) (rest : List (Nat × Word × Nat)), s.arg = [sid] →
    (getSite s sid).core.pmapNext = (page, e, n) :: rest →
    ∃ t, exec .pmapWriteEffect s = .next t ∧ sameMemory s t ∧
      ((∃ a ∈ (getSite s sid).core.accesses, a.id < n) → (getSite t sid) = (getSite s sid)) ∧
      ((∀ a ∈ (getSite s sid).core.accesses, n ≤ a.id) → (∀ l, (getSite s sid).core.landing = some l → l.pkt.kind ≠ kRLOAD ∧ l.pkt.kind ≠ kCOPYDATA) →
        (getSite t sid).core.pmapNext = rest ∧
        (∀ p, tget 0 (getSite t sid).core.pmap p = if p = page then e else tget 0 (getSite s sid).core.pmap p) ∧
        ∀ a ∈ (getSite t sid).core.accesses, ∀ b, b / 4096 = page →
          ∃ a' ∈ (getSite s sid).core.accesses, a'.id = a.id ∧
            physVia (getSite t sid).core a.via b = physVia (getSite s sid).core a'.via b)) ∧
  ∀ (s : State) (sid : Nat), s.arg = [sid] → tablesQuiet (getSite s sid).core = true →
    ∃ t, exec .tdecWriteEffect s = .next t ∧ (getSite t sid).core.tdecNext = [] ∧
      (∀ k, (∀ e ∈ (getSite s sid).core.tdecNext, e.1 ≠ k) → tget? (getSite t sid).core.tdec k = tget? (getSite s sid).core.tdec k) ∧
      ∀ pre k v post, (getSite s sid).core.tdecNext = pre ++ (k, v) :: post → (∀ e ∈ post, e.1 ≠ k) →
        tget? (getSite t sid).core.tdec k = some v

end Sys2Proof.Claims

/-- CORE_NAME, page map and decode tables: writes, and when they take effect: `NamePageAndTableWrites`, `DelayedWrites`, together. -/
def Obligations.NamesPagesAndTables : Prop :=
  Sys2Proof.Claims.NamePageAndTableWrites ∧ Sys2Proof.Claims.DelayedWrites

/-! ### Copies (R257 to R278) -/

namespace Sys2Proof.Claims

/-- From s to t nothing outside one site changes. -/
def onlySite (s t : State) (sid : Nat) : Prop :=
  (∀ m, m ≠ sid → getSite t m = getSite s m) ∧ { t with sites := [] } = { s with sites := [] }

/-- Whether no other request for places of a core's injection buffer comes before the one with this number (R283). -/
abbrev inTurn (c : Core) (key : Nat) : Prop := askers c = [] ∨ (askers c).head? = some key

/-- A request that a running core handles next, well formed. -/
def handles (x : Site) (q : Packet) : Prop := nextArrival x = some q ∧ malformed x q = false ∧ evicted x = false

/-- From x to y a core has put one answer to the request q in its VC1 buffer: of a kind, with kind-specific bits (R290). -/
def answered (x y : Site) (q : Packet) (kind ks : Nat) : Prop :=
  ∃ a : Packet, y.core.inj1 = x.core.inj1 ++ [a] ∧ a.kind = kind ∧ a.ks = ks ∧ a.vc = 1 ∧ a.dest = q.src ∧ a.seq = q.seq ∧
    a.src = coreName x ∧ a.park = localPark x ∧ a.ansTo = some q.origin

/-- What CPY, CPYR, CPYM and CPYS name: kind, registers of the handle, the ends and the shape block, spaces, stream, scope, tree
or feed register, and element size. -/
structure CopyForm where
  kind : CKind
  d : Nat
  a : Nat
  b : Nat
  g : Nat
  ss : Nat
  ds : Nat
  stream : Nat
  scope : Nat
  tree : Nat := 0
  esize : Nat := 0
def copyForm : Instr → Option CopyForm
  | .cpy d a b g ss ds st c => some { kind := .cpy, d := d, a := a, b := b, g := g, ss := ss, ds := ds, stream := st, scope := c }
  | .cpyr d a b g ss ds st c => some { kind := .cpyr, d := d, a := a, b := b, g := g, ss := ss, ds := ds, stream := st, scope := c }
  | .cpym d a b g ss st c t =>
    some { kind := .cpym, d := d, a := a, b := b, g := g, ss := ss, ds := 0, stream := st, scope := c, tree := t }
  | .cpys e d a b g ss st c k =>
    some { kind := .cpys, d := d, a := a, b := b, g := g, ss := ss, ds := 0, stream := st, scope := c, tree := k, esize := e }
  | _ => none

/-- A block of n bytes that the agent may read and that meets no uncorrectable word: its bytes are v, lowest first. -/
def blockIs (s : State) (ea n stream v : Nat) : Prop :=
  runFault s ea n 16 stream false = none ∧ badRun (curSite s).core ea n = none ∧ v = readRun (curSite s).core ea n

/-- The array that a shape block v describes from the words of the two address registers (R259, R263). -/
def copyArray (f : CopyForm) (s : State) (v : Nat) : Leg :=
  let at' (space : Nat) (w : Word) : Nat × Nat :=
    if space < 2 then (w.toNat % 2 ^ 21, w.toNat / 2 ^ 32 % 2 ^ 20) else (w.toNat % 2 ^ 52, w.toNat / 2 ^ 52 % 4)
  { sbase := (at' f.ss (readG s f.a)).1, sname := (at' f.ss (readG s f.a)).2
    dbase := (at' f.ds (readG s f.b)).1, dname := (at' f.ds (readG s f.b)).2, dcnt := v / 2 ^ 70 % 2 ^ 6
    dims := (List.range (v % 16 + 1)).map fun k =>
      let w := v / 2 ^ (128 * (k + 1))
      (w % 2 ^ 32, (BitVec.ofNat 48 (w / 2 ^ 32)).toInt, (BitVec.ofNat 48 (w / 2 ^ 80)).toInt) }
/-- The copy that the instruction describes (R263). -/
def copyJob (f : CopyForm) (s : State) (v : Nat) : Chan :=
  { kind := f.kind, legs := [copyArray f s v], sspace := f.ss, dspace := f.ds, stream := f.stream, scope := f.scope
    tree := if f.kind = .cpym then f.tree else 0, esize := f.esize, feed := if f.kind = .cpys then some f.tree else none
    shape := { sf := v / 2 ^ 4 % 2 ^ 5, df := v / 2 ^ 9 % 2 ^ 5, rm := v / 2 ^ 14 % 2 ^ 3, cells := v.testBit 17
               rop := v / 2 ^ 18 % 2 ^ 2, ackcnt := v / 2 ^ 64 % 2 ^ 6, ord := v / 2 ^ 76 % 2 ^ 8, tag := v / 2 ^ 84 % 2 ^ 3 } }
/-- Whether the checks of issue on a copy's block and arrays pass (R263, R264, R271, R273, R276). -/
def copyPasses (f : CopyForm) (s : State) (v : Nat) : Prop :=
  let h := copyJob f s v
  let l := copyArray f s v
  shapeBad v = false ∧ classBad f.kind h.shape = false ∧ copyAlign h l s = none ∧
  (f.kind = .cpys → (legRuns l ≠ 0 → dstLen h l % 2 ^ f.esize = 0) ∧ feedRuns h l s = none) ∧
  (f.kind = .cpym → treeParent (curSite s) f.tree = 0 ∧ treeLocal (curSite s) f.tree = true)

/-- LFSR_STATE and the feed registers after a copy has started: the LFSR steps once for every destination element under RS (R265);
CPYS binds its feed register to the channel (R175, R276). -/
def copyContext (h : Chan) (s : State) (ch : Nat) (x : Ctx) : Ctx :=
  { x with
    lfsr := if h.shape.rm = 5 then
        BitVec.ofNat 64 (lfsrSteps ((h.legs.map fun l =>
          legRuns l * (if cellsDst h then legElems l else runSteps h.shape.df (legElems l))).sum) (lfsrOf s))
      else x.lfsr
    f := match h.feed with | some k => tset x.f k (BitVec.ofNat 64 (1 + h.esize * 2 + ch * 2 ^ 3)) | none => x.f }

/-- From s to t the agent has started the copy h of its group on channel ch: the handle is in gd, the channel holds the copy, the
program counter has moved past the instruction, every other bound feed register is bound to the copy it was bound to (R175; that of a
channel used again is the model's reading, log 89), and nothing else has changed. -/
def copyStarted (h : Chan) (s t : State) (d ch : Nat) : Prop :=
  readG t d = (if d = 0 then 0 else BitVec.ofNat 64 ch) ∧ curPc t = curPc s + 8 ∧ sameMemory s t ∧
  (∃ y, tget? (curSite t).core.chans ch = some y ∧ y.busy = true ∧ y.ended = false ∧ y.started = false ∧ y.status = 0 ∧
    y.kind = h.kind ∧ y.shape = h.shape ∧ y.legs = h.legs ∧ y.sspace = h.sspace ∧ y.dspace = h.dspace ∧ y.stream = h.stream ∧
    y.scope = h.scope ∧ y.tree = h.tree ∧ y.esize = h.esize ∧ y.feed = h.feed ∧ y.grp = actGrp s ∧ y.uid = (actGroupVal s).uid ∧
    y.key = curKey s ∧ y.pc = curPc s) ∧
  (∀ k, k ≠ ch → tget? (curSite t).core.chans k = tget? (curSite s).core.chans k) ∧
  (∀ key, { strandOf (curSite t).core key with pastFeeds := [] } = { strandOf (curSite s).core key with pastFeeds := [] }) ∧
  ((tget {} (curSite s).core.chans ch).kind = .cpys → ∀ key ∈ contextKeys (curSite s).core, ∀ j, j < 8 →
    ¬(key = curKey s ∧ h.feed = some j) → (feedReg (curSite s).core key j).getLsbD 0 = true →
    feedChan (curSite t).core key j = feedChan (curSite s).core key j) ∧
  changesOnly (some (.g d)) { core := fun c => { c with chans := [], found := [], strands := [] } } (modCurCtx s (copyContext h s ch)) t

/-- How many channels the group at hand has occupied, and how many it holds (R257). -/
def occupiedNow (s : State) : Nat := ((curSite s).core.chans.filter fun e => e.2.busy && e.2.grp == actGrp s).length
/-- The lowest channel that none occupies. -/
def lowestFree (s : State) (ch : Nat) : Prop :=
  ch < 48 ∧ (tget {} (curSite s).core.chans ch).busy = false ∧ ∀ k, k < ch → (tget {} (curSite s).core.chans k).busy = true

/-- R257, R258, R263, R265, R274 to R276: CPY, CPYR, CPYM and CPYS of a strand whose block and arrays pass their checks take
the lowest channel that none occupies where the group holds one that it has not occupied, and complete with the handle in gd; where
all that it holds are occupied the strand waits with reason 7; where it holds none they trap COPY_FAULT 14; an invalid block
traps COPY_FAULT 13 with its address. HALO, whose descriptor passes, starts one copy of a slab for every direction given (slabs by the
model's reading, log 86). -/
def CopyInstructions : Prop :=
  ∀ (s : State) (sid k : Nat), s.cur = .strand sid k → standing s sid k →
    (∀ (i : Instr) (f : CopyForm) (n v : Nat), copyForm i = some f → guardTrap i s = none →
      runFault s (readG s f.g).toNat 16 16 f.stream false = none →
      n = 32 + 16 * (readLocal (curSite s).core (readG s f.g).toNat 1 % 16) → blockIs s (readG s f.g).toNat n f.stream v →
      (shapeBad v = true → ∃ t, exec i s = .next t ∧ preciseTrap s t 0x0B (13 + (readG s f.g).toNat % 2 ^ 32 * 2 ^ 32)) ∧
      (copyPasses f s v →
        ((actGroupVal s).chans = 0 → ∃ t, exec i s = .next t ∧ preciseTrap s t 0x0B 14) ∧
        ((actGroupVal s).chans ≠ 0 → (actGroupVal s).chans ≤ occupiedNow s → ∃ t, exec i s = .next t ∧
          (strandOf (curSite t).core (curKey s)).wait = .channel f.d ∧ (Wait.channel f.d).reason = 7 ∧
          (slotOf (curSite t).core k).st = .waiting ∧ curPc t = curPc s ∧ (∀ r, readG t r = readG s r) ∧ sameMemory s t) ∧
        ∀ ch, occupiedNow s < (actGroupVal s).chans → lowestFree s ch →
          ∃ t, exec i s = .next t ∧ copyStarted (copyJob f s v) s t f.d ch)) ∧
    ∀ (d a b dirs st v ch : Nat), guardTrap (.halo d a b dirs st) s = none → blockIs s (readG s b).toNat 48 st v →
      haloBad v dirs = false → occupiedNow s < (actGroupVal s).chans → lowestFree s ch →
      let base := (readG s a).toNat % 2 ^ 21
      let fmt := v / 2 ^ 2 % 2 ^ 5
      let slabs := ((List.range 4).filter dirs.testBit).map (slabLeg (curSite s) v base)
      base % runAlign fmt = 0 → (∀ l ∈ slabs, l.dbase % runAlign fmt = 0) →
      ∃ t, exec (.halo d a b dirs st) s = .next t ∧
        copyStarted { kind := .halo, shape := { sf := fmt, df := fmt }, legs := slabs, dspace := 1, stream := st, scope := 5 } s t d ch

/-- A channel of the group at hand by its handle (R258). -/
def groupsChannel (s : State) (n : Nat) (h : Chan) : Prop :=
  n < 48 ∧ tget? (curSite s).core.chans n = some h ∧ (actGroup s).isSome ∧ h.uid = (actGroupVal s).uid
/-- The result word of a copy that has ended: STATUS, DONE and its marks, flags, and the elements performed (R277). -/
def copyResult (h : Chan) : Word := BitVec.ofNat 64 (h.status + 2 ^ 4 + 2 ^ 5 + h.flags * 2 ^ 8 + doneElems h % 2 ^ 32 * 2 ^ 32)

/-- The failing address of a copy that has ended: statuses 1 to 5 and 8 have one (R270). -/
def failingAddr (h : Chan) : Nat := if (1 ≤ h.status ∧ h.status ≤ 5) ∨ h.status = 8 then h.failAddr % 2 ^ 32 else 0
/-- R258, R277: CPYW of a copy that has ended writes its result word, or traps COPY_FAULT as a deferred trap where its status is not
0; of one that runs it waits; CPYW and CPYX of a channel that is not the group's trap COPY_FAULT 15. CPYQ completes at once: 0 for
such a channel, the result word of a copy that has ended, and for one that runs its status with DONE 0 (the flags and the count are
free: the model's choice, log 87). CPYX of a running copy gives it status 6; of one that has ended it does nothing. -/
def CopyHandles : Prop :=
  ∀ (s : State) (d a : Nat), agentStands s →
    let n := (readG s a).toNat
    (guardTrap (.cpyw d a) s = none →
      (ourChan s n = none → ∃ t, exec (.cpyw d a) s = .next t ∧ preciseTrap s t 0x0B (15 + n % 64 * 2 ^ 4)) ∧
      ∀ h, groupsChannel s n h →
        (h.ended = true → h.status = 0 → nameable s d → ∃ t, exec (.cpyw d a) s = .next t ∧ wrote s t d (copyResult h) 8) ∧
        (h.ended = true → h.status ≠ 0 → ∃ t, exec (.cpyw d a) s = .next t ∧ sameMemory s t ∧
          trapTaken s t 0x0B (h.status + n * 2 ^ 4 + failingAddr h * 2 ^ 32) true) ∧
        (h.ended = false → ∃ t, exec (.cpyw d a) s = .next t ∧ waits s t (.copyEnd n d))) ∧
    (guardTrap (.cpyq d a) s = none → nameable s d →
      (ourChan s n = none → ∃ t, exec (.cpyq d a) s = .next t ∧ wrote s t d 0 8) ∧
      ∀ h, groupsChannel s n h →
        (h.ended = true → ∃ t, exec (.cpyq d a) s = .next t ∧ wrote s t d (copyResult h) 8) ∧
        (h.ended = false → h.status < 16 → ∃ t v, exec (.cpyq d a) s = .next t ∧ wrote s t d v 8 ∧ v.toNat % 2 ^ 8 = h.status + 2 ^ 5)) ∧
    (guardTrap (.cpyx a) s = none →
      (ourChan s n = none → ∃ t, exec (.cpyx a) s = .next t ∧ preciseTrap s t 0x0B (15 + n % 64 * 2 ^ 4)) ∧
      ∀ h, groupsChannel s n h →
        (h.ended = true → ∃ t, exec (.cpyx a) s = .next t ∧ curPc t = curPc s + 8 ∧ writesOnly none s t) ∧
        (h.ended = false → h.busy = true → (∃ o ∈ (curSite s).core.outs, o.kind.chan? = some n ∧ o.due = none) →
          ∃ t, exec (.cpyx a) s = .next t ∧ curPc t = curPc s + 8 ∧ sameMemory s t ∧
            (tget {} (curSite t).core.chans n).status = 6 ∧ (tget {} (curSite t).core.chans n).ended = false ∧
            (∀ k, k ≠ n → tget? (curSite t).core.chans k = tget? (curSite s).core.chans k) ∧
            changesOnly none { core := fun c => { c with chans := [], outs := [] } } s t))

end Sys2Proof.Claims

/-- Copies start on a channel, and their handles are asked, waited for and cancelled: `CopyInstructions`, `CopyHandles`, together. -/
def Obligations.CopiesStart : Prop :=
  Sys2Proof.Claims.CopyInstructions ∧ Sys2Proof.Claims.CopyHandles

namespace Sys2Proof.Claims

/-- A feed register of the agent bound to copy h: the bytes of an element and the index of the next one. The copy is its channel's, or
the one that had its channel before another copy took it (R175; log 89). -/
def feeds (s : State) (k : Nat) (h : Chan) (e next : Nat) : Prop :=
  let w := (tget 0 (curCtx s).f k).toNat
  w % 2 = 1 ∧ e = 2 ^ (w / 2 % 4) ∧ next = w / 2 ^ 32 ∧ h.kind = .cpys ∧
    ((tget? (strandOf (curSite s).core (curKey s)).pastFeeds k = none ∧ tget? (curSite s).core.chans (w / 2 ^ 3 % 2 ^ 6) = some h) ∨
      tget? (strandOf (curSite s).core (curKey s)).pastFeeds k = some h)
/-- Element j of a bound copy's destination lies in mapped pages and meets no uncorrectable word. -/
def elementGood (s : State) (h : Chan) (e j : Nat) : Prop :=
  (∀ p ∈ pagesOf (feedAddr h (j * e)) e, eValid (pmapAt (curSite s).core p) = true) ∧ badRun (curSite s).core (feedAddr h (j * e)) e = none
/-- The feed register after the elements before index m have been taken: unbound with the last (R176). -/
def feedAfter (s : State) (k m total : Nat) : Ctx → Ctx := fun x =>
  let w := (tget 0 (curCtx s).f k).toNat
  { x with f := tset x.f k (BitVec.ofNat 64 (w % 2 ^ 32 - (if m = total then 1 else 0) + m % 2 ^ 32 * 2 ^ 32)) }

end Sys2Proof.Claims

/-- R175, R176: FPOP of a feed register whose next element has been written takes that element into gd, zero-extended, and
FPOPV the elements that are left up to 128 bytes into vd, the lanes above them zero; the index moves on, and with the copy's last
element the register is unbound. An element that has not come makes them wait; a register that is not bound traps
STREAM_UNBOUND, and one whose copy has ended with a fault before its elements came COPY_FAULT with the copy's status. That the elements
are read in the issue step is the model's choice (log 147). -/
def Obligations.FeedRegisters : Prop :=
  ∀ (s : State) (d k : Nat), agentStands s →
    (guardTrap (.fpop d k) s = none → (tget 0 (curCtx s).f k).getLsbD 0 = false →
      ∃ t, exec (.fpop d k) s = .next t ∧ preciseTrap s t 0x0F k) ∧
    (guardTrap (.fpopv d k) s = none → (tget 0 (curCtx s).f k).getLsbD 0 = false →
      ∃ t, exec (.fpopv d k) s = .next t ∧ preciseTrap s t 0x0F k) ∧
    ∀ (h : Chan) (e next : Nat), feeds s k h e next →
      let total := feedTotal h / e
      let fault := h.status + (tget 0 (curCtx s).f k).toNat / 2 ^ 3 % 2 ^ 6 * 2 ^ 4 + failingAddr h * 2 ^ 32
      (guardTrap (.fpop d k) s = none → nameable s d → next < total →
        ((next + 1) * e ≤ feedArrived h → elementGood s h e next → ∃ t, exec (.fpop d k) s = .next t ∧ curPc t = curPc s + 4 ∧
          readG t d = (if d = 0 then 0 else BitVec.ofNat 64 (readRun (curSite s).core (feedAddr h (next * e)) e)) ∧ sameMemory s t ∧
          changesOnly (some (.g d)) { core := fun c => { c with found := [] } } (modCurCtx s (feedAfter s k (next + 1) total)) t) ∧
        (feedArrived h < (next + 1) * e → h.ended = false → ∃ t, exec (.fpop d k) s = .next t ∧ waits s t (.feed false k d)) ∧
        (feedArrived h < (next + 1) * e → h.ended = true → h.status ≠ 0 → ∃ t, exec (.fpop d k) s = .next t ∧ preciseTrap s t 0x0B fault)) ∧
      (guardTrap (.fpopv d k) s = none → next < total →
        let m := min (next + 128 / e) total
        (m * e ≤ feedArrived h → (∀ j, next ≤ j → j < m → elementGood s h e j) → ∃ t, exec (.fpopv d k) s = .next t ∧
          curPc t = curPc s + 4 ∧ sameMemory s t ∧
          (∀ j, next ≤ j → j < m → (vGet (curCtx t) d).toNat / 256 ^ (e * (j - next)) % 256 ^ e = readRun (curSite s).core (feedAddr h (j * e)) e) ∧
          (vGet (curCtx t) d).toNat < 256 ^ (e * (m - next)) ∧
          changesOnly (some (.v d)) { core := fun c => { c with found := [] } } (modCurCtx s (feedAfter s k m total)) t) ∧
        (feedArrived h < m * e → h.ended = false → ∃ t, exec (.fpopv d k) s = .next t ∧ waits s t (.feed true k d)) ∧
        (feedArrived h < m * e → h.ended = true → h.status ≠ 0 → ∃ t, exec (.fpopv d k) s = .next t ∧ preciseTrap s t 0x0B fault))

namespace Sys2Proof.Claims

/-- R265 to R268: COPY_ENGINE_SERVE of a running copy: service 0 starts it, with the tables then in force, once the local writes before
it in its stream have performed; service 1 of a source in the core's own store reads the next line and keeps it with its place, and of
a remote core asks for the next bytes with an RLOAD; service 2 of a copy to the core itself that changes no bits writes the next bytes
of its run, all of them read, and no other byte of the local store, and of one to a remote core sends them in a COPYDATA, where
the injection buffer has room for it and no earlier request waits (R283). -/
def CopyServed : Prop :=
  ∀ (s : State) (sid ch : Nat) (h : Chan), tget? (getSite s sid).core.chans ch = some h → h.busy = true → h.ended = false →
    h.status = 0 → (getSite s sid).core.evict.st = .run → (getSite s sid).life = .live → (getSite s sid).dead = false → ch < 48 →
    let x := getSite s sid
    let c := x.core
    (s.arg = [sid, ch, 0] → h.started = false → nextLeg h 0 < h.legs.length → writesDone c h.key h.stream h.startAcc = true →
      let h' : Chan := { h with started := true, tdec := c.tdec, rd := { leg := nextLeg h 0 }, wr := { leg := nextLeg h 0 } }
      ∃ t, exec .copyEngineServe s = .next t ∧ onlySite s t sid ∧
        (getSite t sid).core = { c with chans := tset c.chans ch h' }) ∧
    (∀ a n : Nat, s.arg = [sid, ch, 1] → h.started = true → ¬(h.kind = .halo ∧ isNull (legAt h h.rd).dname = true) → h.rd.leg < h.legs.length → h.wr.leg < h.legs.length →
      let l := legAt h h.rd
      runIn h.sspace (srcAt l h.rd.run) (srcLen h l) = true → a = (srcAt l h.rd.run).toNat + h.rd.off →
      (h.sspace = 0 → n = min (32 - a % 32) (srcLen h l - h.rd.off) → engineFault x h true false a n = false → badRun c a n = none →
        ∃ t, exec .copyEngineServe s = .next t ∧ onlySite s t sid ∧ sameMemory s t ∧
          (tget {} (getSite t sid).core.chans ch).pieces = h.pieces ++ [{ id := h.ids, src := h.rd, n := n, data := some (readRun c a n) }] ∧
          (tget {} (getSite t sid).core.chans ch).rd = nextPlace h h.rd n (srcLen h l)) ∧
      (h.sspace = 1 → n = min (min (srcLen h l - h.rd.off) (32 * max 1 (msgMax x))) (4096 - a % 4096) → inTurn c (chanTurn ch) → 1 ≤ freePlaces c →
        ∃ t j o, exec .copyEngineServe s = .next t ∧ onlySite s t sid ∧ sameMemory s t ∧
          (getSite t sid).core.inj0 = c.inj0 ++ [j] ∧ j.pkt.kind = kRLOAD ∧ j.pkt.dest = l.sname ∧ j.pkt.src = coreName x ∧
          j.pkt.arg0 = BitVec.ofNat 64 a ∧ j.pkt.arg1 = BitVec.ofNat 64 (2 ^ 5 + n * 2 ^ 8) ∧ j.pkt.stream = h.stream ∧ j.pkt.scope = h.scope ∧
          (getSite t sid).core.outs = c.outs ++ [o] ∧ o.seq = j.pkt.seq ∧ o.kind = .copyRead ch h.ids ∧
          (tget {} (getSite t sid).core.chans ch).pieces = h.pieces ++ [{ id := h.ids, src := h.rd, n := n, data := none }])) ∧
    ∀ (a n data : Nat), s.arg = [sid, ch, 2] → h.started = true → h.kind = .cpy → h.shape.sf = h.shape.df →
      h.shape.cells = false → h.wr.leg < h.legs.length →
      let l := legAt h h.wr
      runIn h.dspace (dstAt l h.wr.run) (dstLen h l) = true → a = (dstAt l h.wr.run).toNat + h.wr.off → h.wr.off + n < dstLen h l →
      gathered h h.wr h.wr.off (h.wr.off + n) = some data →
      (h.dspace = 0 → n = min (dstLen h l - h.wr.off) (32 - a % 32) →
        engineFault x h false true a n = false → partialWord c a n = none → lineFree s sid (physOf c a) →
        ∃ t p, exec .copyEngineServe s = .next t ∧ onlySite s t sid ∧ p = physOf c a ∧
          (∀ j, j < n → storeByte t sid (p + j) = BitVec.ofNat 8 (data / 256 ^ j)) ∧
          (∀ q, q < p ∨ p + n ≤ q → storeByte t sid q = storeByte s sid q) ∧
          (tget {} (getSite t sid).core.chans ch).wr = { h.wr with off := h.wr.off + n }) ∧
      (h.dspace = 1 → n = min (dstLen h l - h.wr.off) (min (32 * max 1 (msgMax x)) (4096 - a % 4096)) → inTurn c (chanTurn ch) →
        1 + (n + 31) / 32 ≤ freePlaces c →
        ∃ t j o, exec .copyEngineServe s = .next t ∧ onlySite s t sid ∧ sameMemory s t ∧
          (getSite t sid).core.inj0 = c.inj0 ++ [j] ∧ j.pkt.kind = kCOPYDATA ∧ j.pkt.dest = l.dname ∧ j.pkt.src = coreName x ∧
          j.pkt.arg0 = BitVec.ofNat 64 a ∧ j.pkt.len = (n + 31) / 32 ∧ j.pkt.fmt = h.shape.df ∧ j.pkt.stream = h.stream ∧
          j.pkt.scope = h.scope ∧ j.pkt.cargo.bytes = n ∧ j.pkt.arg1.toNat % 2 ^ 6 = ch % 2 ^ 6 ∧ j.pkt.arg1.toNat / 2 ^ 17 % 4 = 0 ∧
          (∀ k, k < 32 * j.pkt.len → flitsNat j.pkt.payload / 256 ^ k % 256 = if k < n then data / 256 ^ k % 256 else 0) ∧
          (getSite t sid).core.outs = c.outs ++ [o] ∧ o.seq = j.pkt.seq ∧ (∃ last, o.kind = .copyWrite ch h.wr n last) ∧
          (tget {} (getSite t sid).core.chans ch).wr = { h.wr with off := h.wr.off + n })

/-- Line j of n bytes from a local address: its first byte, and how many bytes it has. -/
def lineOf (a n j : Nat) : Nat × Nat :=
  let lo := max a (32 * (a / 32 + j))
  (lo, min (a + n) (32 * (a / 32 + j) + 32) - lo)
/-- Where a COPYDATA's bytes go, and line j of them at its home: what its checks look at, and what is written (R267). -/
def homeAllows (x : Site) (q : Packet) (off : Nat) : Prop :=
  (∀ v ∈ pagesOf off q.cargo.bytes, homeFault x q (4096 * v) (q.arg1.getLsbD 22) false true = none) ∧
    inFirmwareEntries x off q.cargo.bytes = false

/-- R267 to R270: COPYDATA_ARRIVAL of a plain packet takes it, and then writes its lines one after another, in any order, where its
home allows them, and no other byte; with the last one it answers with a REPLY. COPY_COUNTER_PACKET decrements its counter and answers
with a REPLY; COPY_ANSWER of the REPLY to a read keeps the bytes for the channel; COPYACK_PLACEMENT of an ended copy that finds room puts
the COPYACK in the mailbox with an entry in the message queue and frees the channel, and finding none changes nothing (the fields that
R270 does not place are the model's choice, logs 91 and 94). -/
def CopyPackets : Prop :=
  ∀ (s : State) (sid : Nat),
    let x := getSite s sid
    (∀ q, s.arg = [sid] → handles x q → q.kind = kCOPYDATA → ¬(q.len = 0 ∧ q.counter ≠ 0) → x.core.ordReady = [] →
      q.arg1.toNat / 2 ^ 17 % 4 = 0 → 0 < q.cargo.bytes →
      let off := q.arg0.toNat % 2 ^ 21
      ∃ t l, exec .copydataArrival s = .next t ∧ onlySite s t sid ∧ sameMemory s t ∧ (getSite t sid).core.landing = some l ∧ l.pkt = q ∧
        l.copy = none ∧ l.acc = 0 ∧ (∀ j, j ∈ l.left ↔ j < (off % 32 + q.cargo.bytes + 31) / 32) ∧ l.left.Nodup ∧
        (getSite t sid).core.arrivals = x.core.arrivals.eraseP (fun p => p.vc != 2)) ∧
    (∀ (l : Landing) (i j : Nat), s.arg = [sid, i] → x.core.landing = some l → l.pkt.kind = kCOPYDATA → l.copy = none →
      l.left[i]? = some j → l.pkt.arg1.toNat / 2 ^ 17 % 4 = 0 → 0 < l.pkt.cargo.bytes →
      let off := l.pkt.arg0.toNat % 2 ^ 21
      let a := (lineOf off l.pkt.cargo.bytes j).1
      let n := (lineOf off l.pkt.cargo.bytes j).2
      j < (off % 32 + l.pkt.cargo.bytes + 31) / 32 →
      homeAllows x l.pkt off →
      (∀ k, k < (off % 32 + l.pkt.cargo.bytes + 31) / 32 →
        partialWord x.core (lineOf off l.pkt.cargo.bytes k).1 (lineOf off l.pkt.cargo.bytes k).2 = none) → lineFree s sid (physOf x.core a) →
      ∃ t p, exec .copydataArrival s = .next t ∧ onlySite s t sid ∧ p = physOf x.core a ∧
        (∀ k, k < n → storeByte t sid (p + k) = BitVec.ofNat 8 (flitsNat l.pkt.payload / 256 ^ (a - off + k))) ∧
        (∀ b, b < p ∨ p + n ≤ b → storeByte t sid b = storeByte s sid b) ∧
        (1 < l.left.length → (getSite t sid).core.landing = some { l with left := l.left.eraseIdx i } ∧ (getSite t sid).core.inj1 = x.core.inj1) ∧
        (l.left = [j] → (getSite t sid).core.landing = none ∧ answered x (getSite t sid) l.pkt kREPLY 3)) ∧
    (∀ q ct, s.arg = [sid] → handles x q → q.kind = kCOPYDATA → q.len = 0 → q.counter ≠ 0 →
      counterOf x.core q.counter = some ct → ct.handler = 0 → 1 < ct.count →
      ∃ t, exec .copyCounterPacket s = .next t ∧ onlySite s t sid ∧ sameMemory s t ∧
        counterOf (getSite t sid).core q.counter = some { ct with count := ct.count - 1 } ∧ answered x (getSite t sid) q kREPLY 3) ∧
    (∀ p o ch id h, s.arg = [sid] → nextArrival x = some p → p.kind = kREPLY → takesAnswers x = true → malformed x p = false →
      findOut x.core p.seq = some o → o.kind = .copyRead ch id → tget? x.core.chans ch = some h → h.status = 0 →
      h.wr.leg < h.legs.length →
      ∃ t, exec .copyAnswer s = .next t ∧ onlySite s t sid ∧ sameMemory s t ∧ findOut (getSite t sid).core p.seq = none ∧
        ∀ c ∈ h.pieces, ∃ c' ∈ (tget {} (getSite t sid).core.chans ch).pieces, c'.id = c.id ∧ c'.n = c.n ∧
          c'.data = if c.id = id then some (flitsNat p.payload % 256 ^ c.n) else c.data) ∧
    (∀ ch h, s.arg = [sid, ch] → tget? x.core.chans ch = some h → h.busy = true → h.ended = true →
      (mqUsed x.core < 64 → mailRoom x.core 1 = true → ∃ t, exec .copyackPlacement s = .next t ∧ onlySite s t sid ∧
        (tget {} (getSite t sid).core.chans ch).busy = false ∧
        ((∀ st ∈ x.core.strands, ∀ mask d o, st.2.wait ≠ .recv mask d o) → ∃ e, (getSite t sid).core.mq = x.core.mq ++ [e] ∧ e.kind = 1 ∧
          e.owner = some h.grp ∧ (tget? (getSite t sid).core.copies e.copy).isSome ∧
          ∀ c k, tget? (getSite t sid).core.copies e.copy = some c → x.core.mboxPages[c.start / 128]? = some k →
            (k * 4096 + c.start % 128 * 32) / 32 ∉ x.core.frameLines →
            let w := mread (getSite t sid).core.mem (k * 4096 + c.start % 128 * 32) 32
            w / 2 ^ 40 % 2 ^ 4 = kCOPYACK ∧ w / 2 ^ 106 % 2 ^ 6 = ch % 2 ^ 6 ∧ w / 2 ^ 112 % 2 ^ 4 = h.status % 2 ^ 4 ∧
              w / 2 ^ 128 % 2 ^ 64 = doneElems h % 2 ^ 64 ∧ (h.status = 0 → w / 2 ^ 192 = 0))) ∧
      (64 ≤ mqUsed x.core ∨ mailRoom x.core 1 = false → ∃ t, exec .copyackPlacement s = .next t ∧ onlySite s t sid ∧
        getSite t sid = x))

/-- R273: MULTICAST_TILE_ARRIVAL of a tile that comes by the parent's link goes down the links to the router's children, one credit
awaited for each, and is to be written by the checks of its home where the router's core is a member; each of its lines is then written,
and no other byte. MULTICAST_CREDIT of a tile that has been written and for which no credit is awaited takes it off and, at
a router that is not the root, sends its status up the parent's link; a child's credit that arrives is counted, its status kept where it
is the higher (that tiles are written line by line is the model's choice, log 93; credits are read by log 94). -/
def MulticastTiles : Prop :=
  ∀ (s : State) (sid q : Nat),
    let x := getSite s sid
    (∀ port p, s.arg = [sid, q] → inputAt s sid q = some (port, p) → p.kind = kCOPYDATA → p.arg1.toNat / 2 ^ 17 % 4 = 3 → p.vc = 0 → p.prb = false →
      port ≠ 4 → heldFor x p = false → (port < 6 → portPark x port = p.park) →
      let tree := p.arg1.toNat / 2 ^ 23 % 8
      parentPort x tree = some port →
      let mem : Bool := treeLocal x tree && x.life == .live && !x.dead
      (mem = true → evicted x = false ∧ malformed x p = false) → (treeLocal x tree = true → x.dead = false) →
      let off := p.arg0.toNat % 2 ^ 21
      (mem = true → (∀ v ∈ pagesOf off p.cargo.bytes, homeFault x p (4096 * v) false false true = none) ∧
        inFirmwareEntries x off p.cargo.bytes = false) →
      (childPorts x tree = [] ∨ ∃ d n, childPorts x tree = [d] ∧ meshLink s sid d n) →
      ∃ t w, exec .multicastTileArrival s = .next t ∧ sameMemory s t ∧
        (childPorts x tree = [] → onlySite s t sid) ∧ (∀ d n, childPorts x tree = [d] → meshLink s sid d n → onLink s t sid d n p) ∧
        (getSite t sid).router.tiles = x.router.tiles ++ [w] ∧ w.pkt = p ∧ w.left = (childPorts x tree).length ∧ w.status = 0 ∧ w.tree = tree ∧
        w.root = false ∧ w.counter = (if mem = true then p.cargo.counter else 0) ∧
        (mem = true → 0 < p.cargo.bytes → ∀ j, j ∈ w.lines ↔ j < (off % 32 + p.cargo.bytes + 31) / 32) ∧ (mem = false → w.lines = [])) ∧
    (∀ (w : TileWait) (i j : Nat), s.arg = [sid, q, 1, i] → x.router.tiles[q]? = some w → w.lines[i]? = some j → 0 < w.pkt.cargo.bytes →
      let off := w.pkt.arg0.toNat % 2 ^ 21
      let a := (lineOf off w.pkt.cargo.bytes j).1
      let n := (lineOf off w.pkt.cargo.bytes j).2
      j < (off % 32 + w.pkt.cargo.bytes + 31) / 32 → a < 2 ^ 21 → eValid (pmapAt x.core (a / 4096)) = true →
      eW (pmapAt x.core (a / 4096)) = true → inFirmwareEntries x a n = false → partialWord x.core a n = none → lineFree s sid (physOf x.core a) →
      (∀ k v, k < q → x.router.tiles[k]? = some v → v.lines = []) →
      ∃ t b, exec .multicastTileArrival s = .next t ∧ onlySite s t sid ∧ b = physOf x.core a ∧
        (∀ k, k < n → storeByte t sid (b + k) = BitVec.ofNat 8 (flitsNat w.pkt.payload / 256 ^ (a - off + k))) ∧
        (∀ k, k < b ∨ b + n ≤ k → storeByte t sid k = storeByte s sid k) ∧
        (getSite t sid).router.tiles = x.router.tiles.set q { w with lines := w.lines.eraseIdx i }) ∧
    (∀ (w : TileWait) (port n : Nat), s.arg = [sid, q, 0] → x.router.tiles[q]? = some w → w.left = 0 → w.lines = [] → w.counter = 0 →
      w.root = false → parentPort x w.tree = some port → meshLink s sid port n →
      ∃ t c, exec .multicastCredit s = .next t ∧ sameMemory s t ∧ (getSite t sid).router.tiles = x.router.tiles.eraseIdx q ∧
        onLink s t sid port n c ∧ c.kind = kCOPYACK ∧ c.dest = w.pkt.src ∧ c.seq = w.pkt.seq ∧
        c.ks = w.pkt.arg1.toNat % 2 ^ 6 + w.status * 2 ^ 6 ∧ ∀ m, m ≠ sid → m ≠ n → getSite t m = getSite s m) ∧
    ∀ (port i : Nat) (p : Packet) (w : TileWait), s.arg = [sid, q, 1] → inputAt s sid q = some (port, p) → p.kind = kCOPYACK → p.vc = 1 →
      p.prb = false → heldFor x p = false → (port < 6 → portPark x port = p.park) →
      x.router.tiles[i]? = some w → w.pkt.seq = p.seq → w.pkt.src = p.dest →
      (∀ k, k < i → ∀ v, x.router.tiles[k]? = some v → ¬(v.pkt.seq = p.seq ∧ v.pkt.src = p.dest)) →
      ∃ t, exec .multicastCredit s = .next t ∧ onlySite s t sid ∧ sameMemory s t ∧
        (getSite t sid).router.tiles = x.router.tiles.set i { w with left := w.left - 1, status := max w.status (p.ks / 2 ^ 6 % 2 ^ 4) }

end Sys2Proof.Claims

/-- Copies move bytes: the engine's service, copy packets and multicast tiles: `CopyServed`, `CopyPackets`, `MulticastTiles`, together. -/
def Obligations.CopiesMove : Prop :=
  Sys2Proof.Claims.CopyServed ∧ Sys2Proof.Claims.CopyPackets ∧ Sys2Proof.Claims.MulticastTiles

/-! ### The tensor engine (R226 to R256) -/

namespace Sys2Proof.Claims

/-- A tensor slot of the agent's core, and whether its group holds it (R228, R230). -/
def tensorSlot (s : State) (j : Nat) : TSlot := tget {} (curSite s).core.tensor.slots j
def groupHolds (s : State) (j : Nat) : Prop := holdsTslot (curSite s).core (actGrp s) j = true
/-- The checks of R232 and R244 that every queued tensor instruction passes: a place in the queue, and the slot held. -/
def tensorReady (s : State) (j : Nat) : Prop := (curSite s).core.tensor.queue.length < 4 ∧ groupHolds s j

/-- From s to t operation o has joined the queue, and slot j is y: every other slot, register and byte of memory is unchanged, and
the program counter has moved by n. `acc` says whether the operation has an access of its strand. -/
def tensorQueued (s t : State) (o : TOp) (j : Nat) (y : TSlot) (n : Nat) : Prop :=
  (curSite t).core.tensor.queue = (curSite s).core.tensor.queue ++ [o] ∧ o.slot = j ∧ o.key = curKey s ∧ o.grp = actGrp s ∧
  tensorSlot t j = y ∧ (∀ k, k ≠ j → tensorSlot t k = tensorSlot s k) ∧ curPc t = curPc s + BitVec.ofNat 64 n ∧ sameMemory s t
/-- What such an instruction takes out of sight. -/
def tensorHide : Hide where
  core c := { c with tensor := {}, accesses := [], accIds := 0 }

/-- The fields of TCFG and TCFG.z: whether z, slot, address registers, M − 1, N − 1, formats and accumulator. -/
def tcfgForm : Instr → Option (Bool × Nat × Nat × Nat × Nat × Nat × Nat × Nat × Nat)
  | .tcfg d a b m n af bf acc => some (false, d, a, b, m, n, af, bf, acc)
  | .tcfgZ d a b m n af bf acc => some (true, d, a, b, m, n, af, bf, acc)
  | _ => none

/-- R232, R244, R245, R247: TCFG and TCFG.z set the configuration of their slot, whose contents are lost, and join the queue;
TCFG traps TENSOR_SLOT 3 on a live slot, and both 1 on a slot that the group does not hold, 4 on a K of 0 or above 65536 and 5 on a
stride that is no multiple of 4. TZERO makes its slot neither LIVE nor POISONED. While the queue is full neither issues. -/
def TensorConfigured : Prop :=
  (∀ (i : Instr) (s : State) (z : Bool) (d a b m n af bf acc : Nat), tcfgForm i = some (z, d, a, b, m, n, af, bf, acc) →
    guardTrap i s = none → agentStands s →
    let k := (readG s b).toNat % 2 ^ 17
    let sa := (readG s a).toNat % 2 ^ 21
    let sb := (readG s a).toNat / 2 ^ 32 % 2 ^ 21
    (4 ≤ (curSite s).core.tensor.queue.length → exec i s = .next s) ∧
    ((curSite s).core.tensor.queue.length < 4 → ¬groupHolds s d → ∃ t, exec i s = .next t ∧ preciseTrap s t 0x0A (1 + d * 2 ^ 8)) ∧
    (tensorReady s d →
      ((tensorSlot s d).live = true → z = false → ∃ t, exec i s = .next t ∧ preciseTrap s t 0x0A (3 + d * 2 ^ 8)) ∧
      ((tensorSlot s d).live = false ∨ z = true →
        (k = 0 ∨ 65536 < k → ∃ t, exec i s = .next t ∧ preciseTrap s t 0x0A (4 + d * 2 ^ 8)) ∧
        (0 < k → k ≤ 65536 → sa % 4 ≠ 0 ∨ sb % 4 ≠ 0 → ∃ t, exec i s = .next t ∧ preciseTrap s t 0x0A (5 + d * 2 ^ 8)) ∧
        (0 < k → k ≤ 65536 → sa % 4 = 0 → sb % 4 = 0 →
          let conf : TConf := { m := m + 1, n := n + 1, k := k, af := af, bf := bf, int := acc == 1, astride := sa, bstride := sb }
          ∃ t o, exec i s = .next t ∧ o.kind = .tcfg ∧ changesOnly none tensorHide s t ∧
            tensorQueued s t o d { tensorSlot s d with
              conf := some conf, live := false, sf := 0, poison := (tensorSlot s d).poison && !z } 8)))) ∧
  ∀ (s : State) (d : Nat), guardTrap (.tzero d) s = none → tensorReady s d →
    ∃ t o, exec (.tzero d) s = .next t ∧ o.kind = .tzero ∧ changesOnly none tensorHide s t ∧
      tensorQueued s t o d { tensorSlot s d with live := false, poison := false, sf := 0 } 4

/-- The runs of a product's operands: starts of the rows of A and of the columns of B, and the bytes of one (R238, R246). -/
def tensorRuns (s : State) (r stride n : Nat) : List Nat := (List.range n).map fun i => (readG s r).toNat + i * stride

/-- R232, R237, R244, R246, R248 to R250: TMMA, TLDACC, TDRAIN and TDRAIN.F of a configured slot that the group holds and that is
not POISONED, whose runs pass their checks, join the queue with the configuration, format, stream, rounding mode and LFSR state of
their issue and one access of their strand; TMMA and TLDACC make the slot LIVE, the drains make it not LIVE. A slot that is not
configured traps TENSOR_SLOT 2, a POISONED one MACHINE_CHECK 3. -/
def TensorIssued : Prop :=
  ∀ (s : State) (d a b f raw st : Nat), agentStands s → tensorReady s d →
    (∀ i : Instr, i = .tmma d a b st ∨ i = .tldacc d a b f raw st ∨ i = .tdrain d a b f raw st ∨ i = .tdrainF d a b f raw st →
      guardTrap i s = none →
      ((tensorSlot s d).poison = true → ∃ t, exec i s = .next t ∧ preciseTrap s t 0x13 (3 + d * 2 ^ 8)) ∧
      ((tensorSlot s d).poison = false → (tensorSlot s d).conf = none →
        ∃ t, exec i s = .next t ∧ preciseTrap s t 0x0A (2 + d * 2 ^ 8))) ∧
    ∀ cf, (tensorSlot s d).poison = false → (tensorSlot s d).conf = some cf →
      let stride := (readG s b).toNat % 2 ^ 21
      let row := rowBytes f raw cf.n
      let steps := fun loads : Bool => if raw = 0 ∧ roundMode s = 5 then cf.m * (if loads then cf.n else runSteps f cf.n) else 0
      let queued := fun (t : State) (o : TOp) (kind : TKind) (live : Bool) (n k : Nat) =>
        o.kind = kind ∧ o.conf = cf ∧ o.fresh = !(tensorSlot s d).live ∧ o.stream = st ∧ o.acc = some (curSite s).core.accIds ∧
        o.data = none ∧ o.bad = false ∧ o.row = 0 ∧ o.flags = 0 ∧
        changesOnly none tensorHide (modCurCtx s fun x => { x with lfsr := if k = 0 then x.lfsr else BitVec.ofNat 64 (lfsrSteps k (x.lfsr.toNat % 2 ^ 32)) }) t ∧
        tensorQueued s t o d { tensorSlot s d with live := live } n
      (guardTrap (.tmma d a b st) s = none →
        runsFault s (tensorRuns s a cf.astride cf.m) (runBytes cf.af cf.k) 4 st false = none →
        runsFault s (tensorRuns s b cf.bstride cf.n) (runBytes cf.bf cf.k) 4 st false = none →
        ∃ t o, exec (.tmma d a b st) s = .next t ∧ queued t o .tmma true 4 0) ∧
      (guardTrap (.tldacc d a b f raw st) s = none → stride % 4 = 0 → 0 < cf.m → 0 < cf.n → f < 28 →
        runsFault s (tensorRuns s a stride cf.m) row 4 st false = none →
        ∃ t o, exec (.tldacc d a b f raw st) s = .next t ∧ queued t o .tldacc true 8 (steps true) ∧ o.fmt = f ∧ o.raw = (raw == 1) ∧
          o.rm = roundMode s ∧ o.lfsr = lfsrOf s ∧ o.aAddr = (readG s a).toNat ∧ o.stride = stride) ∧
      (guardTrap (.tdrain d a b f raw st) s = none → stride % 4 = 0 → 0 < cf.m → 0 < cf.n → f < 28 →
        runsFault s (tensorRuns s a stride cf.m) row 4 st true = none →
        ∃ t o, exec (.tdrain d a b f raw st) s = .next t ∧ queued t o .tdrain false 8 (steps false) ∧ o.fmt = f ∧ o.raw = (raw == 1) ∧
          o.rm = roundMode s ∧ o.lfsr = lfsrOf s ∧ o.aAddr = (readG s a).toNat ∧ o.stride = stride) ∧
      (guardTrap (.tdrainF d a b f raw st) s = none → 0 < cf.m → 0 < cf.n → f < 28 → (row + 31) / 32 ≤ msgMax (curSite s) →
        runFault s (readG s a).toNat cf.m 1 st false = none →
        ∃ t o, exec (.tdrainF d a b f raw st) s = .next t ∧ queued t o .tdrainF false 8 (steps false) ∧ o.fmt = f ∧ o.raw = (raw == 1) ∧
          o.rm = roundMode s ∧ o.lfsr = lfsrOf s ∧ o.tag = readG s b)

end Sys2Proof.Claims

/-- Tensor instructions configure slots and enter the queue: `TensorConfigured`, `TensorIssued`, together. -/
def Obligations.TensorIssue : Prop :=
  Sys2Proof.Claims.TensorConfigured ∧ Sys2Proof.Claims.TensorIssued

namespace Sys2Proof.Claims

/-- R253: TSTAT writes the state of its slot as it stands at issue, 0 where the group does not hold it; it never traps on its slot and
does not enter the queue. -/
def TensorState : Prop :=
  ∀ (s : State) (d a : Nat), guardTrap (.tstat d a) s = none → nameable s d →
    ∃ t v, exec (.tstat d a) s = .next t ∧ wrote s t d v 4 ∧ (¬groupHolds s a → v = 0) ∧
      (groupHolds s a → (tensorSlot s a).sf < 64 → v.getLsbD 0 = true ∧ v.getLsbD 1 = (tensorSlot s a).conf.isSome ∧
        v.getLsbD 2 = (tensorSlot s a).live ∧ v.getLsbD 4 = (tensorSlot s a).poison ∧
        v.getLsbD 5 = ((curSite s).core.tensor.active == a) ∧ v.toNat / 2 ^ 8 % 2 ^ 6 = (tensorSlot s a).sf ∧
        (v.getLsbD 3 = true ↔ ∃ o ∈ (curSite s).core.tensor.queue ++ (curSite s).core.tensor.fired ++ (curSite s).core.tensor.cur.toList, o.slot = a) ∧
        ((tensorSlot s a).conf = none → v.toNat / 2 ^ 16 % 2 ^ 38 = 0) ∧
        ∀ cf, (tensorSlot s a).conf = some cf → 0 < cf.m → cf.m ≤ 32 → 0 < cf.n → cf.n ≤ 32 → cf.af < 32 → cf.bf < 32 → cf.k < 2 ^ 17 →
          v.toNat / 2 ^ 16 % 2 ^ 5 = cf.m - 1 ∧ v.toNat / 2 ^ 21 % 2 ^ 5 = cf.n - 1 ∧ v.toNat / 2 ^ 26 % 2 ^ 5 = cf.af ∧
          v.toNat / 2 ^ 31 % 2 ^ 5 = cf.bf ∧ v.getLsbD 36 = cf.int ∧ v.toNat / 2 ^ 37 % 2 ^ 17 = cf.k)

/-- The operations that execute, the oldest first. -/
def executing (e : Tensor) : List TOp := e.fired ++ e.cur.toList
/-- R232 to R234, R241, R246, R249: TENSOR_OP_START takes the head of the queue: TCFG and TZERO zero the words of their slot at once, any
other operation begins, its slot active, with the tables then in force; a TMMA may begin beside a TMMA of the same slot whose operands
have all been read (when in its passes that is, is the model's choice, log 155). TENSOR_SLOT_WRITE of the oldest operation that executes,
its operands read, enters a product's elements in the slot, each the chunk sums of its row and column, and its flags in SF;
of a load each element, as it stands with RAW and else converted once in the mode of issue; of one that met an uncorrectable word it
fills the slot with the value that marks it and makes it POISONED. -/
def TensorExecutes : Prop :=
  ∀ (s : State) (sid : Nat), s.arg = [sid] →
    let c := (getSite s sid).core
    let slotAt := fun (t : State) (j : Nat) => tget {} (getSite t sid).core.tensor.slots j
    (∀ o rest, c.tensor.queue = o :: rest → c.evict.st = .run → o.flags = 0 →
      (executing c.tensor = [] ∨ ∃ p, c.tensor.cur = some p ∧ p.kind = .tmma ∧ o.kind = .tmma ∧ p.slot = o.slot ∧ p.data.isSome = true) →
      ∃ t, exec .tensorOpStart s = .next t ∧ onlySite s t sid ∧ sameMemory s t ∧ (getSite t sid).core.tensor.queue = rest ∧
        (o.kind = .tcfg ∨ o.kind = .tzero → executing (getSite t sid).core.tensor = [] ∧ (slotAt t o.slot).words = [] ∧
          (slotAt t o.slot).live = (slotAt s o.slot).live ∧ (slotAt t o.slot).conf = (slotAt s o.slot).conf) ∧
        (¬(o.kind = .tcfg ∨ o.kind = .tzero) → (getSite t sid).core.tensor.active = o.slot ∧
          executing (getSite t sid).core.tensor = executing c.tensor ++ [{ o with table := c.steer, tdec := c.tdec }] ∧
          (getSite t sid).core.tensor.slots = c.tensor.slots)) ∧
    ∀ o rest v, executing c.tensor = o :: rest → o.data = some v → o.kind = .tmma ∨ o.kind = .tldacc →
      ∃ t, exec .tensorSlotWrite s = .next t ∧ executing (getSite t sid).core.tensor = rest ∧
        (∀ j, j ≠ o.slot → slotAt t j = slotAt s j) ∧ (∀ m, m ≠ sid → getSite t m = getSite s m) ∧
        let cf := o.conf
        let word := fun i j => tget 0 (slotAt t o.slot).words (32 * i + j)
        (o.bad = true → (slotAt t o.slot).poison = true ∧ (slotAt t o.slot).sf.testBit 0 = true ∧
          ∀ i j, i < cf.m → j < cf.n → cf.n ≤ 32 → word i j = if cf.int then 0x80000000#32 else 0x7FC00000#32) ∧
        (o.bad = false → o.kind = .tmma → cf.n ≤ 32 →
          let ra := runBytes cf.af cf.k
          let rb := runBytes cf.bf cf.k
          let row := fun i => decodeRun o.tdec cf.af cf.k (v / 256 ^ (ra * i) % 256 ^ ra)
          let col := fun j => decodeRun o.tdec cf.bf cf.k (v / 256 ^ (ra * cf.m + rb * j) % 256 ^ rb)
          let sum := fun i j => elemSum (sumPath cf.af cf.bf) cf.int
            (if o.fresh then 0 else (tget 0 (slotAt s o.slot).words (32 * i + j)).toNat) (row i).1 (col j).1
          (∀ i j, i < cf.m → j < cf.n → word i j = BitVec.ofNat 32 (sum i j).1) ∧
          ∀ k, (slotAt t o.slot).sf.testBit k = true ↔ (slotAt s o.slot).sf.testBit k = true ∨
            (∃ i j, i < cf.m ∧ j < cf.n ∧ (sum i j).2.testBit k = true) ∨ (∃ i, i < cf.m ∧ (row i).2.testBit k = true) ∨
            ∃ j, j < cf.n ∧ (col j).2.testBit k = true) ∧
        (o.bad = false → o.kind = .tldacc → cf.n ≤ 32 → ∀ i j, i < cf.m → j < cf.n →
          (o.raw = true → word i j = BitVec.ofNat 32 (v / 2 ^ (32 * (cf.n * i + j)))) ∧
          (o.raw = false → isBlock o.fmt = false →
            let n := runBytes o.fmt cf.n
            let e := v / 256 ^ (n * i) % 256 ^ n / 2 ^ (fmtBits o.fmt * j) % 2 ^ fmtBits o.fmt
            word i j = BitVec.ofNat 32 (convertKind o.tdec (if cf.int then .int 32 true else .flt fp32) (kindOfFmt o.fmt) e o.rm
              ((drawsFor o.rm (cf.m * cf.n) o.lfsr).1.getD (cf.n * i + j) 0)).1) ∧
          (o.raw = false → isBlock o.fmt = true → ∀ x,
            (decodeRun o.tdec o.fmt cf.n (v / 256 ^ (runBytes o.fmt cf.n * i) % 256 ^ runBytes o.fmt cf.n)).1[j]? = some x →
            word i j = BitVec.ofNat 32 (encodeKind o.tdec (if cf.int then .int 32 true else .flt fp32) x o.rm
              ((drawsFor o.rm (cf.m * cf.n) o.lfsr).1.getD (cf.n * i + j) 0)).1))

/-- The exact products of a chunk's pairs of finite values, with their signs. -/
def chunkProducts (ps xs ys : List Machine.Num) : Prop :=
  ps.length = xs.length ∧ ∀ (i : Nat) (x y : Machine.Num), xs[i]? = some x → ys[i]? = some y → ∃ p, ps[i]? = some p ∧ isProduct p x y ∧ p.neg = (x.neg != y.neg)
/-- A term cut toward zero to a multiple of the unit u, both in units of 2^e0 (R203). -/
def cutTo (u t : Int) : Int := u * t.tdiv u
/-- The result for a sum in units of 2^e0: rounded once into FP32 to nearest even, with the flags of that; an exact zero is −0 only where every
term is −0 (R202, R203). -/
def roundedSum (r : Nat × Nat) (e0 z : Int) (ts : List Machine.Num) (fl : Nat) : Prop :=
  (z = 0 → r = (if ∀ t ∈ ts, t.isZero = true ∧ t.neg = true then 0x80000000 else 0, fl)) ∧
  (z ≠ 0 → ∃ x, isFinite x ∧ e0 ≤ expo x ∧ inUnits e0 x = z ∧ r = ((encodeFloat fp32 x 0 0).1, (encodeFloat fp32 x 0 0).2 ||| fl))

/-- R202, R203, R229: a chunk of a tensor product. Into an FP32 accumulator two block or integer formats, and FP32 with FP32,
add the exact sum of their exact products, rounded once; any other pair first cuts every product and the accumulator toward zero to a
multiple of 2^(e − 40), where e is the exponent of the greatest of them, and sets INEXACT where a bit is lost. Into an INT32 accumulator
the sum is exact and saturates. A NaN among the terms gives the canonical NaN, 0 × ∞ and ∞ − ∞ with INVALID; otherwise an infinite
term gives its infinity. An element is the chunks in rising K, each on the result of the one before: 32 elements, or one of FP32 with FP32, the last
chunk completed with zeros. -/
def TensorSums : Prop :=
  (∀ af bf, af < 28 → bf < 28 → sumPath af bf = if 8 ≤ af ∧ af ≤ 25 ∧ 8 ≤ bf ∧ bf ≤ 25 then 0 else if af = 0 ∧ bf = 0 then 2 else 1) ∧
  (∀ (acc : BitVec 32) (xs ys : List Machine.Num), xs.length = ys.length → (∀ x ∈ xs, isFinite x) → (∀ y ∈ ys, isFinite y) →
    isFinite (decodeFloat fp32 acc.toNat) → ∃ ps, chunkProducts ps xs ys ∧
      let ts := decodeFloat fp32 acc.toNat :: ps
      ∀ e0 : Int, e0 ≤ 0 → (∀ t ∈ ts, e0 ≤ expo t) →
      roundedSum (chunkSum 0 false acc.toNat xs ys) e0 (ts.map (inUnits e0)).sum ts 0 ∧
      roundedSum (chunkSum 2 false acc.toNat xs ys) e0 (ts.map (inUnits e0)).sum ts 0 ∧
      ((∀ t ∈ ts, t.isZero = true) → roundedSum (chunkSum 1 false acc.toNat xs ys) e0 0 ts 0) ∧
      ∀ e : Int, (∃ t ∈ ts, t.isZero = false ∧ 2 ^ (e - e0).toNat ≤ (inUnits e0 t).natAbs) → e0 ≤ e - 40 →
        (∀ t ∈ ts, (inUnits e0 t).natAbs < 2 ^ (e + 1 - e0).toNat) →
        let cut := cutTo ((2 ^ (e - 40 - e0).toNat : Nat) : Int)
        roundedSum (chunkSum 1 false acc.toNat xs ys) e0 (ts.map fun t => cut (inUnits e0 t)).sum ts
          (if ∃ t ∈ ts, cut (inUnits e0 t) ≠ inUnits e0 t then 2 ^ 3 else 0)) ∧
  (∀ (path : Nat) (acc : BitVec 32) (xs ys : List Machine.Num), xs.length = ys.length →
    let A := decodeFloat fp32 acc.toNat
    let pairs := xs.zip ys
    let nan := A.isNan = true ∨ ∃ e ∈ pairs, e.1.isNan = true ∨ e.2.isNan = true
    let bad := ∃ e ∈ pairs, e.1.isInf = true ∧ e.2.isZero = true ∨ e.1.isZero = true ∧ e.2.isInf = true
    let inf := fun n : Bool => A = .inf n ∨ ∃ e ∈ pairs, (e.1.isInf = true ∨ e.2.isInf = true) ∧ e.1.isZero = false ∧ e.2.isZero = false ∧
      e.1.isNan = false ∧ e.2.isNan = false ∧ (e.1.neg != e.2.neg) = n
    (nan ∨ bad ∨ inf false ∧ inf true → (chunkSum path false acc.toNat xs ys).1 % 2 ^ 31 = 0x7FC00000) ∧
    (¬nan → bad ∨ inf false ∧ inf true → chunkSum path false acc.toNat xs ys = (0x7FC00000, 1)) ∧
    (¬nan → ¬bad → inf false → ¬inf true → chunkSum path false acc.toNat xs ys = (0x7F800000, 0)) ∧
    (¬nan → ¬bad → inf true → ¬inf false → chunkSum path false acc.toNat xs ys = (0xFF800000, 0))) ∧
  (∀ (acc : BitVec 32) (l : List (Int × Int)),
    let z := acc.toInt + (l.map fun e => e.1 * e.2).sum
    let r := chunkSum 0 true acc.toNat (l.map fun e => numOfInt e.1) (l.map fun e => numOfInt e.2)
    (BitVec.ofNat 32 r.1).toInt = max (-2 ^ 31) (min (2 ^ 31 - 1) z) ∧ (r.2 = if z < -2 ^ 31 ∨ 2 ^ 31 - 1 < z then 2 ^ 4 else 0)) ∧
  ∀ (path : Nat) (int : Bool) (acc : Nat) (xs ys : List Machine.Num), xs.length = ys.length →
    let n := if path = 2 then 1 else 32
    let pad := fun l : List Machine.Num => l ++ List.replicate (n - l.length) (.fin false 0 0)
    (xs.length ≤ n → xs ≠ [] → elemSum path int acc xs ys = chunkSum path int acc (pad xs) (pad ys)) ∧
    (n < xs.length →
      let r := chunkSum path int acc (xs.take n) (ys.take n)
      let q := elemSum path int r.1 (xs.drop n) (ys.drop n)
      (elemSum path int acc xs ys).1 = q.1 ∧ ∀ k, (elemSum path int acc xs ys).2.testBit k = (r.2.testBit k || q.2.testBit k))

/-- The destinations that a steering value selects: the valid ways of its row of the table, from a way on (R250). -/
def steeredWay (o : TOp) (w : Nat) : Prop :=
  w < 4 ∧ o.way ≤ w ∧ (tget 0 o.table (4 * steerVal o o.row + w)).getLsbD 31 = true ∧
  ∀ k, o.way ≤ k → k < w → (tget 0 o.table (4 * steerVal o o.row + k)).getLsbD 31 = false

/-- R248, R250, R251: DRAIN_ROW_WRITE of a piece of the row at hand writes the converted row's bytes there and no other byte of the local
store; STEERED_ROW_SEND sends the row at hand to the next destination that its steering value selects, as a DATA packet with the
destination's name, its handler or counter, the tag and the row as payload. -/
def TensorDrains : Prop :=
  ∀ (s : State) (sid : Nat) (o : TOp),
    let c := (getSite s sid).core
    c.tensor.cur = some o → c.evict.st = .run →
    (∀ k a n l, s.arg = [sid, k] → o.kind = .tdrain → o.left = some l → l[k]? = some (a, n) → 1 < l.length → accessFirst c o = true →
      rowStart o ≤ a →
      let p := physVia c ((c.accesses.find? fun y => some y.id == o.acc).elim [] fun y => y.via) a
      lineFree s sid p →
      ∃ t, exec .drainRowWrite s = .next t ∧ onlySite s t sid ∧
        (∀ j, j < n → storeByte t sid (p + j) = BitVec.ofNat 8 ((drainRow o (tget {} c.tensor.slots o.slot) o.row).1 / 256 ^ (a - rowStart o + j))) ∧
        (∀ q, q < p ∨ p + n ≤ q → storeByte t sid q = storeByte s sid q) ∧
        (getSite t sid).core.tensor.cur = some { o with
          left := some (l.eraseIdx k), flags := o.flags ||| (drainRow o (tget {} c.tensor.slots o.slot) o.row).2 }) ∧
    ∀ w, s.arg = [sid] → o.kind = .tdrainF → o.data.isSome = true → steeredWay o w → inTurn c steerTurn →
      1 + (rowLen o + 31) / 32 ≤ freePlaces c →
      ∃ (t : State) (j : Inj), exec .steeredRowSend s = .next t ∧ onlySite s t sid ∧ sameMemory s t ∧
        (getSite t sid).core.inj0 = c.inj0 ++ [j] ∧
        (let e := (tget 0 o.table (4 * steerVal o o.row + w)).toNat
         j.pkt.kind = kDATA ∧ j.pkt.dest = e % 2 ^ 20 ∧ j.pkt.stream = o.stream ∧ j.pkt.arg0 = o.tag ∧
         j.pkt.len = (rowLen o + 31) / 32 ∧
         (if e.testBit 30 then j.pkt.counter = e / 2 ^ 20 % 2 ^ 10 ∧ j.pkt.handler = 0
          else j.pkt.handler = e / 2 ^ 20 % 2 ^ 10 ∧ j.pkt.counter = 0) ∧
         j.pkt.arg1 = BitVec.ofNat 64 (o.row + steerVal o o.row * 2 ^ 8 + (if o.raw then 2 ^ 12 else 0) + o.slot * 2 ^ 13) ∧
         j.pkt.payload = natFlits (drainRow o (tget {} c.tensor.slots o.slot) o.row).1 j.pkt.len) ∧
        ∃ o', (getSite t sid).core.tensor.cur = some o' ∧ o'.way = w + 1 ∧ o'.row = o.row

end Sys2Proof.Claims

/-- Tensor operations execute: slot state, products, drains and loads: `TensorState`, `TensorExecutes`, `TensorSums`, `TensorDrains`, together. -/
def Obligations.TensorExecution : Prop :=
  Sys2Proof.Claims.TensorState ∧ Sys2Proof.Claims.TensorExecutes ∧ Sys2Proof.Claims.TensorSums ∧ Sys2Proof.Claims.TensorDrains

/-! ### Groups and the Tumbler (R97 to R136) -/

namespace Sys2Proof.Claims

/-- The agent acts for a strand of group g: its own, or in S the presented one's (R130). -/
def actsFor (s : State) (k g : Nat) (gr : Group) : Prop :=
  actSlot s = some k ∧ (slotOf (curSite s).core k).grp = g ∧ (slotOf (curSite s).core k).idx < 16 ∧ groupOf (curSite s).core g = some gr
/-- What the Tumbler's instructions change beside a register, out of sight. -/
def tumblerHide : Hide where
  core c := { c with tum := {}, groups := [], pmap := [] }

/-- ACQ and TACQ: class, whether it waits until granted, result and count registers. -/
def acqForm : Instr → Option (Nat × Bool × Nat × Nat)
  | .acqB d a => some (0, true, d, a)
  | .acqL d a => some (1, true, d, a)
  | .acqT d a => some (2, true, d, a)
  | .acqC d a => some (3, true, d, a)
  | .tacqB d a => some (0, false, d, a)
  | .tacqL d a => some (1, false, d, a)
  | .tacqT d a => some (2, false, d, a)
  | .tacqC d a => some (3, false, d, a)
  | _ => none
/-- A count of a class in a packed resource vector (R116). -/
def countIn (w : Word) (k : Nat) : Nat := w.toNat / 2 ^ (16 * k) % 2 ^ 16

/-- R116, R130 to R132, R135, R136: CLAIM lowers the group's claim to a vector between what it holds and the claim, makes a
re-evaluation and an admission evaluation due from the next cycle on, and otherwise traps CLAIM 2 or 3. ACQ and TACQ of n of a class: beyond the need ACQ traps
CLAIM 1 with the class and the count and TACQ writes status 3; of none they complete with 0 (a channel count for .c); else the
request goes to the Tumbler and the context waits with reason 5. QRES writes the vector, or the strand's bank mask, that its
selector names. -/
def ResourcesAsked : Prop :=
  ∀ (s : State) (k g : Nat) (gr : Group), actsFor s k g gr → agentStands s →
    let x := curSite s
    (∀ a, guardTrap (.claim a) s = none →
      let new := rvecOf (readG s a)
      ((∀ c, c < 4 → new.at c = countIn (readG s a) c) ∧
       (¬(∀ c, c < 4 → new.at c ≤ gr.claim.at c) → ∃ t, exec (.claim a) s = .next t ∧ preciseTrap s t 0x07 2) ∧
       ((∀ c, c < 4 → new.at c ≤ gr.claim.at c) → ¬(∀ c, c < 4 → (held x g).at c ≤ new.at c) →
          ∃ t, exec (.claim a) s = .next t ∧ preciseTrap s t 0x07 3) ∧
       ((∀ c, c < 4 → new.at c ≤ gr.claim.at c) → (∀ c, c < 4 → (held x g).at c ≤ new.at c) →
          ∃ t, exec (.claim a) s = .next t ∧ groupOf (curSite t).core g = some { gr with claim := new } ∧
            (∀ h, h ≠ g → groupOf (curSite t).core h = groupOf x.core h) ∧
            (settleTumbler (curSite t).core.tum).reeval = true ∧ (settleTumbler (curSite t).core.tum).evaluate = true ∧ (curSite t).core.pmap = x.core.pmap ∧ curPc t = curPc s + 4 ∧ sameMemory s t ∧
            changesOnly none tumblerHide s t))) ∧
    (∀ (i : Instr) (c d a : Nat) (wait : Bool), acqForm i = some (c, wait, d, a) → guardTrap i s = none → nameable s d →
      let n := (readG s a).toNat
      let low := n % 2 ^ 32 * 2 ^ 32
      let fits := c = 0 → (strandBanks x.core (actKey s)).length + n ≤ 6
      (¬fits → ∃ t, exec i s = .next t ∧ preciseTrap s t 0x06 (2 + low)) ∧
      (fits → (need x g).at c < n → wait = true → ∃ t, exec i s = .next t ∧ preciseTrap s t 0x07 (1 + c * 16 + low)) ∧
      (fits → (need x g).at c < n → wait = false → ∃ t, exec i s = .next t ∧ wrote s t d 3 4) ∧
      (fits → n = 0 → ∃ t, exec i s = .next t ∧
        wrote s t d (BitVec.ofNat 64 ((if c = 3 then gr.chans else 0) * (if wait then 1 else 2 ^ 8))) 4) ∧
      (fits → 0 < n → n ≤ (need x g).at c → ∃ t, exec i s = .next t ∧ (strandOf (curSite t).core (curKey s)).wait = .tumbler ∧
        Wait.tumbler.reason = 5 ∧ curPc t = curPc s ∧ (∀ r, readG t r = readG s r) ∧ sameMemory s t ∧
        (curSite t).core.tum.asked = x.core.tum.asked ++ [.acq (curKey s) (actKey s) c n wait d gr.prio x.core.tum.order])) ∧
    ∀ d b, guardTrap (.qres d b) s = none → nameable s d → b < 4 →
      ∃ t v, exec (.qres d b) s = .next t ∧ wrote s t d v 4 ∧
        (b = 0 → v = rvecWord gr.claim) ∧ (b = 1 → v = rvecWord (held x g)) ∧ (b = 2 → v = rvecWord (available x)) ∧
        (b = 3 → v = BitVec.ofNat 64 (3 + ((strandBanks x.core (actKey s)).map fun e => 2 ^ e.1).sum))

/-- From s to t the releases l have been issued; nothing but the Tumbler's state (and, of pages, the page map) changes, and
the program counter moves on. -/
def releasesIssued (s t : State) (l : List Release) : Prop :=
  (curSite t).core.tum.releases = (curSite s).core.tum.releases ++ l ∧ curPc t = curPc s + 4 ∧ sameMemory s t ∧
  (curSite t).core.groups = (curSite s).core.groups ∧ changesOnly none tumblerHide s t
/-- A page of a run that a group may release: a pool page it owns (R133). -/
def ownsPage (x : Site) (g v : Nat) : Prop := ePool x (pmapAt x.core v) = true ∧ eOwner (pmapAt x.core v) = g

/-- R128, R133, R134, R136: REL.b, REL.l, REL.t and REL.c of what the strand or group holds issue their releases, which take effect
later; pages are unmapped at once; RELALL issues them all, and marks every channel that a copy occupies to return when its copy ends. A
release of something that is not held traps RELEASE_INVALID with the class and the operand, and releases nothing; of nothing (a mask or a
count of 0) it is valid and releases nothing (that REL.l of no pages traps at a base that no page could have is the model's reading, log 38). -/
def ResourcesReleased : Prop :=
  ∀ (s : State) (k g : Nat) (gr : Group), actsFor s k g gr → agentStands s →
    let x := curSite s
    let wrong := fun (c a : Nat) => c + 1 + c * 16 + (readG s a).toNat % 2 ^ 32 * 2 ^ 32
    (∀ a, guardTrap (.relB a) s = none →
      let m := (readG s a).toNat
      let mine := m % 4 = 0 ∧ m < 256 ∧ ∀ b, b < 8 → m.testBit b = true → ∃ p, (b, p) ∈ strandBanks x.core (actKey s)
      (¬mine → ∃ t, exec (.relB a) s = .next t ∧ preciseTrap s t 0x08 (wrong 0 a)) ∧
      (mine → ∃ t, exec (.relB a) s = .next t ∧ releasesIssued s t (if m = 0 then [] else [.banks (actKey s) m]))) ∧
    (∀ a b, guardTrap (.relL a b) s = none →
      let base := (readG s a).toNat
      let n := (readG s b).toNat
      let mine := base % 4096 = 0 ∧ base + 4096 * n ≤ 0x200000 ∧ ∀ i, i < n → ownsPage x g (base / 4096 + i)
      (0 < n → ¬mine → ∃ t, exec (.relL a b) s = .next t ∧ preciseTrap s t 0x08 (wrong 1 a)) ∧
      (n = 0 → ¬(base % 4096 = 0 ∧ base ≤ 0x200000) → ∃ t, exec (.relL a b) s = .next t ∧ preciseTrap s t 0x08 (wrong 1 a)) ∧
      (mine → ∃ t l, exec (.relL a b) s = .next t ∧ releasesIssued s t l ∧ (n = 0 → l = []) ∧
        (0 < n → ∃ behind, l = [.pages g ((List.range n).map fun i => (base / 4096 + i, ePhys (pmapAt x.core (base / 4096 + i)))) behind]) ∧
        ∀ v, pmapAt (curSite t).core v =
          if base / 4096 ≤ v ∧ v < base / 4096 + n then pmapAt x.core v - 2 ^ 19 * (pmapAt x.core v / 2 ^ 19 % 2) else pmapAt x.core v)) ∧
    (∀ a, guardTrap (.relT a) s = none →
      let m := (readG s a).toNat
      let mine := m < 256 ∧ ∀ j, j < 8 → m.testBit j = true → groupHolds s j
      (¬mine → ∃ t, exec (.relT a) s = .next t ∧ preciseTrap s t 0x08 (wrong 2 a)) ∧
      (mine → ∃ t, exec (.relT a) s = .next t ∧ (curSite t).core.pmap = x.core.pmap ∧
        releasesIssued s t (((List.range 8).filter m.testBit).map (Release.slot g)))) ∧
    (∀ a, guardTrap (.relC a) s = none →
      let n := (readG s a).toNat
      (gr.chans - occupied x.core g < n → ∃ t, exec (.relC a) s = .next t ∧ preciseTrap s t 0x08 (wrong 3 a)) ∧
      (n ≤ gr.chans - occupied x.core g → ∃ t, exec (.relC a) s = .next t ∧ (curSite t).core.pmap = x.core.pmap ∧
        releasesIssued s t (if n = 0 then [] else [.chan g n]))) ∧
    (guardTrap .relall s = none → ∃ t l, exec .relall s = .next t ∧
      (curSite t).core.tum.releases = x.core.tum.releases ++ l ∧ curPc t = curPc s + 4 ∧ sameMemory s t ∧ (curSite t).core.groups = x.core.groups ∧
      changesOnly none { core := fun c => { c with tum := {}, pmap := [], chans := [] } } s t ∧
      (∀ n, tget? (curSite t).core.chans n = (tget? x.core.chans n).map fun h => if h.busy && h.grp == g then { h with leaves := true } else h) ∧
      (∀ i ∈ gr.live, strandBanks x.core (16 * g + i) ≠ [] → .banks (16 * g + i) 0xFC ∈ l) ∧
      (∀ v, ownsPage x g v → eValid (pmapAt (curSite t).core v) = false) ∧ (∀ j, groupHolds s j → .slot g j ∈ l) ∧
      (occupied x.core g < gr.chans → .chan g (gr.chans - occupied x.core g) ∈ l))

end Sys2Proof.Claims

/-- The Tumbler's instructions: asking for and releasing resources: `ResourcesAsked`, `ResourcesReleased`, together. -/
def Obligations.ResourcesAskedAndReleased : Prop :=
  Sys2Proof.Claims.ResourcesAsked ∧ Sys2Proof.Claims.ResourcesReleased

namespace Sys2Proof.Claims

/-- R98, R113, R157: EXIT ends its strand: its slot is free, what the core kept for it is gone, its banks belong to no strand, its group
has one strand less and is DRAINING when it was the last; GROUP_LEAVES_DRAINING frees the number of a group whose outstanding work
has ended. -/
def StrandsAndGroupsEnd : Prop :=
  (∀ (s : State) (sid k g : Nat) (gr : Group), s.cur = .strand sid k → standing s sid k → actsFor s k g gr → guardTrap .exit s = none →
    let key := slotKey (slotOf (getSite s sid).core k)
    ∃ t, exec .exit s = .next t ∧ sameMemory s t ∧ onlySite s t sid ∧ (slotOf (getSite t sid).core k).st = .free ∧
      (∀ j, j ≠ k → slotOf (getSite t sid).core j = slotOf (getSite s sid).core j) ∧
      (∀ e ∈ (getSite t sid).core.bankOf, e.2 ≠ key) ∧ strandOf (getSite t sid).core key = {} ∧
      ∃ gr', groupOf (getSite t sid).core g = some gr' ∧ gr'.live = gr.live.filter (fun i => i != key % 16) ∧
        (gr'.live = [] → gr'.st = .draining) ∧ (gr'.live ≠ [] → gr'.st = gr.st) ∧ gr'.claim = gr.claim ∧ gr'.slotsT = gr.slotsT ∧
        gr'.chans = gr.chans) ∧
  ∀ (s : State) (sid g : Nat) (gr : Group), s.arg = [sid, g] → groupOf (getSite s sid).core g = some gr → gr.st = .draining →
    ∃ t, exec .groupLeavesDraining s = .next t ∧ sameMemory s t ∧ onlySite s t sid ∧
      (drained (getSite s sid).core g = false → getSite t sid = getSite s sid) ∧
      (drained (getSite s sid).core g = true → groupOf (getSite t sid).core g = none ∧
        (∀ h, h ≠ g → groupOf (getSite t sid).core h = groupOf (getSite s sid).core h) ∧
        (∀ e ∈ (getSite t sid).core.bankOf, e.2 / 16 ≠ g) ∧ (settleTumbler (getSite t sid).core.tum).reeval = true)

/-- From s to t the wait of the strand in slot k has ended with v in gd. -/
def answeredWith (s t : State) (sid key k d : Nat) (v : Nat) : Prop :=
  (strandOf (getSite t sid).core key).wait = .none ∧ readG (seenBy t sid k) d = (if d = 0 then 0 else BitVec.ofNat 64 v) ∧ sameMemory s t
/-- R119 to R126: SAFETY_TEST_END of a test that may end. Found to fit and safe and not stale, a request of n is granted and its result
written, the status first for TACQ. Of channels the group holds n more; of banks the strand has n free ones at its lowest unmapped
numbers, all of their registers zero; of slots the group has the lowest n that none holds, not live; of pages the lowest run of n unmapped ones is
mapped for the group with R and W, and the strand waits until they are zeroed. A TACQ that is not granted gets status 1 where the
resources do not fit and 2 where they fit and are not safe; an ACQ that is not granted joins the waiters; of one found good on a stale
snapshot the test starts again. TUMBLER_REEVALUATION begins a pass over every waiter. -/
def TumblerTests : Prop :=
  ∀ (s : State) (sid : Nat),
    let x := getSite s sid
    (∀ (i : Nat) (e : TTest) (key who c n d prio order k : Nat) (wait : Bool), s.arg = [sid, i] → x.core.tum.tests[i]? = some e →
      e.ready ≤ s.time → e.req = .acq key who c n wait d prio order →
      let good := fitsTest x e = true ∧ safeTest x e = true
      let g := who / 16
      let word := fun v : Nat => v * (if wait then 1 else 2 ^ 8)
      (good → stale x e = false → ∀ gr, groupOf x.core g = some gr → reaches s sid key k d →
        (c = 3 → ∃ t, exec .safetyTestEnd s = .next t ∧ groupOf (getSite t sid).core g = some { gr with chans := gr.chans + n } ∧
          answeredWith s t sid key k d (word (gr.chans + n)) ∧ (getSite t sid).core.tum.tests = x.core.tum.tests.eraseIdx i) ∧
        (c = 2 → ∃ t, exec .safetyTestEnd s = .next t ∧
          groupOf (getSite t sid).core g = some { gr with slotsT := gr.slotsT ++ (freeTslots x.core).take n } ∧
          answeredWith s t sid key k d (word (((freeTslots x.core).take n).map fun j => 2 ^ j).sum) ∧
          ∀ j ∈ (freeTslots x.core).take n, (tget {} (getSite t sid).core.tensor.slots j).live = false) ∧
        (c = 0 → who = key → n ≤ (freeNumbers x.core key).length → n ≤ (freeBanks x.core).length →
          (∀ b ∈ strandBanks x.core key, b.2 ∉ freeBanks x.core) →
          ∃ t, exec .safetyTestEnd s = .next t ∧
            answeredWith s t sid key k d (word (((freeNumbers x.core key).take n).map fun j => 2 ^ j).sum) ∧
            (∀ j ∈ (freeNumbers x.core key).take n, ∃ b, tget? (slotOf (getSite t sid).core k).ctx.banks j = some b ∧ b ∈ freeBanks x.core ∧
              tget? (getSite t sid).core.bankOf b = some key ∧ ∀ r, r < 8 → readG (seenBy t sid k) (8 * j + r) = 0) ∧
            ∀ j, j ∉ (freeNumbers x.core key).take n →
              tget? (slotOf (getSite t sid).core k).ctx.banks j = tget? (slotOf x.core k).ctx.banks j) ∧
        (c = 1 → 0 < n → n ≤ (freePool x).length → g < 16 → ∀ v, v + n ≤ 512 → (∀ j, j < n → pageFree x.core (v + j) = true) →
          (∀ w, w < v → ∃ j, j < n ∧ pageFree x.core (w + j) = false) →
          ∃ t, exec .safetyTestEnd s = .next t ∧ sameMemory s t ∧
            (strandOf (getSite t sid).core key).wait = .zeroing d (BitVec.ofNat 64 (word (4096 * v))) ∧
            (∀ j p, j < n → (freePool x)[j]? = some p →
              let w := pmapAt (getSite t sid).core (v + j)
              eValid w = true ∧ ePhys w = p ∧ eOwner w = g ∧ eR w = true ∧ eW w = true ∧ eX w = false ∧ eE w = false ∧ eS w = false) ∧
            (∀ w, w < v ∨ v + n ≤ w → pmapAt (getSite t sid).core w = pmapAt x.core w) ∧
            ∃ z, (getSite t sid).core.tum.zeroing = x.core.tum.zeroing ++ [z] ∧ z.pages = (freePool x).take n ∧ z.forKey = some key ∧
              z.ready = s.time + 8 * n)) ∧
      (good → stale x e = true → ∃ t, exec .safetyTestEnd s = .next t ∧ sameMemory s t ∧ (getSite t sid).core.groups = x.core.groups ∧
        (strandOf (getSite t sid).core key).wait = (strandOf x.core key).wait ∧
        (e.req ∈ (getSite t sid).core.tum.restarts ∨ ∃ e' ∈ (getSite t sid).core.tum.tests, e'.req = e.req ∧ e'.vecs = counted x)) ∧
      (¬good → wait = false → reaches s sid key k d →
        ∃ t, exec .safetyTestEnd s = .next t ∧ answeredWith s t sid key k d (if fitsTest x e then 2 else 1) ∧
          (getSite t sid).core.groups = x.core.groups) ∧
      (¬good → wait = true → (∀ r ∈ x.core.tum.waiters, r.order ≠ order) →
        ∃ t r, exec .safetyTestEnd s = .next t ∧ (getSite t sid).core.tum.waiters = x.core.tum.waiters ++ [r] ∧ r.prio = prio ∧
          (getSite t sid).core.groups = x.core.groups ∧ sameMemory s t)) ∧
    (s.arg = [sid] → x.core.tum.reeval = true → passing x.core.tum = false →
      ∃ t, exec .tumblerReevaluation s = .next t ∧ onlySite s t sid ∧
        (getSite t sid).core = { x.core with tum := { x.core.tum with reeval := false, pass := x.core.tum.waiters.map TReq.order } })

/-- Every group of a list, of what they hold and may still ask for, finishes in its turn (R119): the next one's need is within what is
available and what those before it held. -/
def finishInOrder : List (RVec × RVec) → RVec → Prop
  | [], _ => True
  | e :: l, w => rvLe e.2 w = true ∧ finishInOrder l (rvAdd w e.1)
/-- Every group can finish, in some order. -/
def allFinish (l : List (RVec × RVec)) (w : RVec) : Prop := ∃ l', l'.Perm l ∧ finishInOrder l' w
/-- The groups of a core with what they hold and may ask for, and what no group holds. -/
def groupVectors (x : Site) : List (Nat × RVec × RVec) :=
  (List.range 16).filterMap fun g => (groupOf x.core g).map fun _ => (g, held x g, need x g)
def unheld (x : Site) : RVec := rvSub (allocatable x) ((groupVectors x).foldl (fun v e => rvAdd v e.2.1) {})

/-- R117, R119: the safety procedure finds exactly the states in which every group can finish in some order; and a grant that is
committed on a right snapshot leaves such a state. -/
def GrantsStaySafe : Prop :=
  (∀ l w, safe l w = true ↔ allFinish l w) ∧
  ∀ (s : State) (sid i : Nat) (e : TTest) (key who c n d prio order : Nat) (wait : Bool),
    let x := getSite s sid
    s.arg = [sid, i] → x.core.tum.tests[i]? = some e → e.ready ≤ s.time → e.req = .acq key who c n wait d prio order → c < 4 →
    e.vecs = groupVectors x → e.avail = unheld x → fitsTest x e = true → safeTest x e = true → stale x e = false →
    who < 256 → (groupOf x.core (who / 16)).isSome → (strandOf x.core who).saved = none →
    (c = 0 → n ≤ (freeBanks x.core).length ∧ n ≤ (freeNumbers x.core who).length) → (c = 1 → n ≤ (freePool x).length) →
    (c = 2 → n ≤ (freeTslots x.core).length) →
    ∃ t, exec .safetyTestEnd s = .next t ∧ allFinish ((groupVectors (getSite t sid)).map fun e => e.2) (unheld (getSite t sid))

/-- R105, R106, R42: ADMISSION_EVALUATION, when one is due and no group waits to be resumed, has the head of the highest class
tested where a number is free and the slots suffice; SAFETY_TEST_END of such a test that passes admits the group: the strands stand
READY in the lowest free slots, in index order, with the entry point and the registers of R42: every register that a strand can name is zero
but g1 to g7 and the LFSR. -/
def GroupsAdmitted : Prop :=
  ∀ (s : State) (sid : Nat),
    let x := getSite s sid
    (∀ cls q, s.arg = [sid] → evaluationDue x.core = true → x.core.tum.urgent = false → oldestPreempted x.core = none →
      headClass x.core = some cls → headOf x.core cls = some q → q.entry.nstr + 1 ≤ (freeSlots x.core).length →
      (∃ n, n < 16 ∧ groupOf x.core n = none) →
      ∃ t, exec .admissionEvaluation s = .next t ∧ onlySite s t sid ∧ (getSite t sid).core = { x.core with tum := { x.core.tum with
        evaluate := false, asked := x.core.tum.asked ++ [.queueHead cls x.core.tum.order], order := x.core.tum.order + 1 } }) ∧
    ∀ i e cls o q g, s.arg = [sid, i] → x.core.tum.tests[i]? = some e → e.ready ≤ s.time → e.req = .queueHead cls o →
      headOf x.core cls = some q → fitsTest x e = true → safeTest x e = true → stale x e = false →
      q.entry.nstr + 1 ≤ (freeSlots x.core).length → g < 16 → groupOf x.core g = none → (∀ h, h < g → groupOf x.core h ≠ none) →
      ∃ t gr, exec .safetyTestEnd s = .next t ∧ groupOf (getSite t sid).core g = some gr ∧ gr.st = .running ∧ gr.prio = q.entry.prio ∧
        gr.wid = q.wid ∧ gr.claim = q.entry.claim ∧ gr.chans = q.entry.grant.c ∧ gr.live = List.range (q.entry.nstr + 1) ∧
        tget [] (getSite t sid).core.invq cls = (tget [] x.core.invq cls).tail ∧
        ∀ j k, j < q.entry.nstr + 1 → (freeSlots x.core)[j]? = some k →
          let y := slotOf (getSite t sid).core k
          y.st = .ready ∧ y.grp = g ∧ y.idx = j ∧ y.ctx.pc = BitVec.ofNat 64 q.entry.pc ∧ tget 0 y.ctx.g 1 = q.g1 ∧
          tget 0 y.ctx.g 2 = BitVec.ofNat 64 j ∧ tget 0 y.ctx.g 3 = q.wid ∧ tget 0 y.ctx.g 4 = q.g4 ∧ tget 0 y.ctx.g 5 = q.g5 ∧
          tget 0 y.ctx.g 6 = q.g6 ∧ (∀ r, 8 ≤ r → r < 64 → readG (seenBy t sid k) r = 0) ∧
          (q.entry.grant.l = 0 → tget 0 y.ctx.g 7 = 0) ∧
          (0 < q.entry.grant.l → ∀ v, pageRun x.core q.entry.grant.l = some v → tget 0 y.ctx.g 7 = BitVec.ofNat 64 (4096 * v)) ∧
          (∀ r, vGet y.ctx r = 0) ∧ (∀ r, 1 ≤ r → qGet y.ctx r = 0) ∧ (∀ r, mGet y.ctx r = 0) ∧ (∀ r, (tget 0 y.ctx.f r).getLsbD 0 = false) ∧
          y.ctx.fpflags = 0 ∧ y.ctx.fpctl = 0 ∧ y.ctx.lfsr = BitVec.ofNat 64 ((reg x 0x047 + j) % 2 ^ 32)

end Sys2Proof.Claims

/-- Safety tests grant or make wait; groups are admitted: `TumblerTests`, `GrantsStaySafe`, `GroupsAdmitted`, together. -/
def Obligations.SafetyTestsAndAdmission : Prop :=
  Sys2Proof.Claims.TumblerTests ∧ Sys2Proof.Claims.GrantsStaySafe ∧ Sys2Proof.Claims.GroupsAdmitted

namespace Sys2Proof.Claims

/-- R122, R125, R128: RELEASE_APPLY of a slot on which nothing is queued or executing takes it from the group, and of channels those that no
copy occupies, and makes a re-evaluation due; PAGE_ZEROING_DONE makes a line of the granted pages zero and leaves every other byte, and
the last one lets the group, or the strand with its result, that waited for it go on. -/
def ReleasesTakeEffect : Prop :=
  ∀ (s : State) (sid i : Nat),
    let c := (getSite s sid).core
    (∀ g n gr, s.arg = [sid, i] → c.tum.releases[i]? = some (.chan g n) → groupOf c g = some gr →
      ∃ t, exec .releaseApply s = .next t ∧ onlySite s t sid ∧ sameMemory s t ∧
        groupOf (getSite t sid).core g = some { gr with chans := gr.chans - min n (gr.chans - occupied c g) } ∧
        (getSite t sid).core.tum.releases = c.tum.releases.eraseIdx i ∧ (getSite t sid).core.tum.reeval = true) ∧
    (∀ g j gr, s.arg = [sid, i] → c.tum.releases[i]? = some (.slot g j) → groupOf c g = some gr →
      ∃ t, exec .releaseApply s = .next t ∧ onlySite s t sid ∧ sameMemory s t ∧
        (tslotBusy c j = true → getSite t sid = getSite s sid) ∧
        (tslotBusy c j = false → groupOf (getSite t sid).core g = some { gr with slotsT := gr.slotsT.filter fun k => k != j } ∧
          (getSite t sid).core.tum.releases = c.tum.releases.eraseIdx i ∧ (getSite t sid).core.tum.reeval = true)) ∧
    ∀ (z : Zeroing) (j l : Nat), s.arg = [sid, i, j] → c.tum.zeroing[i]? = some z → z.lines[j]? = some l → lineFree s sid (32 * l) →
      (1 < z.lines.length ∨ z.ready ≤ s.time) → (∀ key, z.forKey = some key → ∃ k, reaches s sid key k 0) →
      ∃ t, exec .pageZeroingDone s = .next t ∧ onlySite s t sid ∧
        (∀ p, storeByte t sid p = if p / 32 = l then 0 else storeByte s sid p) ∧
        (1 < z.lines.length → (getSite t sid).core.tum.zeroing = c.tum.zeroing.set i { z with lines := z.lines.eraseIdx j }) ∧
        (z.lines = [l] → (getSite t sid).core.tum.zeroing = c.tum.zeroing.eraseIdx i ∧
          (∀ g gr, z.forKey = none → z.forGrp = some g → groupOf c g = some gr → groupOf (getSite t sid).core g = some { gr with start := false }) ∧
          ∀ key d v k, z.forKey = some key → (strandOf c key).wait = .zeroing d v → reaches s sid key k d →
            (strandOf (getSite t sid).core key).wait = .none ∧ readG (seenBy t sid k) d = if d = 0 then 0 else v)

end Sys2Proof.Claims

/-- EXIT, the end of groups, and releases that take effect: `StrandsAndGroupsEnd`, `ReleasesTakeEffect`, together. -/
def Obligations.StrandsEndAndReleasesApply : Prop :=
  Sys2Proof.Claims.StrandsAndGroupsEnd ∧ Sys2Proof.Claims.ReleasesTakeEffect

/-! ### Sending and receiving (R279 to R307) -/

namespace Sys2Proof.Claims

/-- The payload flits that the build registers give: n of the flits m2 to m5 and m6 to m9 (R279). -/
def builtFlits (s : State) (n : Nat) : List Flit :=
  let m := fun k => (mGet (curCtx s) k).toNat
  (List.range (min n 2)).map fun k =>
    BitVec.ofNat 256 (m (4 * k + 2) + m (4 * k + 3) * 2 ^ 64 + m (4 * k + 4) * 2 ^ 128 + m (4 * k + 5) * 2 ^ 192)
/-- The packet that a descriptor describes (R280, R281). -/
def described (s : State) (w : Nat) (kind : Nat) : Packet :=
  { dest := w % 2 ^ 20, handler := w / 2 ^ 20 % 2 ^ 10, counter := w / 2 ^ 30 % 2 ^ 6, len := w / 2 ^ 36 % 2 ^ 6
    prio := w / 2 ^ 42 % 4, fmt := w / 2 ^ 44 % 2 ^ 5, src := coreName (curSite s), kind := kind, scope := 5
    park := localPark (curSite s), arg0 := mGet (curCtx s) 0, arg1 := mGet (curCtx s) 1 }
/-- The kind-specific bits of an INVOKE: WX, WSEL and WVAL (R281). -/
def invokeBits (wx wsel : Nat) (wval : Word) : Nat := wx + wsel * 2 + wval.toNat % 2 ^ 18 * 2 ^ 4

/-- A packet that an instruction sends from its registers: the header and payload, the operation that stays outstanding, the status
register and the status it writes where there is no allowance, whether its answer is waited for, whether it asks for a shape flit, and
the instruction's length. -/
structure Sending where
  p : Packet
  out : Option OKind := none
  status : Option (Nat × Nat) := none
  waitsAnswer : Bool := false
  shape : Bool := false
  len : Nat := 4
/-- With the payload from the build registers. -/
def withPayload (s : State) (p : Packet) : Packet := { p with payload := builtFlits s p.len }
/-- An INVOKE from a descriptor, and from the fields of INVOKEI. -/
def fromWord (s : State) (a b : Nat) (x : Sending) : Sending :=
  let w := (readG s a).toNat
  { x with p := withPayload s { described s w kINVOKE with ks := invokeBits (w / 2 ^ 52 % 2) (w / 2 ^ 49 % 8) (readG s b) }
           waitsAnswer := x.out != some .invokep, shape := w / 2 ^ 52 % 2 == 1 }
def fromFields (s : State) (a b h len prio wsel wx f : Nat) (x : Sending) : Sending :=
  { x with p := withPayload s { described s ((readG s a).toNat % 2 ^ 20) kINVOKE with
                                  handler := h, len := len, prio := prio, fmt := f, ks := invokeBits wx wsel (readG s b) }
           waitsAnswer := x.out != some .invokep, shape := wx == 1, len := 8 }
/-- What an instruction sends (R297 to R299). -/
def sends (s : State) : Instr → Option Sending
  | .send a => some { p := withPayload s (described s (readG s a).toNat kDATA) }
  | .sendt d a => some { p := withPayload s (described s (readG s a).toNat kDATA), status := some (d, 1) }
  | .invoke a b => some (fromWord s a b { p := {}, out := some .invoke })
  | .invoket d a b => some (fromWord s a b { p := {}, out := some (.invoket d), status := some (d, 5) })
  | .invokep a b => some (fromWord s a b { p := {}, out := some .invokep })
  | .invokei a b h len prio wsel wx f => some (fromFields s a b h len prio wsel wx f { p := {}, out := some .invoke })
  | .invokeiT d a b h len prio wsel wx f =>
    some (fromFields s a b h len prio wsel wx f { p := {}, out := some (.invoket d), status := some (d, 5) })
  | .invokeiP a b h len prio wsel wx f => some (fromFields s a b h len prio wsel wx f { p := {}, out := some .invokep })
  | _ => none
/-- The DETAIL of a bad descriptor (R296, R298): a null DEST, a LEN that is too long, a reserved FMT, no shape flit. -/
def badSending (p : Packet) (most : Nat) (shape : Bool) : Option Nat :=
  if p.dest % 2 ^ 18 = 0x3FFFF then some 1
  else if most < p.len then some 2
  else if 28 ≤ p.fmt then some 3
  else if shape && p.len == 0 then some 4
  else none

/-- From s to t a packet of the agent has entered the injection buffer with a sequence number of its own, what is outstanding is
recorded, and its strand waits for local completion; the program counter, every register and every byte of memory stay (R282, R283). -/
def sent (s t : State) (x : Sending) : Prop :=
  ∃ (j : Inj) (q : Nat), (curSite t).core.inj0 = (curSite s).core.inj0 ++ [j] ∧
    j.pkt = { x.p with seq := q, origin := curSid s, tgt := none, fld := false, ing := false, prb := false } ∧ j.done = false ∧
    (strandOf (curSite t).core (curKey s)).wait = .localDone j.id (x.status.bind fun e => if x.out = none then some (e.1, 0) else none) x.waitsAnswer ∧
    (∀ k, x.out = some k → ∃ o, (curSite t).core.outs = (curSite s).core.outs ++ [o] ∧ o.seq = q ∧ o.key = curKey s ∧ o.kind = k ∧ o.pkt = j.pkt) ∧
    (x.out = none → (curSite t).core.outs = (curSite s).core.outs) ∧
    curPc t = curPc s ∧ (∀ r, readG t r = readG s r) ∧ sameMemory s t
/-- Whether n places are free for the agent at hand, no earlier request waiting (R283). -/
def roomFor (s : State) (n : Nat) : Prop := n ≤ freePlaces (curSite s).core ∧ inTurn (curSite s).core (curKey s)

/-- None of the first n build registers has bad parity; the first of them that has (R388). -/
def buildsGood (s : State) (n : Nat) : Prop := ∀ k, k < n → (3, k) ∉ (curCtx s).parity
def firstBadBuild (s : State) (n k : Nat) : Prop := k < n ∧ (3, k) ∈ (curCtx s).parity ∧ ∀ j, j < k → (3, j) ∉ (curCtx s).parity
/-- R279 to R283, R296 to R299, R388: SEND, SENDT, INVOKE, INVOKET, INVOKEP, INVOKEI, INVOKEI.t and INVOKEI.p send the packet that their
descriptor and the build registers describe, where there is room for it; without room SENDT writes status 1 and INVOKET and INVOKEI.t status
5 and go on, and the others keep the packet that they have built and wait for their places (that SENDT and INVOKET have no room while an
earlier request waits is the model's reading, log 52). A bad descriptor traps INVOKE_FAULT 1 with its DETAIL and DEST, and before that a build
register of bad parity among those that the instruction reads MACHINE_CHECK 4, of file 3 (log 15). -/
def PacketsSent : Prop :=
  ∀ (i : Instr) (s : State) (x : Sending), sends s i = some x → i.WellFormed → guardTrap i s = none → agentStands s →
    (∀ k, firstBadBuild s (2 + 4 * min x.p.len 2) k →
      ∃ t, exec i s = .next t ∧ trapTaken s t 0x13 (4 + k * 2 ^ 8 + 3 * 2 ^ 14) ∧ sameMemory s t) ∧
    (buildsGood s (2 + 4 * min x.p.len 2) →
      (∀ k, badSending x.p 2 x.shape = some k → ∃ t, exec i s = .next t ∧ preciseTrap s t 0x0D (1 + k * 2 ^ 4 + x.p.dest * 2 ^ 32)) ∧
      (badSending x.p 2 x.shape = none →
        (roomFor s (1 + x.p.len) → ∃ t, exec i s = .next t ∧ sent s t x) ∧
        (x.status = none → ¬roomFor s (1 + x.p.len) → ∃ t, exec i s = .next t ∧
          (strandOf (curSite t).core (curKey s)).wait = .allowance (1 + x.p.len) ∧ curPc t = curPc s ∧ (∀ r, readG t r = readG s r) ∧
          (∃ y, (strandOf (curSite t).core (curKey s)).pend = some (.send y) ∧ y.pkt = x.p ∧ y.out = x.out) ∧
          (curSite t).core.inj0 = (curSite s).core.inj0 ∧ sameMemory s t) ∧
        ∀ d busy, x.status = some (d, busy) → nameable s d → ¬roomFor s (1 + x.p.len) →
          ∃ t, exec i s = .next t ∧ wrote s t d (BitVec.ofNat 64 busy) x.len))

/-- R289, R297, R300, R301: SENDL sends its packet and reads its payload from the local store; RECV and RECVT take the oldest entry that
the group may take and the mask selects, its copy's address in gd and the copy held; with no entry RECV waits and RECVT writes all ones;
WAITMSG completes when there is one and otherwise waits; REPLY sends a DATA packet to the sender of the copy it names. -/
def MessagesTaken : Prop :=
  ∀ s : State, agentStands s →
    (∀ a b st, guardTrap (.sendl a b st) s = none → buildsGood s 2 →
      let x : Sending := { p := { described s (readG s a).toNat kDATA with stream := st } }
      badSending x.p (msgMax (curSite s)) false = none → checkHere s (readG s b).toNat (32 * x.p.len) 32 true false = none →
      roomFor s (1 + x.p.len) →
      ∃ t, exec (.sendl a b st) s = .next t ∧ sent s t x ∧
        (x.p.len = 0 → (curSite t).core.accesses = (curSite s).core.accesses) ∧
        (0 < x.p.len → ∃ y, (curSite t).core.accesses = (curSite s).core.accesses ++ [y] ∧ y.stream = st ∧ y.rd = true ∧
          y.units = (List.range x.p.len).map fun k => .read ((readG s b).toNat + 32 * k) 32 (32 * k))) ∧
    (∀ a (i : Instr), (∃ d, i = .recv d a ∨ i = .recvt d a) ∨ i = .waitmsg a → guardTrap i s = none →
      let c := (curSite s).core
      let mask := (readG s a).toNat % 8
      let may := fun e => eligibleFor c (curKey s) mask e = true
      (∀ pre e post, c.mq = pre ++ e :: post → may e → (∀ e' ∈ pre, ¬may e') →
        (∀ d, i = .recv d a ∨ i = .recvt d a → nameable s d → (strandOf c (curKey s)).heldCopy ≠ some e.copy →
          ∃ t, exec i s = .next t ∧ readG t d = (if d = 0 then 0 else copyAddr (curSite s) e.copy) ∧ curPc t = curPc s + 4 ∧
            (curSite t).core.mq = pre ++ post ∧ (strandOf (curSite t).core (curKey s)).heldCopy = some e.copy ∧ sameMemory s t ∧
            (∀ old, (strandOf c (curKey s)).heldCopy = some old → tget? (curSite t).core.copies old = none)) ∧
        (i = .waitmsg a → ∃ t, exec i s = .next t ∧ curPc t = curPc s + 4 ∧ writesOnly none s t)) ∧
      ((∀ e ∈ c.mq, ¬may e) →
        (∀ d, i = .recv d a → ∃ t o, exec i s = .next t ∧ (strandOf (curSite t).core (curKey s)).wait = .recv mask d o ∧
          (Wait.recv mask d o).reason = 3 ∧ curPc t = curPc s ∧ (∀ r, readG t r = readG s r) ∧ sameMemory s t) ∧
        (∀ d, i = .recvt d a → nameable s d → ∃ t, exec i s = .next t ∧ curPc t = curPc s + 4 ∧ sameMemory s t ∧
          readG t d = if d = 0 then 0 else BitVec.allOnes 64) ∧
        (i = .waitmsg a → ∃ t, exec i s = .next t ∧ waits s t (.waitmsg mask)))) ∧
    ∀ a b, guardTrap (.reply a b) s = none → buildsGood s (2 + 4 * min ((readG s b).toNat % 4) 2) →
      (replyCopy s (readG s a) = none → ∃ t, exec (.reply a b) s = .next t ∧ preciseTrap s t 0x0D 5) ∧
      ∀ id, replyCopy s (readG s a) = some id →
        let h := copyHeader (curSite s).core id
        let w := (readG s b).toNat
        let p : Packet := { described s 0 kDATA with dest := h / 2 ^ 20 % 2 ^ 20, len := w % 4, prio := w / 4 % 4
                                                     fmt := w / 2 ^ 4 % 2 ^ 5, ks := h / 2 ^ 82 % 2 ^ 16 + 2 ^ 16 }
        badSending p 2 false = none → roomFor s (1 + p.len) → ∃ t, exec (.reply a b) s = .next t ∧ sent s t { p := withPayload s p }

/-- R303 to R305: DSET binds a free counter; DDEC subtracts an amount within its count, with status 0, launches where the count of a counter
with a handler reaches zero and there is a place (status 1 where there is none), and writes status 2 where the amount is 0 or too large, nothing is bound or the
entry is not valid; DWAIT completes
at a counter that is unbound or at zero, and otherwise waits. -/
def DependencyCounters : Prop :=
  ∀ (s : State) (d a b : Nat), agentStands s →
    let c := (curSite s).core
    (guardTrap (.dset d a b) s = none →
      let w := (readG s a).toNat
      let n := w / 2 ^ 16 % 2 ^ 16
      let buf := (readG s b).toNat % 2 ^ 21
      let free := counterOf c d = none ∨ ∃ ct, counterOf c d = some ct ∧ ct.handler = 0 ∧ ct.count = 0
      (¬free → ∃ t, exec (.dset d a b) s = .next t ∧ preciseTrap s t 0x0D 6) ∧
      (free → n = 0 → ∃ t, exec (.dset d a b) s = .next t ∧ preciseTrap s t 0x0D 7) ∧
      (free → 0 < n → (w.testBit 32 = true → checkHere s buf (8 * n) 8 false true = none) →
        ∃ t ct, exec (.dset d a b) s = .next t ∧ counterOf (curSite t).core d = some ct ∧ ct.handler = w % 2 ^ 10 ∧ ct.count = n ∧
          ct.list = w.testBit 32 ∧ ct.buf = buf ∧ ct.pidx = 0 ∧ ct.copies = [] ∧ ct.wid = (actGroupVal s).wid ∧
          (∀ k, k ≠ d → counterOf (curSite t).core k = counterOf c k) ∧ curPc t = curPc s + 4 ∧ sameMemory s t ∧
          changesOnly none { core := fun c => { c with counters := [] } } s t)) ∧
    (guardTrap (.ddec d a b) s = none → nameable s b →
      let n := (readG s a).toNat
      ((counterOf c d = none ∨ n = 0 ∨ (∃ ct, counterOf c d = some ct ∧ ct.count < n)) → ∃ t, exec (.ddec d a b) s = .next t ∧
        readG t b = (if b = 0 then 0 else 2) ∧ curPc t = curPc s + 4 ∧ sameMemory s t ∧
        changesOnly (some (.g b)) { core := fun c => { c with countedBy := [] } } s t) ∧
      (∀ ct, counterOf c d = some ct → 0 < n → n < ct.count → ∃ t, exec (.ddec d a b) s = .next t ∧
        counterOf (curSite t).core d = some { ct with count := ct.count - n } ∧
        (∀ k, k ≠ d → counterOf (curSite t).core k = counterOf c k) ∧ readG t b = 0 ∧ curPc t = curPc s + 4 ∧ sameMemory s t ∧
        changesOnly (some (.g b)) { core := fun c => { c with counters := [], countedBy := [] } } s t) ∧
      (∀ ct, counterOf c d = some ct → 0 < n → ct.count = n → ct.handler = 0 → ∃ t, exec (.ddec d a b) s = .next t ∧
        counterOf (curSite t).core d = some { ct with count := 0 } ∧ readG t b = 0 ∧ curPc t = curPc s + 4) ∧
      (∀ ct, counterOf c d = some ct → 0 < n → ct.count = n → ct.handler ≠ 0 →
        ((readEntry (curSite s) ct.handler).2 = none → ∃ t, exec (.ddec d a b) s = .next t ∧ readG t b = (if b = 0 then 0 else 2) ∧
          curPc t = curPc s + 4 ∧ sameMemory s t ∧ (curSite t).core.counters = c.counters) ∧
        ∀ e, (readEntry (curSite s) ct.handler).2 = some e → placeFree c e.prio = false → ∃ t, exec (.ddec d a b) s = .next t ∧
          readG t b = (if b = 0 then 0 else 1) ∧ curPc t = curPc s + 4 ∧ sameMemory s t ∧ (curSite t).core.counters = c.counters) ∧
      (∀ ct e, counterOf c d = some ct → 0 < n → ct.count = n → ct.handler ≠ 0 → (readEntry (curSite s) ct.handler).2 = some e →
        placeFree c e.prio = true → ∃ t q, exec (.ddec d a b) s = .next t ∧ counterOf (curSite t).core d = none ∧
          tget [] (curSite t).core.invq e.prio = tget [] c.invq e.prio ++ [q] ∧ q.entry = e ∧ q.wid = ct.wid ∧ q.copies = ct.copies ∧
          q.g1 = 0 ∧ q.g6 = BitVec.ofNat 64 ct.buf)) ∧
    (guardTrap (.dwait d) s = none →
      ((counterOf c d = none ∨ ∃ ct, counterOf c d = some ct ∧ ct.count = 0) →
        ∃ t, exec (.dwait d) s = .next t ∧ curPc t = curPc s + 4 ∧ writesOnly none s t) ∧
      (∀ ct, counterOf c d = some ct → 0 < ct.count →
        ∃ t, exec (.dwait d) s = .next t ∧ waits s t (.counter d) ∧ (Wait.counter d).reason = 2))

end Sys2Proof.Claims

/-- Messages are taken from the queue; dependency counters: `MessagesTaken`, `DependencyCounters`, together. -/
def Obligations.MessagesAndCounters : Prop :=
  Sys2Proof.Claims.MessagesTaken ∧ Sys2Proof.Claims.DependencyCounters

namespace Sys2Proof.Claims

/-- From s to t a packet has been taken: a place in the mailbox is reserved for its header and payload, each of its flits is to be placed there, and
nothing of it is known to the core's queues yet (R287; that the flits are placed one by one is the model's reading, log 150). -/
def taken (s t : State) (sid : Nat) (p : Packet) (e : Option Entry) : Prop :=
  onlySite s t sid ∧ sameMemory s t ∧ (getSite t sid).core.invq = (getSite s sid).core.invq ∧ (getSite t sid).core.mq = (getSite s sid).core.mq ∧
  (getSite t sid).core.counters = (getSite s sid).core.counters ∧ (getSite t sid).core.inj1 = (getSite s sid).core.inj1 ∧
  ∃ l id c, (getSite t sid).core.landing = some l ∧ l.pkt = p ∧ l.entry = e ∧ l.copy = some id ∧ (∀ k, k ∈ l.left ↔ k < 1 + p.len) ∧
    tget? (getSite t sid).core.copies id = some c ∧ c.n = 1 + p.len
/-- Where flit k of a packet whose flits are being placed goes: a slot of the mailbox ring (R286, R287). -/
def flitPlace (c : Core) (l : Landing) (k p : Nat) : Prop :=
  ∃ id cp pg, l.copy = some id ∧ tget? c.copies id = some cp ∧ c.mboxPages[(cp.start + k) % ringSize c / 128]? = some pg ∧
    p = pg * 4096 + (cp.start + k) % ringSize c % 128 * 32
/-- From s to t flit k of it has been placed, and no other byte of memory has changed. -/
def flitPlaced (s t : State) (sid : Nat) (l : Landing) (k : Nat) : Prop :=
  onlySite s t sid ∧ ∀ p, flitPlace (getSite s sid).core l k p → lineFree s sid p →
    mread (getSite t sid).core.mem p 32 = (if k = 0 then headerFlit l.pkt else l.pkt.payload.getD (k - 1) 0).toNat ∧
    ∀ b, b < p ∨ p + 32 ≤ b → storeByte t sid b = storeByte s sid b

end Sys2Proof.Claims

/-- R35 to R39, R286 to R288, R294: INVOKE_ARRIVAL of a well-formed INVOKE whose entry is valid, for its park and sender, takes the packet, places its
flits in the mailbox, and with the last one queues the launch and answers ACCEPT; of one whose entry is not valid it answers NACK INVALID 1.
COUNTER_LAUNCH decrements the counter that a packet names; at a counter with a handler the packet is kept, and where it is the last one awaited the
launch is queued and the counter is unbound. MESSAGE_ARRIVAL of a plain DATA packet makes it the last entry of the message queue, with its flits in
the mailbox, where no RECV waits; with 56 entries it is refused FULL 3. -/
def Obligations.WorkArrives : Prop :=
  ∀ (s : State) (sid : Nat),
    let x := getSite s sid
    (∀ p, s.arg = [sid] → handles x p →
      (p.kind = kINVOKE → p.handler ≠ 0 → p.counter = 0 →
        ((readEntry x p.handler).2 = none → ∃ t, exec .invokeArrival s = .next t ∧ onlySite s t sid ∧ sameMemory s t ∧
          answered x (getSite t sid) p kNACK (2 + 1 * 2 ^ 4)) ∧
        ∀ e wid wshape, (readEntry x p.handler).2 = some e → launchShape e p = some (wid, wshape) → p.park = e.park →
          senderOk x e.senders p = true → placeFree x.core e.prio = true → mailRoom x.core (1 + p.len) = true →
          ∃ t, exec .invokeArrival s = .next t ∧ taken s t sid p (some e)) ∧
      (p.kind = kINVOKE ∨ p.kind = kDATA → p.counter ≠ 0 → p.handler = 0 →
        ∀ ct, counterOf x.core p.counter = some ct →
          (ct.handler = 0 → 1 < ct.count → ∃ t, exec .counterLaunch s = .next t ∧ onlySite s t sid ∧ sameMemory s t ∧
            counterOf (getSite t sid).core p.counter = some { ct with count := ct.count - 1 } ∧
            (p.kind = kINVOKE → answered x (getSite t sid) p kREPLY 1) ∧ (p.kind = kDATA → (getSite t sid).core.inj1 = x.core.inj1)) ∧
          (ct.handler ≠ 0 → mailRoom x.core (1 + p.len) = true → (ct.count ≠ 1 → ∃ t, exec .counterLaunch s = .next t ∧ taken s t sid p none) ∧
            (ct.count = 1 → ∀ e, (readEntry x ct.handler).2 = some e → placeFree x.core e.prio = true →
              ∃ t, exec .counterLaunch s = .next t ∧ taken s t sid p (some e)))) ∧
      (p.kind = kDATA → p.counter = 0 → p.handler = 0 →
        (56 ≤ x.core.mq.length → isNull p.src = false → ∃ t a, exec .messageArrival s = .next t ∧ onlySite s t sid ∧ sameMemory s t ∧
          (getSite t sid).core.mq = x.core.mq ∧ (getSite t sid).core.inj1 = x.core.inj1 ++ [a] ∧ a.kind = kFAULTREP ∧ a.dest = p.src ∧
          a.ks % 2 ^ 8 = 1 + 3 * 2 ^ 4) ∧
        (x.core.mq.length < 56 → mailRoom x.core (1 + p.len) = true → (∀ e ∈ x.core.strands, ∀ m d o, e.2.wait ≠ .recv m d o) →
          ∃ t, exec .messageArrival s = .next t ∧ taken s t sid p none))) ∧
    ∀ (l : Landing) (i k : Nat), s.arg = [sid, i] → x.core.landing = some l → l.left[i]? = some k →
      let p := l.pkt
      (p.kind = kINVOKE → p.handler ≠ 0 → p.counter = 0 →
        (1 < l.left.length → ∃ t, exec .invokeArrival s = .next t ∧ flitPlaced s t sid l k ∧
          (getSite t sid).core.landing = some { l with left := l.left.eraseIdx i } ∧ (getSite t sid).core.invq = x.core.invq) ∧
        ∀ e wid wshape id, l.left = [k] → l.entry = some e → l.copy = some id → launchShape e p = some (wid, wshape) → p.park = e.park →
          senderOk x e.senders p = true → (tget [] x.core.invq e.prio).length < 64 →
          ∃ t q, exec .invokeArrival s = .next t ∧ flitPlaced s t sid l k ∧ (getSite t sid).core.landing = none ∧
            tget [] (getSite t sid).core.invq e.prio = tget [] x.core.invq e.prio ++ [q] ∧ q.entry = e ∧ q.wid = BitVec.ofNat 64 wid ∧
            q.wshape = wshape ∧ q.g4 = p.arg0 ∧ q.g5 = p.arg1 ∧ q.g6 = 0 ∧ q.copies = [id] ∧ q.g1 = copyAddr (getSite t sid) id ∧
            (settleTumbler (getSite t sid).core.tum).evaluate = true ∧ answered x (getSite t sid) p kREPLY 1) ∧
      (p.kind = kINVOKE ∨ p.kind = kDATA → p.counter ≠ 0 → p.handler = 0 →
        (1 < l.left.length → ∃ t, exec .counterLaunch s = .next t ∧ flitPlaced s t sid l k ∧
          (getSite t sid).core.landing = some { l with left := l.left.eraseIdx i } ∧ (getSite t sid).core.counters = x.core.counters) ∧
        ∀ ct id, l.left = [k] → l.copy = some id → counterOf x.core p.counter = some ct → ct.handler ≠ 0 → ct.list = false →
          (ct.count ≠ 1 → ∃ t, exec .counterLaunch s = .next t ∧ flitPlaced s t sid l k ∧ (getSite t sid).core.landing = none ∧
            counterOf (getSite t sid).core p.counter = some { ct with count := ct.count - 1, copies := ct.copies ++ [id], pidx := ct.pidx % 2 ^ 16 }) ∧
          ∀ e, ct.count = 1 → l.entry = some e → (tget [] x.core.invq e.prio).length < 64 →
            ∃ t q, exec .counterLaunch s = .next t ∧ onlySite s t sid ∧ (getSite t sid).core.landing = none ∧
              counterOf (getSite t sid).core p.counter = none ∧ tget [] (getSite t sid).core.invq e.prio = tget [] x.core.invq e.prio ++ [q] ∧
              q.entry = e ∧ q.wid = ct.wid ∧ q.g4 = p.arg0 ∧ q.g5 = p.arg1 ∧ q.g6 = BitVec.ofNat 64 ct.buf ∧ q.copies = ct.copies ++ [id]) ∧
      (p.kind = kDATA → p.counter = 0 → p.handler = 0 →
        (1 < l.left.length → ∃ t, exec .messageArrival s = .next t ∧ flitPlaced s t sid l k ∧
          (getSite t sid).core.landing = some { l with left := l.left.eraseIdx i } ∧ (getSite t sid).core.mq = x.core.mq) ∧
        ∀ id, l.left = [k] → l.copy = some id → (∀ e ∈ x.core.strands, ∀ m d o, e.2.wait ≠ .recv m d o) →
          ∃ t e, exec .messageArrival s = .next t ∧ flitPlaced s t sid l k ∧ (getSite t sid).core.landing = none ∧
            (getSite t sid).core.mq = x.core.mq ++ [e] ∧ e.kind = 0 ∧ e.owner = none ∧ e.copy = id ∧ (getSite t sid).core.inj1 = x.core.inj1)

namespace Sys2Proof.Claims

/-- R283, R291, R293, R298: PACKET_LOCAL_COMPLETE ends the wait of the packet's strand, with its status where it has one, or makes it wait for
the answer; ANSWER_ARRIVAL of the REPLY to an INVOKE lets its strand go on, and to an INVOKET writes status 0; HARDWARE_RETRY puts a packet whose
delay has passed in the injection buffer again. -/
def PacketsComplete : Prop :=
  ∀ (s : State) (sid : Nat),
    let x := getSite s sid
    (∀ i j key id d k (rep : Bool), s.arg = [sid, i] → x.core.inj0[i]? = some j → j.done = false → j.reads = false → j.ready ≤ s.time →
      j.key = some key → id = j.id → (strandOf x.core key).wait = .localDone id d rep →
      ∃ t, exec .packetLocalComplete s = .next t ∧ onlySite s t sid ∧ (getSite t sid).core.inj0 = x.core.inj0.set i { j with done := true } ∧
        (rep = true → ∃ r, (strandOf (getSite t sid).core key).wait = .reply r j.pkt.seq ∧ sameMemory s t) ∧
        (rep = false → (strandOf (getSite t sid).core key).wait = .none ∧ ∀ r v, d = some (r, v) → reaches s sid key k r →
          readG (seenBy t sid k) r = (if r = 0 then 0 else v) ∧ sameMemory s t)) ∧
    (∀ p o, s.arg = [sid] → nextArrival x = some p → p.kind = kREPLY → malformed x p = false → takesAnswers x = true →
      findOut x.core p.seq = some o → o.dead = false → o.kind = .invoke ∨ (∃ d, o.kind = .invoket d) →
      ∃ t, exec .answerArrival s = .next t ∧ onlySite s t sid ∧ findOut (getSite t sid).core p.seq = none ∧
        (strandOf (getSite t sid).core o.key).wait = .none ∧
        ∀ d k, o.kind = .invoket d → reaches s sid o.key k d → readG (seenBy t sid k) d = 0 ∧ sameMemory s t) ∧
    ∀ i o due, s.arg = [sid, i] → x.core.outs[i]? = some o → o.due = some due → due ≤ s.time → evicted x = false → inTurn x.core (retryTurn o.seq) →
      1 + o.pkt.len ≤ freePlaces x.core →
      ∃ t j, exec .hardwareRetry s = .next t ∧ onlySite s t sid ∧ sameMemory s t ∧ (getSite t sid).core.inj0 = x.core.inj0 ++ [j] ∧
        j.pkt = { o.pkt with origin := x.id, tgt := none, fld := false, ing := false, prb := false } ∧
        (getSite t sid).core.outs = x.core.outs.set i { o with due := none }

end Sys2Proof.Claims

/-- Messages and invocations are sent; local completion, answers and retries: `PacketsSent`, `PacketsComplete`, together. -/
def Obligations.PacketsSentAndCompleted : Prop :=
  Sys2Proof.Claims.PacketsSent ∧ Sys2Proof.Claims.PacketsComplete

/-! ### Remote accesses (R308 to R327) -/

namespace Sys2Proof.Claims

/-- A remote request: home, offset and bytes, ordering and scope, its packet with what stays outstanding, and whether it stores. -/
structure RemoteForm where
  home : Nat
  off : Nat
  size : Nat
  o : Nat
  c : Nat
  stream : Nat
  store : Bool
  x : Sending
/-- The name and the offset of a global address word (R309). -/
def nameIn (w : Word) : Nat := w.toNat / 2 ^ 32 % 2 ^ 20
def offsetIn (w : Word) : Nat := w.toNat % 2 ^ 21
/-- The packet of a request: kind, home, offset and whether into a loggia, stream, scope, value, operation and size code (R311). -/
def requestPkt (s : State) (kind home off stream scope z op : Nat) (v : Nat) (loggia : Bool) : Packet :=
  { kind := kind, dest := home, ks := off + (if loggia then 2 ^ 21 else 0), stream := stream, scope := scope, src := coreName (curSite s)
    park := localPark (curSite s), arg0 := BitVec.ofNat 64 v, arg1 := BitVec.ofNat 64 (op + z * 2 ^ 3) }
def atomicRequest (s : State) (op d a st c o z : Nat) : RemoteForm :=
  let n := 4 * 2 ^ z
  let w := readG s a
  let p := requestPkt s kRATOMIC (nameIn w) (offsetIn w) st c (z + 2) op ((readG s d).toNat % 2 ^ (8 * n)) false
  { home := nameIn w, off := offsetIn w, size := n, o := o, c := c, stream := st, store := false
    x := {
      p := if op = 7 then { p with len := 1, payload := [BitVec.ofNat 256 ((readG s (d + 1)).toNat % 2 ^ (8 * n))] } else p
      out := some (.rld (toReg d) n), waitsAnswer := true } }
/-- The remote request of an instruction (R324 to R326). -/
def remoteForm (s : State) : Instr → Option RemoteForm
  | .rld d a st c o z =>
    let w := readG s a
    some { home := nameIn w, off := offsetIn w, size := 2 ^ z, o := o, c := c, stream := st, store := false
           x := { p := requestPkt s kRLOAD (nameIn w) (offsetIn w) st c z 0 0 false, out := some (.rld (toReg d) (2 ^ z)), waitsAnswer := true } }
  | .rst d a st c o z =>
    let w := readG s a
    some { home := nameIn w, off := offsetIn w, size := 2 ^ z, o := o, c := c, stream := st, store := true
           x := { p := requestPkt s kRSTORE (nameIn w) (offsetIn w) st c z 0 ((readG s d).toNat % 2 ^ (8 * 2 ^ z)) false
                  out := some .rst, waitsAnswer := o % 2 == 1 } }
  | .nst d a st c o z =>
    let w := readG s a
    let home := reg (curSite s) (0x078 + w.toNat / 2 ^ 32 % 4) % 2 ^ 20
    some { home := home, off := offsetIn w, size := 2 ^ z, o := o, c := c, stream := st, store := true
           x := { p := requestPkt s kRSTORE home (offsetIn w) st c z 0 ((readG s d).toNat % 2 ^ (8 * 2 ^ z)) true
                  out := some .rst, waitsAnswer := o % 2 == 1 } }
  | .radd d a st c o z => some (atomicRequest s 0 d a st c o z)
  | .rmin d a st c o z => some (atomicRequest s 1 d a st c o z)
  | .rmax d a st c o z => some (atomicRequest s 2 d a st c o z)
  | .rand d a st c o z => some (atomicRequest s 3 d a st c o z)
  | .ror d a st c o z => some (atomicRequest s 4 d a st c o z)
  | .rxor d a st c o z => some (atomicRequest s 5 d a st c o z)
  | .rswp d a st c o z => some (atomicRequest s 6 d a st c o z)
  | .rcas d a st c o z => some (atomicRequest s 7 d a st c o z)
  | _ => none

/-- The class of homes that a scope names: the core itself, its wafer, every home (R316). -/
def classOf (c : Nat) : Nat := if c = 0 then 0 else if c ≤ 3 then 1 else 2
/-- A release half of scope c has nothing to wait for and no fault to deliver. -/
def releasePasses (s : State) (c : Nat) : Prop :=
  releaseFault (curSite s) (curKey s) (classOf c) = none ∧ releaseOpen (curSite s) (curKey s) (classOf c) = false

/-- The instruction at hand is not one whose acquire half has trapped and that has only its wait left (R320). -/
def firstTime (s : State) : Prop := (strandOf (curSite s).core (curKey s)).acqAt ≠ some (curPc s)
/-- From s to t an instruction has built a packet and waits, before it is sent: nothing is sent, and registers and memory stay. -/
def waitsToSend (s t : State) (x : Sending) (w : Wait) : Prop :=
  (strandOf (curSite t).core (curKey s)).wait = w ∧
  (∃ y, (strandOf (curSite t).core (curKey s)).pend = some (.send y) ∧ y.pkt = x.p ∧ y.out = x.out ∧ y.rep = x.waitsAnswer) ∧
  (curSite t).core.inj0 = (curSite s).core.inj0 ∧ (curSite t).core.outs = (curSite s).core.outs ∧ curPc t = curPc s ∧
  (∀ r, readG t r = readG s r) ∧ sameMemory s t

/-- R309 to R311, R316, R318, R320, R324 to R326: RLD, RST, NST, RADD, RMIN, RMAX, RAND, ROR, RXOR, RSWP and RCAS send their request to the home that
their address names (NST into the loggia of a neighbour), after their release half where the ordering has one; a null home traps REMOTE_FAULT
1, an offset that is no multiple of the size MISALIGNED; where the release half has accesses to wait for, they wait with reason 10, keeping the
request that they have built, and where it covers a deferred fault they trap with it. -/
def RemoteAccesses : Prop :=
  ∀ (i : Instr) (s : State) (f : RemoteForm), remoteForm s i = some f → i.WellFormed → guardTrap i s = none → agentStands s →
    (f.store = true → (remoteWrites (curSite s).core (curKey s)).length < 16 ∧ firstTime s) →
    (f.home % 2 ^ 18 = 0x3FFFF → ∃ t, exec i s = .next t ∧ preciseTrap s t 0x0C (1 + f.stream * 2 ^ 8 + f.home * 2 ^ 32)) ∧
    (f.home % 2 ^ 18 ≠ 0x3FFFF →
      (f.off % f.size ≠ 0 → ∃ t, exec i s = .next t ∧ preciseTrap s t 0x05 (f.off * 2 ^ 32)) ∧
      (f.off % f.size = 0 →
        (∀ v, 2 ≤ f.o → releaseFault (curSite s) (curKey s) (classOf f.c) = some v →
          ∃ t, exec i s = .next t ∧ trapTaken s t v.cause v.info.toNat v.deferred ∧ (∀ r, readG t r = readG s r) ∧ sameMemory s t ∧
            (strandOf (curSite t).core (curKey s)).deferred = none ∧ (curSite t).core.inj0 = (curSite s).core.inj0) ∧
        (2 ≤ f.o → releaseFault (curSite s) (curKey s) (classOf f.c) = none → releaseOpen (curSite s) (curKey s) (classOf f.c) = true →
          ∃ t, exec i s = .next t ∧ waitsToSend s t f.x (.release (classOf f.c)) ∧ (Wait.release (classOf f.c)).reason = 10) ∧
        (f.o < 2 ∨ releasePasses s f.c →
          (roomFor s (1 + f.x.p.len) → ∃ t, exec i s = .next t ∧ sent s t f.x) ∧
          (¬roomFor s (1 + f.x.p.len) → ∃ t, exec i s = .next t ∧ waitsToSend s t f.x (.allowance (1 + f.x.p.len))))))

/-- The lines that n bytes from an address touch, as addresses and lengths: the units in which a list is read. -/
def listUnits (a n : Nat) : List AUnit :=
  (List.range ((a + n + 31) / 32 - a / 32)).map fun k =>
    let lo := max a (32 * (a / 32 + k))
    .read lo (min (a + n) (32 * (a / 32 + k) + 32) - lo) (lo - a)
/-- R165, R324, R327: MCST of no replica completes; of more than 64 it traps REMOTE_FAULT 2; with a list whose access is not allowed it traps as
a load does; else its list is read by a local access in its stream, and it waits with reason 9, keeping what it stores. RST, NST and MCST
whose acquire half has delivered a deferred fault repeat only their wait, and trap again with a fault that their own writes have recorded since
(the model's reading, log 148); with 16 remote writes outstanding RST and NST do not issue (R318). -/
def MulticastStores : Prop :=
  (∀ (s : State) (z d a b st c o : Nat), guardTrap (.mcst z d a b st c o) s = none → agentStands s → firstTime s →
    let i := Instr.mcst z d a b st c o
    let n := (readG s b).toNat
    let ea := (readG s a).toNat
    (n = 0 → ∃ t, exec i s = .next t ∧ curPc t = curPc s + 8 ∧ writesOnly none s t) ∧
    (64 < n → ∃ t, exec i s = .next t ∧ preciseTrap s t 0x0C (2 + st * 2 ^ 8)) ∧
    (0 < n → n ≤ 64 →
      (∀ k, checkHere s ea (8 * n) 8 true false = some (.access k) →
        ∃ t, exec i s = .next t ∧ preciseTrap s t 0x04 (k + st * 2 ^ 8 + ea % 2 ^ 32 * 2 ^ 32)) ∧
      (checkHere s ea (8 * n) 8 true false = some .misaligned →
        ∃ t, exec i s = .next t ∧ preciseTrap s t 0x05 (st * 2 ^ 8 + ea % 2 ^ 32 * 2 ^ 32)) ∧
      (checkHere s ea (8 * n) 8 true false = none →
        ∃ t x y, exec i s = .next t ∧ (strandOf (curSite t).core (curKey s)).wait = .list ∧ Wait.list.reason = 9 ∧
          (curSite t).core.accesses = (curSite s).core.accesses ++ [x] ∧ x.key = curKey s ∧ x.stream = st ∧ x.rd = true ∧ x.wr = false ∧
          x.fin = .list ∧ x.units = listUnits ea (8 * n) ∧
          (strandOf (curSite t).core (curKey s)).pend = some (.mcst y (2 ^ z) n (if 2 ≤ o then some (classOf c) else none) none) ∧
          y.pkt = requestPkt s kRSTORE 0 0 st c z 0 ((readG s d).toNat % 2 ^ (8 * 2 ^ z)) false ∧ y.out = some .rst ∧ y.rep = (o % 2 == 1) ∧
          curPc t = curPc s ∧ (∀ r, readG t r = readG s r) ∧ (curSite t).core.inj0 = (curSite s).core.inj0 ∧ sameMemory s t))) ∧
  (∀ (i : Instr) (s : State), (∃ d a st c o z, i = .rst d a st c o z ∨ i = .nst d a st c o z) → guardTrap i s = none → agentStands s → firstTime s →
    16 ≤ (remoteWrites (curSite s).core (curKey s)).length → ∃ t, exec i s = .next t ∧ curPc t = curPc s ∧ (∀ r, readG t r = readG s r) ∧
      (curSite t).core.inj0 = (curSite s).core.inj0 ∧ (curSite t).core.outs = (curSite s).core.outs ∧ sameMemory s t ∧
      (strandOf (curSite t).core (curKey s)).wait = (strandOf (curSite s).core (curKey s)).wait) ∧
  ∀ (i : Instr) (s : State), (∃ d a b st c o z, i = .rst d a st c o z ∨ i = .nst d a st c o z ∨ i = .mcst z d a b st c o) →
    guardTrap i s = none → agentStands s → (strandOf (curSite s).core (curKey s)).acqAt = some (curPc s) →
    let st := strandOf (curSite s).core (curKey s)
    let ours := fun w : Outst => w ∈ remoteWrites (curSite s).core (curKey s) ∧ w.acq = true ∧ w.born = st.acqBorn
    (∀ v, st.deferred = some v → (∃ e ∈ st.deferredOf, e.2.2 = st.acqBorn) →
      ∃ t, exec i s = .next t ∧ trapTaken s t v.cause v.info.toNat v.deferred ∧ (∀ r, readG t r = readG s r) ∧ sameMemory s t ∧
        (strandOf (curSite t).core (curKey s)).deferred = none ∧ (curSite t).core.inj0 = (curSite s).core.inj0) ∧
    (st.deferred = none ∨ (∀ e ∈ st.deferredOf, e.2.2 ≠ st.acqBorn) → ∃ t, exec i s = .next t ∧ (∀ r, readG t r = readG s r) ∧ (curSite t).core.inj0 = (curSite s).core.inj0 ∧ sameMemory s t ∧
      ((∀ w, ¬ours w) → curPc t = curPc s + BitVec.ofNat 64 (instrLen (encode i).1) ∧ firstTime t) ∧
      ((∃ w, ours w) → curPc t = curPc s ∧ ∃ w, ours w ∧ (strandOf (curSite t).core (curKey s)).wait = .reply 6 w.seq))

/-- The replica that an entry of an MCST's list names: the packet of the MCST with its home and offset. -/
def replica (p : Packet) (e : Nat) : Packet := { p with dest := nameIn (BitVec.ofNat 64 e), ks := offsetIn (BitVec.ofNat 64 e) }
/-- From s to t the strand of a site has put the replica of entry e in the injection buffer; l are the entries still to be sent. -/
def replicaSent (s t : State) (sid key : Nat) (p : Packet) (rep : Bool) (e : Nat) (l : List Nat) : Prop :=
  onlySite s t sid ∧ sameMemory s t ∧ ∃ j q o, (getSite t sid).core.inj0 = (getSite s sid).core.inj0 ++ [j] ∧
    j.pkt = { replica p e with seq := q, origin := sid, tgt := none, fld := false, ing := false, prb := false } ∧
    (getSite t sid).core.outs = (getSite s sid).core.outs ++ [o] ∧ o.seq = q ∧ o.key = key ∧ o.kind = .rst ∧ o.pkt = j.pkt ∧ o.acq = rep ∧
    (l = [] → (strandOf (getSite t sid).core key).wait = .localDone j.id none rep) ∧
    (l ≠ [] → (strandOf (getSite t sid).core key).wait = .mcst l none)
/-- A strand in slot k of a site, in the slot and not in a frame, of a group that is not being saved; or the supervisor context. -/
def waitsIn (s : State) (sid key k : Nat) : Prop :=
  let c := (getSite s sid).core
  key < 256 ∧ findSlot c key = some k ∧ (strandOf c key).saved = none ∧ (slotOf c k).st = .waiting ∧
    ∀ g, groupOf c (slotOf c k).grp = some g → g.victim = false

/-- From s to t the strand in slot k of a site, whose wait has ended with a trap, is TRAPPED, with its record (R381, R383). -/
def keptTrap (s t : State) (sid key k : Nat) (v : TrapVal) : Prop :=
  let c := (getSite s sid).core
  onlySite s t sid ∧ sameMemory s t ∧ (getSite t sid).core.inj0 = c.inj0 ∧ (slotOf (getSite t sid).core k).st = .trapped ∧
    (strandOf (getSite t sid).core key).wait = .none ∧
    ∃ r : TrapRec, (getSite t sid).core.traps = c.traps ++ [r] ∧ r.slot = k ∧ r.grp = (slotOf c k).grp ∧ r.idx = (slotOf c k).idx ∧ r.val = v ∧
      (r.fatal = true ↔ regF (getSite s sid) 0x023 21 21 = 0 ∧ c.sup.st ≠ .halted)

/-- R316, R318, R324, R327: LOCAL_ACCESS_PERFORM of the last unit of an MCST's list keeps the list; its wait is then over: a null home in it traps
REMOTE_FAULT 1 and, where there is none, an offset that is no multiple of the size MISALIGNED, nothing being sent; where all are good the replica
of the first entry is sent, its release half passed, while fewer than 16 remote writes are outstanding and there is room, and so with each further
entry; while its release half has something to wait for it waits with reason 10, and for room with reason 9. -/
def MulticastStoresGoOn : Prop :=
  (∀ (s : State) (sid i a n k z m : Nat) (x : Access) (p : PendSend) (rel : Option Nat), s.arg = [sid, i, 0, 0] → mayGo s sid i x →
    x.units = [.read a n k] → x.fin = .list → (strandOf (getSite s sid).core x.key).pend = some (.mcst p z m rel none) →
    badIn (getSite s sid).core.bad (physVia (getSite s sid).core x.via a) n = none →
    ∃ t, exec .localAccessPerform s = .next t ∧ sameMemory s t ∧ (strandOf (getSite t sid).core x.key).pend =
      some (.mcst p z m rel (some (x.acc + mread (getSite s sid).core.mem (physVia (getSite s sid).core x.via a) n * 256 ^ k))) ∧
      ((strandOf (getSite s sid).core x.key).wait = .list → waitOver t sid x.key = true)) ∧
  ∀ (s : State) (sid key k z n v : Nat) (p : PendSend) (rel : Option Nat), waitsIn s sid key k →
    (strandOf (getSite s sid).core key).pend = some (.mcst p z n rel (some v)) → p.pkt.ks = 0 → p.dst = none → p.reads = none → p.out = some .rst →
    let x := getSite s sid
    let entry := fun k => v / 2 ^ (64 * k) % 2 ^ 64
    let null := fun k => k < n ∧ nameIn (BitVec.ofNat 64 (entry k)) % 2 ^ 18 = 0x3FFFF
    let odd := fun k => k < n ∧ offsetIn (BitVec.ofNat 64 (entry k)) % z ≠ 0
    let room := (remoteWrites x.core key).length < 16 ∧ 1 ≤ freePlaces x.core ∧ inTurn x.core key
    let passed := ∀ cls, rel = some cls → releaseFault x key cls = none ∧ releaseOpen x key cls = false
    let t := wakeUp s sid key
    ((strandOf x.core key).wait = .list → waitOver s sid key = true ∧
      (∀ j, null j → (∀ i, i < j → ¬null i) → keptTrap s t sid key k 
        { cause := 0x0C, pc := p.pc, info := BitVec.ofNat 64 (1 + p.pkt.stream * 2 ^ 8 + nameIn (BitVec.ofNat 64 (entry j)) * 2 ^ 32) }) ∧
      ((∀ j, ¬null j) → ∀ j, odd j → (∀ i, i < j → ¬odd i) → keptTrap s t sid key k 
        { cause := 0x05, pc := p.pc, info := BitVec.ofNat 64 (offsetIn (BitVec.ofNat 64 (entry j)) * 2 ^ 32) }) ∧
      ((∀ j, ¬null j ∧ ¬odd j) → 0 < n →
        (passed → room → replicaSent s t sid key p.pkt p.rep (entry 0) ((List.range (n - 1)).map fun k => entry (k + 1))) ∧
        (∀ cls f, rel = some cls → releaseFault x key cls = some f → keptTrap s t sid key k { f with pc := p.pc }) ∧
        (∀ cls, rel = some cls → releaseFault x key cls = none → releaseOpen x key cls = true →
          onlySite s t sid ∧ sameMemory s t ∧ (getSite t sid).core.inj0 = x.core.inj0 ∧
          (strandOf (getSite t sid).core key).wait = .mcst ((List.range n).map entry) (some cls) ∧ (Wait.mcst [] (some cls)).reason = 10))) ∧
    ∀ e l, (strandOf x.core key).wait = .mcst (e :: l) none → room →
      waitOver s sid key = true ∧ replicaSent s t sid key p.pkt p.rep e l ∧ (Wait.mcst (e :: l) none).reason = 9

end Sys2Proof.Claims

/-- Remote loads, stores, atomics and multicast stores are sent: `RemoteAccesses`, `MulticastStores`, `MulticastStoresGoOn`, together. -/
def Obligations.RemoteInstructions : Prop :=
  Sys2Proof.Claims.RemoteAccesses ∧ Sys2Proof.Claims.MulticastStores ∧ Sys2Proof.Claims.MulticastStoresGoOn

namespace Sys2Proof.Claims

/-- A request as its home sees it: reads and writes bytes, or is a store into a loggia (R313). -/
def requestReads (q : Packet) : Bool := q.kind != kRSTORE
def requestWrites (q : Packet) : Bool := q.kind != kRLOAD
/-- R169, R312, R313, R325, R326: REMOTE_REQUEST_ARRIVAL. A request that its home does not allow, or one that writes the firmware's handler entries
(the model's reading, log 73), is refused with its code and changes no memory, and so is one that meets an uncorrectable word, which is
counted with AGENT 1; one that comes while an earlier write of its strand and stream to this home, answered RETRY, is still to perform is answered
RETRY itself (R334 case 2, log 171). One that it allows: a load answers with the bytes, zero-extended; a store writes them and no other byte and answers; an atomic
leaves the new value of its operation and answers with the old one; a copy-form load reads its lines one by one and answers with the
bytes once all are read (that a later line may be refused after an earlier one was read, and the order of the lines, are log 71's reading). -/
def RemoteHomes : Prop :=
  (∀ (s : State) (sid : Nat) (q : Packet), s.arg = [sid] → handles (getSite s sid) q →
    q.kind = kRLOAD ∧ q.arg1.getLsbD 5 = false ∨ q.kind = kRSTORE ∨ q.kind = kRATOMIC ∧ q.ks.testBit 21 = false → behindRetry s q = false →
    let x := getSite s sid
    let off := q.ks % 2 ^ 21
    let n := 2 ^ (q.arg1.toNat / 2 ^ 3 % 4)
    let p := physOf x.core off
    let good := badIn x.core.bad p n = none
    let old := mread x.core.mem p n
    let fault := homeFault x q off (q.kind == kRSTORE && q.ks.testBit 21) (requestReads q) (requestWrites q)
    let firm := requestWrites q = true ∧ inFirmwareEntries x off n = true
    off % n = 0 →
    (∀ r d, fault = some (r, d) → ∃ t, exec .remoteRequestArrival s = .next t ∧ onlySite s t sid ∧ sameMemory s t ∧
      answered x (getSite t sid) q kNACK (r + d * 2 ^ 4)) ∧
    (fault = none → firm → ∃ t, exec .remoteRequestArrival s = .next t ∧ onlySite s t sid ∧ sameMemory s t ∧
      answered x (getSite t sid) q kNACK (8 + 3 * 2 ^ 4)) ∧
    (fault = none → ¬firm →
      (¬good → ¬(q.kind = kRSTORE ∧ n = 8) → ∃ t, exec .remoteRequestArrival s = .next t ∧ onlySite s t sid ∧ sameMemory s t ∧
        answered x (getSite t sid) q kNACK 11 ∧ ((∀ w ∈ x.core.bad, w % 8 = 0) → regF (getSite t sid) 0x053 22 21 = 1 ∧
          regF (getSite t sid) 0x052 47 32 = min (regF x 0x052 47 32 + 1) 0xFFFF)) ∧
      (q.kind = kRLOAD → good → ∃ t a, exec .remoteRequestArrival s = .next t ∧ onlySite s t sid ∧ sameMemory s t ∧
        answered x (getSite t sid) q kREPLY 2 ∧ (getSite t sid).core.inj1 = x.core.inj1 ++ [a] ∧ a.arg0 = BitVec.ofNat 64 old) ∧
      (q.kind = kRSTORE → (n = 8 ∨ good) → ∃ t, exec .remoteRequestArrival s = .next t ∧ onlySite s t sid ∧ answered x (getSite t sid) q kREPLY 3 ∧
        (lineFree s sid p → ∀ j, j < n → storeByte t sid (p + j) = BitVec.ofNat 8 (q.arg0.toNat / 256 ^ j)) ∧
        (∀ a, a < p ∨ p + n ≤ a → storeByte t sid a = storeByte s sid a)) ∧
      (q.kind = kRATOMIC → good → ∃ t a, exec .remoteRequestArrival s = .next t ∧ onlySite s t sid ∧ answered x (getSite t sid) q kREPLY 2 ∧
        (getSite t sid).core.inj1 = x.core.inj1 ++ [a] ∧ a.arg0 = BitVec.ofNat 64 old ∧
        (∀ b, b < p ∨ p + n ≤ b → storeByte t sid b = storeByte s sid b) ∧
        (lineFree s sid p → mread (getSite t sid).core.mem p n = (atomicValue (q.arg1.toNat % 8) (BitVec.ofNat (8 * n) old)
          (BitVec.ofNat (8 * n) (if q.arg1.toNat % 8 = 7 then flitsNat q.payload else q.arg0.toNat)) (BitVec.ofNat (8 * n) q.arg0.toNat)).toNat)))) ∧
  (∀ (s : State) (sid : Nat) (q : Packet), s.arg = [sid] → handles (getSite s sid) q → q.kind = kRLOAD → q.arg1.getLsbD 5 = true → behindRetry s q = false →
    let x := getSite s sid
    let off := q.arg0.toNat % 2 ^ 21
    (∀ r d, homeFault x q off false true false = some (r, d) → ∃ t, exec .remoteRequestArrival s = .next t ∧ onlySite s t sid ∧
      sameMemory s t ∧ answered x (getSite t sid) q kNACK (r + d * 2 ^ 4)) ∧
    (homeFault x q off false true false = none → ∃ t l, exec .remoteRequestArrival s = .next t ∧ onlySite s t sid ∧ sameMemory s t ∧
      (getSite t sid).core.inj1 = x.core.inj1 ∧ (getSite t sid).core.landing = some l ∧ l.pkt = q ∧ l.acc = 0 ∧
      l.left = List.range (listUnits off (q.arg1.toNat / 2 ^ 8 % 2 ^ 12)).length)) ∧
  (∀ (s : State) (sid : Nat) (q : Packet), s.arg = [sid] → handles (getSite s sid) q →
    q.kind = kRLOAD ∨ q.kind = kRSTORE ∨ q.kind = kRATOMIC ∧ q.ks.testBit 21 = false → behindRetry s q = true →
    ∃ t, exec .remoteRequestArrival s = .next t ∧ onlySite s t sid ∧ sameMemory s t ∧ answered (getSite s sid) (getSite t sid) q kNACK rRETRY) ∧
  ∀ (s : State) (sid i j a k o : Nat) (l : Landing), s.arg = [sid, i] → (getSite s sid).core.landing = some l → l.pkt.kind = kRLOAD →
    let x := getSite s sid
    let n := l.pkt.arg1.toNat / 2 ^ 8 % 2 ^ 12
    let acc := l.acc + mread x.core.mem (physOf x.core a) k * 256 ^ o
    l.left[i]? = some j → (listUnits (l.pkt.arg0.toNat % 2 ^ 21) n)[j]? = some (.read a k o) →
    ∃ t, exec .remoteRequestArrival s = .next t ∧ onlySite s t sid ∧ sameMemory s t ∧
      (badIn x.core.bad (physOf x.core a) k ≠ none → (getSite t sid).core.landing = none ∧ answered x (getSite t sid) l.pkt kNACK 11) ∧
      (badIn x.core.bad (physOf x.core a) k = none →
        (1 < l.left.length → (getSite t sid).core.landing = some { l with left := l.left.eraseIdx i, acc := acc }) ∧
        (l.left = [j] → (getSite t sid).core.landing = none ∧ ∃ y, (getSite t sid).core.inj1 = x.core.inj1 ++ [y] ∧ y.kind = kREPLY ∧ y.ks = 4 ∧
          y.dest = l.pkt.src ∧ y.seq = l.pkt.seq ∧ y.arg0 = l.pkt.arg0 ∧ y.len = (n + 31) / 32 ∧ flitsNat y.payload = acc % 2 ^ (256 * y.len)))

/-- The trap that a refusal or a loss report of a remote access gives (R319, R321; the fields of one for a loss are the model's reading, log 67). -/
def answerTrap (o : Outst) (p : Packet) : TrapVal :=
  let r := p.ks % 2 ^ 4
  let d := p.ks / 2 ^ 4 % 2 ^ 4
  { cause := if r = rLOST then 0x0E else 0x0C, pc := o.pc
    info := BitVec.ofNat 64 ((if r = rLOST then 1 + d else if r = rUNREACHABLE ∨ r = rGUARD ∨ r = rMALFORMED then 4 else 3) +
      d * 2 ^ 4 + o.pkt.stream * 2 ^ 8 + r * 2 ^ 12 + o.seq % 2 ^ 16 * 2 ^ 16 + o.pkt.dest % 2 ^ 20 * 2 ^ 32) }

/-- R316, R318 to R321: REMOTE_ANSWER of the REPLY to a load or atomic writes gd and lets its strand go on; of its refusal other than RETRY, or its loss
report, nothing is written and the strand's wait ends with REMOTE_FAULT or MESSAGE_LOST; of one to a store it keeps that trap for the strand as a
deferred fault, the first one staying with OVER set, and counts it as lost where the strand has ended; of RETRY it plans a retry. With the answer to
the last store of an acquire half its strand goes on, or, where the answer is a refusal, its wait ends with the trap, and the
instruction has then only its wait left (log 148). -/
def RemoteAnswers : Prop :=
  ∀ (s : State) (sid : Nat) (p : Packet) (o : Outst), s.arg = [sid] →
    let x := getSite s sid
    let refused := (p.kind = kNACK ∨ p.kind = kFAULTREP) ∧ p.ks % 2 ^ 4 ≠ rRETRY
    let st := strandOf x.core o.key
    nextArrival x = some p → malformed x p = false → takesAnswers x = true → findOut x.core p.seq = some o → o.dead = false → o.seq = p.seq →
    (∀ d n k, o.kind = .rld (some d) n → reaches s sid o.key k d →
      (p.kind = kREPLY → ∃ t, exec .remoteAnswer s = .next t ∧ onlySite s t sid ∧ sameMemory s t ∧ findOut (getSite t sid).core p.seq = none ∧
        readG (seenBy t sid k) d = (if d = 0 then 0 else BitVec.ofNat 64 (p.arg0.toNat % 256 ^ n)) ∧
        (strandOf (getSite t sid).core o.key).wait = .none ∧ curPc (seenBy t sid k) = curPc (seenBy s sid k) + BitVec.ofNat 64 st.wlen) ∧
      (refused → (slotOf x.core k).st = .waiting → ∃ t, exec .remoteAnswer s = .next t ∧ onlySite s t sid ∧ sameMemory s t ∧
        findOut (getSite t sid).core p.seq = none ∧ (strandOf (getSite t sid).core o.key).wait = .none ∧
        (strandOf (getSite t sid).core o.key).trapOnResume = some (answerTrap o p) ∧
        (∀ r, readG (seenBy t sid k) r = readG (seenBy s sid k) r) ∧ curPc (seenBy t sid k) = curPc (seenBy s sid k))) ∧
    (p.kind = kNACK → p.ks % 2 ^ 4 = rRETRY → (∃ d n, o.kind = .rld d n) ∨ o.kind = .rst →
      ∃ t, exec .remoteAnswer s = .next t ∧ onlySite s t sid ∧ sameMemory s t ∧
        (getSite t sid).core.outs = x.core.outs.map fun y => if y.seq = p.seq then
          { y with due := some (retryAt x y.tries s.time), tries := y.tries + 1 } else y) ∧
    (o.kind = .rst → refused → o.acq = false → lives x.core o.key = false → ∃ t, exec .remoteAnswer s = .next t ∧ onlySite s t sid ∧ sameMemory s t ∧
      findOut (getSite t sid).core p.seq = none ∧ getSite t sid = countLost { x with core := (getSite t sid).core } 1) ∧
    (o.kind = .rst → refused → o.acq = false → lives x.core o.key = true →
      ∃ t v, exec .remoteAnswer s = .next t ∧ onlySite s t sid ∧ sameMemory s t ∧ findOut (getSite t sid).core p.seq = none ∧
        (strandOf (getSite t sid).core o.key).deferred = some v ∧
        (∀ v', st.deferred = some v' → v = { v' with info := v'.info ||| BitVec.ofNat 64 (2 ^ 52) }) ∧
        (st.deferred = none → v = { answerTrap o p with deferred := true }) ∧
        (strandOf (getSite t sid).core o.key).deferredOf = (if st.deferred = none then [] else st.deferredOf) ++ [(o.pkt.stream, o.pkt.dest, o.born)]) ∧
    ∀ k q, o.kind = .rst → o.acq = true → st.wait = .reply 6 q → waitsIn s sid o.key k → lives x.core o.key = true → st.deferred = none → st.acqBorn = o.born →
      (∀ y ∈ x.core.outs, y.seq = q → isRemoteWrite y = true) →
      (p.kind = kREPLY → (∀ y ∈ remoteWrites x.core o.key, y.seq ≠ p.seq → ¬(y.acq = true ∧ y.born = o.born)) →
        ∃ t, exec .remoteAnswer s = .next t ∧ onlySite s t sid ∧ sameMemory s t ∧ (strandOf (getSite t sid).core o.key).wait = .none ∧
          curPc (seenBy t sid k) = curPc (seenBy s sid k) + BitVec.ofNat 64 st.wlen) ∧
      (p.kind = kREPLY → (∃ y ∈ remoteWrites x.core o.key, y.seq ≠ p.seq ∧ y.acq = true ∧ y.born = o.born) →
        ∃ t, exec .remoteAnswer s = .next t ∧ onlySite s t sid ∧ sameMemory s t ∧ (strandOf (getSite t sid).core o.key).wait = .reply 6 q) ∧
      (refused → ∃ t, exec .remoteAnswer s = .next t ∧ onlySite s t sid ∧ sameMemory s t ∧
        (strandOf (getSite t sid).core o.key).wait = .none ∧ (strandOf (getSite t sid).core o.key).deferred = none ∧
        (strandOf (getSite t sid).core o.key).acqAt = some o.pc ∧
        (strandOf (getSite t sid).core o.key).trapOnResume = some { answerTrap o p with deferred := true })

end Sys2Proof.Claims

/-- Remote accesses are served at their home, and their answers end waits: `RemoteHomes`, `RemoteAnswers`, together. -/
def Obligations.RemoteHomesAndAnswers : Prop :=
  Sys2Proof.Claims.RemoteHomes ∧ Sys2Proof.Claims.RemoteAnswers

/-! ### Hasps (R341 to R352) -/

namespace Sys2Proof.Claims

/-- A hasp of the agent's core. -/
def haspAt (s : State) (k : Nat) : Hasp := tget {} (curSite s).core.hasps k
/-- Whether a token is complete: the phase has moved on from it by at most half of the counter's range (R342). -/
def complete (h : Hasp) (token : Nat) : Prop :=
  let d := (BitVec.ofNat 32 h.phase - BitVec.ofNat 32 token).toNat
  0 < d ∧ d ≤ 2 ^ 31
/-- A hasp after an arrival (R343): with the last one of a phase the next phase begins, closed where nothing is expected. -/
def arrived (h : Hasp) (drop : Bool) : Hasp :=
  let expect := if drop then h.expect - 1 else h.expect
  if h.left ≤ 1 then
    { h with phase := (h.phase + 1) % 2 ^ 32, left := expect, expect := expect, st := if expect = 0 then 2 else 1 }
  else { h with left := h.left - 1, expect := expect }
/-- Nothing waits on a hasp. -/
def noWaits (c : Core) (k : Nat) : Prop :=
  (∀ e ∈ c.strands, ∀ t, e.2.wait ≠ .hasp k t) ∧ ∀ e ∈ c.rwaits, e.2.1 ≠ k
/-- From s to t hasp a becomes h, the program counter moves on, and nothing else changes but the register d. -/
def haspBecomes (s t : State) (a : Nat) (h : Hasp) (d : Option RegRef) : Prop :=
  haspAt t a = h ∧ (∀ k, k ≠ a → haspAt t k = haspAt s k) ∧ curPc t = curPc s + 4 ∧ sameMemory s t ∧
  changesOnly d { core := fun c => { c with hasps := [], haspAt := [] } } s t
/-- What an instruction on a hasp leaves beside its own effect: what the cycle has done on the hasp (R343) is out of sight. -/
def haspHide : Hide where
  core c := { c with haspAt := [] }

/-- R320, R341 to R343, R348 to R352: HINIT opens a hasp on which nothing waits, and where something does traps HASP 4; HARRIVE, its release half
passed, waits for the next cycle, in which its arrival is applied: the phase before it is written, and the waits whose tokens are then complete
end; with something to wait for its release half waits first, with reason 10. HEXPECT adds expected arrivals; HWAIT completes on a complete token, and on one that is not complete of an open hasp
waits with reason 4; HTEST writes the token's and the hasp's state. An UNSET hasp traps HASP 1, a CLOSED one HASP 2, a count of 0 for HINIT HASP 3 and an
overflow HASP 5 (that HWAIT tests for UNSET first, log 69, and HEXPECT bounds EXPECT only with PERSIST, log 70, is the model's reading). -/
def HaspsLocal : Prop :=
  (∀ (s : State) (d a b : Nat), agentStands s →
    let h := haspAt s a
    let w := (readG s b).toNat
    let n := w % 2 ^ 16
    (guardTrap (.hinit a b) s = none →
      (n = 0 → ∃ t, exec (.hinit a b) s = .next t ∧ preciseTrap s t 0x10 (3 + a * 2 ^ 8)) ∧
      (0 < n → ¬noWaits (curSite s).core a → ∃ t, exec (.hinit a b) s = .next t ∧ preciseTrap s t 0x10 (4 + a * 2 ^ 8)) ∧
      (0 < n → noWaits (curSite s).core a → ∃ t, exec (.hinit a b) s = .next t ∧
        haspBecomes s t a { st := 1, remote := w.testBit 16, phase := h.phase, expect := n, left := n } none)) ∧
    (∀ drop c, guardTrap (.harrive d a drop c) s = none → nameable s d →
      (releaseFault (curSite s) (curKey s) (classOf c) = none → releaseOpen (curSite s) (curKey s) (classOf c) = true →
        ∃ t, exec (.harrive d a drop c) s = .next t ∧ (strandOf (curSite t).core (curKey s)).wait = .release (classOf c) ∧
          (strandOf (curSite t).core (curKey s)).pend = some (.arrive d a (drop == 1)) ∧ haspAt t a = h ∧ curPc t = curPc s ∧
          (∀ r, readG t r = readG s r) ∧ sameMemory s t) ∧
      (releasePasses s c → ∃ t, exec (.harrive d a drop c) s = .next t ∧ haspAt t a = h ∧
        waits s t (.arriving (s.time + 1) d a (drop == 1)) ∧ (Wait.arriving 0 0 0 false).reason = 10)) ∧
    (guardTrap (.hexpect a b) s = none →
      (h.st = 0 → ∃ t, exec (.hexpect a b) s = .next t ∧ preciseTrap s t 0x10 (1 + a * 2 ^ 8)) ∧
      (h.st ≠ 0 → n = 0 → ∃ t, exec (.hexpect a b) s = .next t ∧ curPc t = curPc s + 4 ∧ changesOnly none haspHide s t ∧ sameMemory s t) ∧
      (h.st ≠ 0 → 0 < n → 65535 < h.left + n ∨ (w.testBit 16 = true ∧ 65535 < h.expect + n) →
        ∃ t, exec (.hexpect a b) s = .next t ∧ preciseTrap s t 0x10 (5 + a * 2 ^ 8)) ∧
      (h.st ≠ 0 → 0 < n → h.left + n ≤ 65535 → (w.testBit 16 = true → h.expect + n ≤ 65535) →
        ∃ t, exec (.hexpect a b) s = .next t ∧ haspBecomes s t a
          { h with left := h.left + n, expect := if w.testBit 16 then h.expect + n else h.expect, st := if h.st = 2 then 1 else h.st } none)) ∧
    (guardTrap (.hwait a b) s = none →
      (h.st = 0 → ∃ t, exec (.hwait a b) s = .next t ∧ preciseTrap s t 0x10 (1 + a * 2 ^ 8)) ∧
      (h.st ≠ 0 → complete h w → ∃ t, exec (.hwait a b) s = .next t ∧ curPc t = curPc s + 4 ∧ changesOnly none haspHide s t ∧ sameMemory s t) ∧
      (h.st = 2 → ¬complete h w → ∃ t, exec (.hwait a b) s = .next t ∧ preciseTrap s t 0x10 (2 + a * 2 ^ 8)) ∧
      (h.st = 1 → ¬complete h w → ∃ t, exec (.hwait a b) s = .next t ∧ (strandOf (curSite t).core (curKey s)).wait = .hasp a (w % 2 ^ 32) ∧
        (Wait.hasp a 0).reason = 4 ∧ curPc t = curPc s ∧ (∀ r, readG t r = readG s r) ∧ haspAt t a = h ∧ sameMemory s t)) ∧
    (guardTrap (.htest d a b) s = none → nameable s d → h.st < 3 → h.left < 2 ^ 16 → h.expect < 2 ^ 16 →
      ∃ t v, exec (.htest d a b) s = .next t ∧ readG t d = (if d = 0 then 0 else v) ∧ curPc t = curPc s + 4 ∧
        changesOnly (some (.g d)) haspHide s t ∧ sameMemory s t ∧ (v.getLsbD 0 = true ↔ complete h w) ∧ v.toNat / 2 % 4 = h.st ∧
        v.getLsbD 3 = h.remote ∧ v.toNat / 2 ^ 8 % 2 ^ 16 = h.left ∧ v.toNat / 2 ^ 24 % 2 ^ 16 = h.expect ∧
        v.toNat / 2 ^ 40 = h.phase % 2 ^ 24)) ∧
  ∀ (s : State) (sid key k due d a : Nat) (drop : Bool), waitsIn s sid key k → reaches s sid key k d →
    (strandOf (getSite s sid).core key).wait = .arriving due d a drop → due ≤ s.time →
    let x := getSite s sid
    let h := tget {} x.core.hasps a
    let t := wakeUp s sid key
    waitOver s sid key = true ∧
    (h.st = 0 → keptTrap s t sid key k { cause := 0x10, pc := (slotOf x.core k).ctx.pc, info := BitVec.ofNat 64 (1 + a * 2 ^ 8) }) ∧
    (h.st = 2 → keptTrap s t sid key k { cause := 0x10, pc := (slotOf x.core k).ctx.pc, info := BitVec.ofNat 64 (2 + a * 2 ^ 8) }) ∧
    (h.st = 1 → (∀ e ∈ x.core.strands, strandOf x.core e.1 = e.2) → onlySite s t sid ∧ readG (seenBy t sid k) d = (if d = 0 then 0 else BitVec.ofNat 64 h.phase) ∧
      (∀ r, r ≠ d → r < 16 ∨ d < 16 → readG (seenBy t sid k) r = readG (seenBy s sid k) r) ∧
      (strandOf (getSite t sid).core key).wait = .none ∧
      curPc (seenBy t sid k) = curPc (seenBy s sid k) + BitVec.ofNat 64 (strandOf x.core key).wlen ∧
      tget {} (getSite t sid).core.hasps a = arrived h drop ∧
      (∀ j, j ≠ a → tget {} (getSite t sid).core.hasps j = tget {} x.core.hasps j) ∧
      (noWaits x.core a → sameMemory s t) ∧
      ∀ key' tok, key' < 256 → key' ≠ key → (strandOf x.core key').wait = .hasp a tok →
        (complete (arrived h drop) tok → (strandOf (getSite t sid).core key').wait = .none) ∧
        (¬complete (arrived h drop) tok → (strandOf (getSite t sid).core key').wait = .hasp a tok))

/-- R316, R319, R344, R349, R350: HARRIVE.remote (after its release half) and HWAIT.remote send their request to the owner that their word names, and trap
REMOTE_FAULT 1 at a null home; HASP_REMOTE_REQUEST at an owner: an arrival at an open hasp that allows it is applied and answered with the phase before it;
a wait on a complete token is answered, and on another of an open hasp kept, refused FULL 4 where 64 are; one on an UNSET hasp, or one that
allows no remote use, is refused INVALID 8, and one on a CLOSED hasp INVALID 9. REMOTE_ANSWER of its REPLY ends the wait, with the phase
in gd for an arrival (the scope .sys of a wait's request is the model's reading, log 69). -/
def HaspsRemote : Prop :=
  (∀ (s : State) (d a b drop c : Nat), agentStands s →
    let w := readG s a
    let request := fun (hop scope : Nat) (v : Nat) =>
      { requestPkt s kRATOMIC (nameIn w) (w.toNat % 2 ^ 5 + hop * 2 ^ 5) 0 scope 0 0 v true with arg1 := 0 }
    let arrive : Sending := { p := request drop c 0, out := some (.harrive (toReg d)), waitsAnswer := true }
    let wait : Sending := { p := request 2 5 ((readG s b).toNat % 2 ^ 32), out := some .hwait, waitsAnswer := true }
    (guardTrap (.harriveRemote d a drop c) s = none →
      (nameIn w % 2 ^ 18 = 0x3FFFF → ∃ t, exec (.harriveRemote d a drop c) s = .next t ∧ preciseTrap s t 0x0C (1 + nameIn w * 2 ^ 32)) ∧
      (nameIn w % 2 ^ 18 ≠ 0x3FFFF →
        (releasePasses s c → roomFor s 1 → ∃ t, exec (.harriveRemote d a drop c) s = .next t ∧ sent s t arrive) ∧
        (releasePasses s c → ¬roomFor s 1 → ∃ t, exec (.harriveRemote d a drop c) s = .next t ∧ waitsToSend s t arrive (.allowance 1)) ∧
        (releaseFault (curSite s) (curKey s) (classOf c) = none → releaseOpen (curSite s) (curKey s) (classOf c) = true →
          ∃ t, exec (.harriveRemote d a drop c) s = .next t ∧ waitsToSend s t arrive (.release (classOf c))))) ∧
    (guardTrap (.hwaitRemote a b) s = none →
      (nameIn w % 2 ^ 18 = 0x3FFFF → ∃ t, exec (.hwaitRemote a b) s = .next t ∧ preciseTrap s t 0x0C (1 + nameIn w * 2 ^ 32)) ∧
      (nameIn w % 2 ^ 18 ≠ 0x3FFFF →
        (roomFor s 1 → ∃ t, exec (.hwaitRemote a b) s = .next t ∧ sent s t wait) ∧
        (¬roomFor s 1 → ∃ t, exec (.hwaitRemote a b) s = .next t ∧ waitsToSend s t wait (.allowance 1))))) ∧
  (∀ (s : State) (sid : Nat) (q : Packet), s.arg = [sid] → handles (getSite s sid) q → q.kind = kRATOMIC → q.ks.testBit 21 = true →
    let x := getSite s sid
    let k := q.ks % 2 ^ 5
    let h := tget {} x.core.hasps k
    let hop := q.ks / 2 ^ 5 % 4
    let tok := q.arg0.toNat % 2 ^ 32
    let refused := fun v => ∃ t, exec .haspRemoteRequest s = .next t ∧ onlySite s t sid ∧ sameMemory s t ∧
      answered x (getSite t sid) q kNACK v ∧ tget {} (getSite t sid).core.hasps k = h
    (h.st = 0 ∨ h.remote = false → refused (2 + 8 * 2 ^ 4)) ∧
    (h.st = 2 → h.remote = true → ¬(hop = 2 ∧ complete h tok) → refused (2 + 9 * 2 ^ 4)) ∧
    (h.st = 1 ∨ h.st = 2 → h.remote = true → hop = 2 → complete h tok → ∃ t a, exec .haspRemoteRequest s = .next t ∧ onlySite s t sid ∧
      sameMemory s t ∧ answered x (getSite t sid) q kREPLY 2 ∧ (getSite t sid).core.inj1 = x.core.inj1 ++ [a] ∧ a.arg0 = BitVec.ofNat 64 h.phase ∧
      tget {} (getSite t sid).core.hasps k = h) ∧
    (h.st = 1 → h.remote = true →
      (hop < 2 → noWaits x.core k → ∃ t a, exec .haspRemoteRequest s = .next t ∧ onlySite s t sid ∧ sameMemory s t ∧
        answered x (getSite t sid) q kREPLY 2 ∧ (getSite t sid).core.inj1 = x.core.inj1 ++ [a] ∧ a.arg0 = BitVec.ofNat 64 h.phase ∧
        tget {} (getSite t sid).core.hasps k = arrived h (hop == 1)) ∧
      (hop = 2 → ¬complete h tok → 64 ≤ x.core.rwaits.length → refused (1 + 4 * 2 ^ 4)) ∧
      (hop = 2 → ¬complete h tok → x.core.rwaits.length < 64 → ∃ t, exec .haspRemoteRequest s = .next t ∧ onlySite s t sid ∧ sameMemory s t ∧
        (getSite t sid).core.inj1 = x.core.inj1 ∧ (getSite t sid).core.rwaits = x.core.rwaits ++ [(q, k, tok)]))) ∧
  ∀ (s : State) (sid k : Nat) (p : Packet) (o : Outst), s.arg = [sid] →
    let x := getSite s sid
    nextArrival x = some p → malformed x p = false → takesAnswers x = true → findOut x.core p.seq = some o → o.dead = false → o.seq = p.seq →
    p.kind = kREPLY → o.kind = .hwait ∨ (∃ d, o.kind = .harrive (some d) ∧ reaches s sid o.key k d) → waitsIn s sid o.key k →
    ∃ t, exec .remoteAnswer s = .next t ∧ onlySite s t sid ∧ sameMemory s t ∧ findOut (getSite t sid).core p.seq = none ∧
      (strandOf (getSite t sid).core o.key).wait = .none ∧
      curPc (seenBy t sid k) = curPc (seenBy s sid k) + BitVec.ofNat 64 (strandOf x.core o.key).wlen ∧
      ∀ d, o.kind = .harrive (some d) → readG (seenBy t sid k) d = if d = 0 then 0 else BitVec.ofNat 64 (p.arg0.toNat % 2 ^ 32)

end Sys2Proof.Claims

/-- Hasps: the instructions, arrivals and waits of a core and of remote cores: `HaspsLocal`, `HaspsRemote`, together. -/
def Obligations.Hasps : Prop :=
  Sys2Proof.Claims.HaspsLocal ∧ Sys2Proof.Claims.HaspsRemote

/-! ### Reduction trees (R355 to R371) -/

namespace Sys2Proof.Claims

/-- The operation that a descriptor describes, but for its number (R368): tree, source, formats, operation, whether every member gets the
result, destination, elements or bytes, and counter. -/
def describes (r : RedOp) (v : Nat) (bcast : Bool) : Prop :=
  r.tree = v / 2 ^ 31 % 2 ^ 3 ∧ r.src = v % 2 ^ 21 ∧ r.sf = v / 2 ^ 21 % 2 ^ 5 ∧ r.df = v / 2 ^ 26 % 2 ^ 5 ∧ r.rop = v / 2 ^ 34 % 2 ^ 2 ∧
  r.all = v.testBit 36 ∧ r.dst = v / 2 ^ 64 % 2 ^ 21 ∧ r.elems = v / 2 ^ 85 % 2 ^ 20 ∧ r.cnt = v / 2 ^ 105 % 2 ^ 6 ∧ r.bcast = bcast
/-- Whether a descriptor is invalid (R368). -/
def badDescriptor (v : Nat) (bcast : Bool) : Prop :=
  v / 2 ^ 37 % 2 ^ 27 ≠ 0 ∨ v / 2 ^ 111 % 2 ^ 17 ≠ 0 ∨ 28 ≤ v / 2 ^ 21 % 2 ^ 5 ∨ 28 ≤ v / 2 ^ 26 % 2 ^ 5 ∨ v / 2 ^ 34 % 4 = 3 ∨
  bcast = true ∧ (v / 2 ^ 21 % 2 ^ 10 ≠ 0 ∨ v / 2 ^ 34 % 2 ^ 3 ≠ 0)

end Sys2Proof.Claims

/-- R368 to R370: FRED and FBCAST with a good descriptor on a tree that the core belongs to take the next number of the tree and write their
ticket; with four operations of the core unfinished on it they wait with reason 8; a bad descriptor traps COPY_FAULT 13, a tree that
the core may not use COPY_FAULT 12. FRWAIT writes the status of an operation that has ended and raises its flags, waits for one that has
not, writes STALE alone for one whose status is no longer kept, and traps COPY_FAULT 15 for a ticket that was never given. -/
def Obligations.ReductionsIssued : Prop :=
  ∀ (s : State) (d a : Nat), agentStands s → nameable s d →
    (∀ (i : Instr) (bcast : Bool) (st v : Nat), i = (if bcast then .fbcast d a st else .fred d a st) → guardTrap i s = none →
      blockIs s (readG s a).toNat 16 st v → v < 2 ^ 128 →
      let tree := v / 2 ^ 31 % 2 ^ 3
      let x := curSite s
      let mine := treeParent x tree ≠ 7 ∧ treeLocal x tree = true ∧ (bcast = true → treeParent x tree = 0)
      (badDescriptor v bcast → ∃ t, exec i s = .next t ∧ preciseTrap s t 0x0B (13 + (readG s a).toNat % 2 ^ 32 * 2 ^ 32)) ∧
      (¬badDescriptor v bcast → ¬mine → ∃ t, exec i s = .next t ∧ preciseTrap s t 0x0B 12) ∧
      (¬badDescriptor v bcast → mine → redRuns (redOpOf v tree st bcast s) s = none →
        (treeFree x.core tree = true → ∃ t r, exec i s = .next t ∧ (curSite t).core.redOps = x.core.redOps ++ [r] ∧ describes r v bcast ∧
          r.key = curKey s ∧ r.stream = st ∧ r.sent = 0 ∧ r.sentAll = false ∧ r.count = tget 0 x.core.epochs tree + 1 ∧
          tget 0 (curSite t).core.epochs tree = r.count ∧ curPc t = curPc s + 4 ∧ sameMemory s t ∧
          readG t d = (if d = 0 then 0 else BitVec.ofNat 64 (tree + r.count % 2 ^ 8 * 2 ^ 3))) ∧
        (treeFree x.core tree = false → ∃ t, exec i s = .next t ∧
          (strandOf (curSite t).core (curKey s)).wait = .treeSlot tree d ∧ (Wait.treeSlot tree d).reason = 8 ∧ curPc t = curPc s ∧
          (∀ r, readG t r = readG s r) ∧ sameMemory s t))) ∧
    (guardTrap (.frwait d a) s = none →
      let c := (curSite s).core
      let tree := (readG s a).toNat % 8
      let back := (BitVec.ofNat 8 (tget 0 c.epochs tree) - BitVec.ofNat 8 ((readG s a).toNat / 2 ^ 3)).toNat
      (tget 0 c.epochs tree ≤ back → ∃ t, exec (.frwait d a) s = .next t ∧ preciseTrap s t 0x0B 15) ∧
      (back < tget 0 c.epochs tree →
        ∀ r, c.redOps.find? (fun r => r.tree == tree && r.count == tget 0 c.epochs tree - back) = some r →
          (redEnded r = true → ∃ t, exec (.frwait d a) s = .next t ∧ curPc t = curPc s + 4 ∧ sameMemory s t ∧
            readG t d = (if d = 0 then 0 else BitVec.ofNat 64 (redStatus r)) ∧
            (curCtx t).fpflags = (curCtx s).fpflags ||| BitVec.ofNat 64 (redStatus r % 2 ^ 6)) ∧
          (redEnded r = false → ∃ t, exec (.frwait d a) s = .next t ∧ waits s t (.reduction (redTicket r) d))) ∧
      (back < tget 0 c.epochs tree → c.redOps.find? (fun r => r.tree == tree && r.count == tget 0 c.epochs tree - back) = none →
        ∃ t, exec (.frwait d a) s = .next t ∧ wrote s t d (2 ^ 9) 4))

namespace Sys2Proof.Claims

/-- Half of a mantissa, rounded to nearest, ties to even (R358). -/
def halved (m : Int) : Int := if m % 2 = 0 then m / 2 else if m / 2 % 2 = 0 then m / 2 else m / 2 + 1
/-- A mantissa of a block as a fold takes it: shifted up to the exponent E, step by step, and doubled where the other block's pair has μ and its
own has not (R360). -/
def folded (E : Nat) (x y : RBlock) (j : Nat) : Int :=
  let m := (List.range (E - x.e)).foldl (fun m _ => halved m) (x.m.getD j 0)
  if y.mu.testBit (j / 2) && !x.mu.testBit (j / 2) then 2 * m else m
/-- R358, R360: a fold of two blocks, neither a NaN block: the mantissas are aligned to the greater exponent and each pair of them is added, or the greater
or the lesser is taken. Where all results are in range they and that exponent stand; without μ, one out of range raises the exponent by one
and halves all of them, and at exponent 254 they saturate with SATURATE and OVERFLOW. A fold with a NaN block is one; the flags are those of both. -/
def foldsBlocks : Prop :=
  ∀ a b : RBlock, a.m.length = b.m.length →
    (a.e = 255 ∨ b.e = 255 → (combine a b).e = 255 ∧ (combine a b).flags = a.flags ||| b.flags) ∧
    (a.e < 255 → b.e < 255 → (∀ m ∈ a.m ++ b.m, -2 ^ 23 ≤ m ∧ m < 2 ^ 23) →
      let E := max a.e b.e
      let v := fun j => let x := folded E a b j; let y := folded E b a j
        if a.rop = 0 then x + y else if a.rop = 1 then max x y else min x y
      let fits := ∀ j, j < a.m.length → -2 ^ 23 ≤ v j ∧ v j < 2 ^ 23
      let is := fun (w : Nat → Int) (e mu fl : Nat) => (combine a b).m = (List.range a.m.length).map w ∧ (combine a b).e = e ∧
        (combine a b).mu = mu ∧ (combine a b).flags = fl
      (fits → is v E (a.mu ||| b.mu) (a.flags ||| b.flags)) ∧
      (¬fits → a.mu = 0 → b.mu = 0 → E < 254 → is (fun j => halved (v j)) (E + 1) 0 (a.flags ||| b.flags)) ∧
      (¬fits → a.mu = 0 → b.mu = 0 → E = 254 →
        is (fun j => max (-(2 ^ 23 - 1)) (min (2 ^ 23 - 1) (v j))) 254 0 (a.flags ||| b.flags ||| fSaturate ||| fOverflow)))

/-- A packet on a tree link that a router may take now. -/
def treeTaken (s : State) (sid q port : Nat) (p : Packet) : Prop :=
  s.arg = [sid, q] ∧ inputAt s sid q = some (port, p) ∧ p.vc = 3 ∧ p.prb = false ∧ (port < 6 → portPark (getSite s sid) port = p.park)

/-- The oldest operation of a core on a tree that awaits its result. -/
def awaits (x : Site) (tree : Nat) (r : RedOp) : Prop :=
  x.core.redOps.find? (fun r => r.tree == tree && r.receives && !r.delivered) = some r ∧
    ∀ e ∈ x.core.strands, ∀ d, e.2.wait ≠ .reduction (redTicket r) d
/-- From s to t the member's router has delivered block b of a result to operation r (R364): its elements stand at their place in DST, in the
destination format, and no other byte of the core's store has changed, where the page may be written for the group that issued it; where
it may not, no byte changes and ACCESS is noted. With the last block the counter is decremented. -/
def delivers (s t : State) (sid tree : Nat) (r : RedOp) (b : RBlock) : Prop :=
  let x := getSite s sid
  let n := min 32 (r.elems - 32 * b.blk)
  let y := encodeRun x.core.tdec r.df ((blockVals b).take n) 0 (List.replicate 32 0)
  let a := r.dst + runBytes r.df 32 * b.blk
  let len := runBytes r.df n
  let may := routerMay x (some (r.grp, r.uid)) (a / 4096) = true
  let done := max 1 b.nblk ≤ b.blk + 1
  let all := fun (f : RedOp → Prop) => ∀ r' ∈ (getSite t sid).core.redOps, r'.tree = tree → r'.count = r.count → f r'
  0 < n → a % 4096 + len ≤ 4096 → a < 2 ^ 21 → (∀ e ∈ linePieces a len, inFirmwareEntries x e.1 e.2 = false) →
  (∀ j, j < len → lineFree s sid (physOf x.core a + j)) →
  ¬done ∨ r.cnt = 0 ∨ (∃ ct, counterOf x.core r.cnt = some ct ∧ ct.handler = 0 ∧ 1 < ct.count) →
  (may → (∀ j, j < len → storeByte t sid (physOf x.core a + j) = BitVec.ofNat 8 (y.1 / 256 ^ j)) ∧
    ∀ q, q < physOf x.core a ∨ physOf x.core a + len ≤ q → storeByte t sid q = storeByte s sid q) ∧
  (¬may → sameMemory s t ∧ all fun r' => r'.access = true) ∧
  (all fun r' => r'.flags = r.flags ||| b.flags ||| y.2 ∧ (r'.delivered = true ↔ done)) ∧
  ∀ k ct, counterOf x.core k = some ct → counterOf (getSite t sid).core k =
    some (if done ∧ k = r.cnt ∧ r.cnt ≠ 0 then { ct with count := ct.count - 1 } else ct)

/-- R355, R358, R360 to R362, R364: RED_BLOCK_ARRIVAL of the last input of a one-block reduction at a node that has folded all earlier ones sends their fold
with it up the parent's link, and at the root delivers the result there and, where every member gets it, sends it to the child; where the fold has raised the
exponent and a later child has sent nothing, RENORM with it goes to that child; a block from a port that is no child's is discarded and
counted. A fold aligns the mantissas, adds or compares them, and is brought into range (to which group's pages a result may go is log 183's reading). -/
def ReductionBlocks : Prop :=
  foldsBlocks ∧
  ∀ (s : State) (sid q port : Nat) (p : Packet), treeTaken s sid q port p → p.kind = kRED →
    let x := getSite s sid
    let tree := p.ks % 2 ^ 3
    let nd := nodeOf x tree
    let i := if port = 5 then 5 else port + 1
    let b := pktBlock p
    let f := fun (h a : RBlock) =>
      { combine a b with blk := 0, nblk := h.nblk, epoch := h.epoch, fmt := h.fmt, rop := h.rop, all := h.all }
    (port ∉ childPorts x tree → ∃ t, exec .redBlockArrival s = .next t ∧ sameMemory s t ∧
      reg (getSite t sid) 0x075 = (reg x 0x075 + 1) % 2 ^ 32 ∧ (getSite t sid).router.trees = x.router.trees) ∧
    ∀ (h a : RBlock), port ∈ childPorts x tree → nd.head = some h → nd.blk = 0 → h.nblk ≤ 1 → nd.acc = some a → nd.mism = [] → nd.renorm = [] →
      (∀ j, tget 0 nd.owe j = 0) → (∀ j, tget [] nd.ins j = []) → sameRed h b = true → p.cargo.absent = 0 → nd.mute = [] → x.dead = false →
      (∀ (up n : Nat), parentPort x tree = some up → up < 4 → linkUp x up = true → nbr sid up = some n → n ≠ sid →
        (nodeInputs x tree).filter (fun j => decide (nd.pos ≤ j)) = [i] →
        ∃ t, exec .redBlockArrival s = .next t ∧ sameMemory s t ∧ (nodeOf (getSite t sid) tree).head = none ∧
          onLink s t sid up n (blockPkt sid (treeName x tree) (localPark x) tree kRED (f h a))) ∧
      (∀ (r : RedOp), treeParent x tree = 0 → treeLocal x tree = true → x.life = .live → evicted x = false → landsOnCounter x.core = false →
        awaits x tree r → (nodeInputs x tree).filter (fun j => decide (nd.pos ≤ j)) = [i] →
        ∃ t, exec .redBlockArrival s = .next t ∧ delivers s t sid tree r (f h a) ∧ (nodeOf (getSite t sid) tree).head = none ∧
          (h.all = false → onlySite s t sid) ∧
          ∀ d n, h.all = true → childPorts x tree = [d] → d < 4 → linkUp x d = true → nbr sid d = some n → n ≠ sid →
            onLink s t sid d n (blockPkt sid (treeName x tree) (localPark x) tree kBCAST (f h a))) ∧
      ∀ (k n : Nat), (nodeInputs x tree).filter (fun j => decide (nd.pos ≤ j)) = [i, k + 1] → k < 4 → i < k + 1 → treeParent x tree ≠ 7 →
        (treeParent x tree = 0 → evicted x = false ∧ landsOnCounter x.core = false) → linkUp x k = true → nbr sid k = some n → n ≠ sid →
        (∀ e ∈ x.router.inq, ¬(e.1 = k ∧ e.2.2.kind = kRED ∧ e.2.2.ks % 2 ^ 3 = tree)) →
        ∃ t, exec .redBlockArrival s = .next t ∧ sameMemory s t ∧ (nodeOf (getSite t sid) tree).acc = some (combine a b) ∧
          (nodeOf (getSite t sid) tree).pos = i + 1 ∧
          (a.e = (combine a b).e → onlySite s t sid) ∧
          (a.e < (combine a b).e → ∃ w, onLink s t sid k n w ∧ w.kind = kRENORM ∧ w.vc = 3 ∧ w.len = 0 ∧
            w.ks = tree + (combine a b).e * 2 ^ 5 + h.epoch * 2 ^ 13 ∧ w.arg0 = 0)

/-- R361, R362, R364, R369, R448: RENORM_ARRIVAL from the parent records the exponent for a block not yet sent; BCAST_ARRIVAL of a broadcast's bytes at a live
member without children, whose pages are writable, writes them and nothing else, and after the last of them the counter is decremented; of a block
of a result, it is delivered there to the oldest operation that awaits one; LOCAL_CONTRIBUTION_BLOCK of a
broadcast that fits one packet sends its bytes to the child and counts them as sent, and of a reduction at a leaf sends the quantised block to the
parent. -/
def ReductionMessages : Prop :=
  (∀ (s : State) (sid q port : Nat) (p : Packet), treeTaken s sid q port p →
    let x := getSite s sid
    let tree := p.ks % 2 ^ 3
    (p.kind = kRENORM → parentPort x tree = some port → hasSent (nodeOf x tree) (p.ks / 2 ^ 13 % 2 ^ 8) (p.arg0.toNat / 2 ^ 16 % 2 ^ 16) = false →
      ∃ t, exec .renormArrival s = .next t ∧ onlySite s t sid ∧ sameMemory s t ∧ (nodeOf (getSite t sid) tree).renorm =
        (nodeOf x tree).renorm ++ [(p.ks / 2 ^ 13 % 2 ^ 8, p.arg0.toNat / 2 ^ 16 % 2 ^ 16, p.ks / 2 ^ 5 % 2 ^ 8)]) ∧
    (p.kind = kBCAST → p.ks.testBit 21 = true → parentPort x tree = some port → childPorts x tree = [] → treeLocal x tree = true →
      x.life = .live → x.dead = false → evicted x = false → landsOnCounter x.core = false →
      let n := p.cargo.bytes
      let off := p.arg0.toNat % 2 ^ 21
      let cnt := p.arg0.toNat / 2 ^ 41 % 2 ^ 6
      0 < n → off % 32 + n ≤ 32 → eValid (pmapAt x.core (off / 4096)) = true → eW (pmapAt x.core (off / 4096)) = true →
      inFirmwareEntries x off n = false → p.cargo.last = false ∨ cnt = 0 ∨ (∃ ct, counterOf x.core cnt = some ct ∧ ct.handler = 0 ∧ 1 < ct.count) →
      ∃ t, exec .bcastArrival s = .next t ∧ onlySite s t sid ∧
        (lineFree s sid (physOf x.core off) → ∀ j, j < n → storeByte t sid (physOf x.core off + j) = BitVec.ofNat 8 (flitsNat p.payload / 256 ^ j)) ∧
        (∀ b, b < physOf x.core off ∨ physOf x.core off + n ≤ b → storeByte t sid b = storeByte s sid b) ∧
        ∀ k ct, counterOf x.core k = some ct → counterOf (getSite t sid).core k =
          some (if p.cargo.last = true ∧ k = cnt ∧ cnt ≠ 0 then { ct with count := ct.count - 1 } else ct)) ∧
    ∀ r, p.kind = kBCAST → p.ks.testBit 21 = false → parentPort x tree = some port → childPorts x tree = [] → treeLocal x tree = true →
      x.life = .live → x.dead = false → evicted x = false → landsOnCounter x.core = false → awaits x tree r →
      ∃ t, exec .bcastArrival s = .next t ∧ onlySite s t sid ∧ delivers s t sid tree r (pktBlock p)) ∧
  (∀ (s : State) (sid tree port n : Nat) (r : RedOp), s.arg = [sid, tree] → tree < 8 →
    let x := getSite s sid
    nextContribution x tree = some r → r.tree = tree → r.bcast = true → r.receives = false → childPorts x tree = [port] → port < 4 →
    linkUp x port = true → nbr sid port = some n → n ≠ sid → r.sent = 0 → 0 < r.elems → r.elems ≤ 32 * msgMax x →
    (∀ e ∈ x.core.strands, ∀ d, e.2.wait ≠ .reduction (redTicket r) d) →
    (∀ e ∈ linePieces r.src r.elems, eValid (pmapAt x.core (e.1 / 4096)) = true ∧ badLocal x.core e.1 e.2 = none) →
    ∃ t e, exec .localContributionBlock s = .next t ∧ sameMemory s t ∧ (getSite t n).router.inq = (getSite s n).router.inq ++ [e] ∧
      e.1 = opp port ∧ e.2.2.kind = kBCAST ∧ e.2.2.payload = natFlits (readRun x.core r.src r.elems) ((r.elems + 31) / 32) ∧
      e.2.2.arg0.toNat % 2 ^ 21 = r.dst % 2 ^ 21 ∧ e.2.2.ks.testBit 21 = true ∧
      ∀ r' ∈ (getSite t sid).core.redOps, r'.tree = tree → r'.count = r.count → r'.sentAll = true) ∧
  ∀ (s : State) (sid tree up n : Nat) (r : RedOp), s.arg = [sid, tree] → tree < 8 →
    let x := getSite s sid
    let bytes := runBytes r.sf r.elems
    let xs := decodeRun x.core.tdec r.sf r.elems (readRun x.core r.src bytes)
    let q := quantise xs.1
    nextContribution x tree = some r → r.tree = tree → r.bcast = false → r.receives = false → r.sent = 0 → 0 < r.elems → r.elems ≤ 32 →
    nodeInputs x tree = [0] → parentPort x tree = some up → up < 4 → linkUp x up = true → nbr sid up = some n → n ≠ sid → nodeOf x tree = {} →
    (∀ e ∈ x.core.strands, ∀ d, e.2.wait ≠ .reduction (redTicket r) d) →
    (∀ e ∈ linePieces r.src bytes, eValid (pmapAt x.core (e.1 / 4096)) = true ∧ badLocal x.core e.1 e.2 = none) →
    ∃ t, exec .localContributionBlock s = .next t ∧ sameMemory s t ∧
      onLink s t sid up n (blockPkt sid (treeName x tree) (localPark x) tree kRED
        { q with flags := q.flags ||| xs.2, blk := 0, nblk := 1, epoch := r.count % 2 ^ 8, fmt := r.sf, rop := r.rop, all := r.all }) ∧
      ∀ r' ∈ (getSite t sid).core.redOps, r'.tree = tree → r'.count = r.count → r'.sentAll = true

end Sys2Proof.Claims

/-- Reduction blocks combine at tree nodes and results are delivered: `ReductionBlocks`, `ReductionMessages`, together. -/
def Obligations.ReductionTraffic : Prop :=
  Sys2Proof.Claims.ReductionBlocks ∧ Sys2Proof.Claims.ReductionMessages

/-! ### Routers (R52 to R74) -/

namespace Sys2Proof.Claims

/-- A packet at a router's input, first of its port and channel, that the guard of the port lets pass (R68). -/
def comesIn (s : State) (sid q port : Nat) (p : Packet) : Prop :=
  s.arg = [sid, q] ∧ inputAt s sid q = some (port, p) ∧ heldFor (getSite s sid) p = false ∧
    (p.vc ≠ 2 → port < 6 → portPark (getSite s sid) port = p.park)
/-- The record of a port's requests (16 the core's, 20 the edge's) has room for a new name, and no probe is out (R64). -/
def recordFree (s : State) (sid key n : Nat) : Prop :=
  let pr := tget {} (getSite s sid).router.paths key
  pr.probe = none ∧ (∀ e ∈ pr.entries, e.dest ≠ n) ∧ pr.entries.length < 16

/-- The tail of a packet has not come over the link by a side of a site (R24). -/
def stillCrosses (s : State) (a d : Nat) (p : Packet) : Prop := ∃ e ∈ p.trail, e.1 = a ∧ e.2.1 = d ∧ s.time < e.2.2

/-- A packet as its router injects it: ORIGIN is the router's site, and PARK the park of its local port but for a report (R56, R67). -/
def stamped (x : Site) (p : Packet) : Packet := { p with origin := x.id, ing := false, park := if p.kind = kFAULTREP then p.park else portPark x 4 }
/-- A packet before a core, marked where it came after the cycle in which a STOP did (R406). -/
def before (s : State) (sid : Nat) (p : Packet) : Packet := { p with late := isLate (getSite s sid).core.evict s.time }

end Sys2Proof.Claims

/-- R56 to R58, R60, R67, R68: PACKET_RESOLVE of the oldest packet of a core's request buffer stamps ORIGIN and PARK, delivers it to the core where it bears
that core's own name, and sends one whose name the table knows by the first hop it gives; of the oldest answer it sends it towards the ORIGIN of the packet it
answers. PACKET_HOP sends a packet that is not at its TARGET by the port that the routing rule names, and delivers one that is there to the
core that bears its DEST (that a FAULTREP keeps the park of the packet it reports is the model's reading, log 47). -/
def Obligations.PacketsRouted : Prop :=
  ∀ (s : State) (sid : Nat),
    let x := getSite s sid
    (∀ j l, s.arg = [sid, 0] → x.core.inj0 = j :: l → j.done = true → x.core.evict.st = .run → j.pkt.vc = 0 → isNull j.pkt.dest = false →
      j.pkt.kind ≠ kSTOP → ¬(j.pkt.kind = kCOPYDATA ∧ j.pkt.arg1.toNat / 2 ^ 17 % 4 = 3) →
      recordFree s sid 16 j.pkt.dest → isAnswer j.pkt.kind = false → j.pkt.kind ≠ kFLOOD → waferOf j.pkt = siteW sid → j.pkt.mgmt = .none →
      (ownsCore x j.pkt.dest = true → ∃ t, exec .packetResolve s = .next t ∧ onlySite s t sid ∧ sameMemory s t ∧
        (getSite t sid).core = { x.core with inj0 := l, arrivals := x.core.arrivals ++ [before s sid (stamped x j.pkt)] }) ∧
      (∀ x' t' d n, owns s sid j.pkt.dest = false → ntLookup x j.pkt.dest = some (x', t', d) → meshLink s sid d n →
        ∃ t, exec .packetResolve s = .next t ∧ sameMemory s t ∧ (getSite t sid).core.inj0 = l ∧ onLink s t sid d n { stamped x j.pkt with tgt := some t' })) ∧
    (∀ p l t' d n, s.arg = [sid, 1] → x.core.inj1 = p :: l → p.vc = 1 → isNull p.dest = false → isAnswer p.kind = true → p.prb = false →
      p.ansTo = some t' → siteW t' = siteW sid → t' ≠ sid → p.hop1 = none → routeTo x t' = some d → meshLink s sid d n →
      ∃ t, exec .packetResolve s = .next t ∧ sameMemory s t ∧ (getSite t sid).core.inj1 = l ∧ onLink s t sid d n { stamped x p with tgt := some t' }) ∧
    ∀ q port p t', comesIn s sid q port p → p.prb = false → special sid p = false → p.tgt = some t' →
      (∀ d n, t' ≠ sid → routeTo x t' = some d → meshLink s sid d n → ∃ t, exec .packetHop s = .next t ∧ sameMemory s t ∧
        (getSite t sid).router.inq = x.router.inq.eraseIdx q ∧ onLink s t sid d n p ∧ (getSite t sid).core = x.core) ∧
      (t' = sid → p.vc = 0 → p.kind ≠ kSTOP → waferOf p = siteW sid → p.mgmt = .none → ownsCore x p.dest = true → portPark x 4 = p.park →
        ∃ t, exec .packetHop s = .next t ∧ onlySite s t sid ∧ sameMemory s t ∧ (getSite t sid).router.inq = x.router.inq.eraseIdx q ∧
          (getSite t sid).core = { x.core with arrivals := x.core.arrivals ++ [before s sid p] })

/-- R64 to R66: FLOOD_COPY_ARRIVAL at a router that does not own the name sends the copy, come from the parent or from a child, by every link of the
flood tree but the one it came by; where there is no other, or the copy came by no link of the tree, it is discarded and counted (a root with one
child is taken for such a leaf, log 167); at a router whose core owns the name it is delivered, and a FLOOD packet teaches the name to the packet's
ORIGIN. FLOOD_PACKET_SINK ends a packet that teaches a name at its TARGET; PROBE_ARRIVAL at a probe's TARGET answers it towards its ORIGIN; PROBE_ANSWER rewrites
the record and lets the packet held for it go by its own path. -/
def Obligations.FloodsAndProbes : Prop :=
  ∀ (s : State) (sid q port : Nat) (p : Packet), comesIn s sid q port p →
    let x := getSite s sid
    (p.fld = true → p.prb = false → p.vc ≠ 2 → owns s sid p.dest = false →
      let counted := ∃ t, exec .floodCopyArrival s = .next t ∧ onlySite s t sid ∧ sameMemory s t ∧
        (getSite t sid).router.inq = x.router.inq.eraseIdx q ∧ reg (getSite t sid) 0x075 = (reg x 0x075 + 1) % 2 ^ 32
      (floodPorts x = none → counted) ∧
      ∀ up kids, floodPorts x = some (up, kids) →
        let out := (if up = some port then [] else up.toList) ++ kids.filter fun d => d != port
        (¬(up = some port ∨ port ∈ kids) → counted) ∧
        (up = some port ∨ port ∈ kids → out = [] → counted) ∧
        (up = some port ∨ port ∈ kids → out ≠ [] → (∀ d ∈ out, ∃ n, meshLink s sid d n) →
          ∃ t, exec .floodCopyArrival s = .next t ∧ sameMemory s t ∧ (getSite t sid).router.inq = x.router.inq.eraseIdx q ∧
            (getSite t sid).core = x.core ∧ (∀ d ∈ out, ∀ n, nbr sid d = some n → onLink s t sid d n p) ∧
            ∀ m, m ≠ sid → (∀ d ∈ out, nbr sid d ≠ some m) → getSite t m = getSite s m)) ∧
    (p.fld = true → p.prb = false → p.vc = 0 → p.kind ≠ kSTOP → p.mgmt = .none → ownsCore x p.dest = true → portPark x 4 = p.park →
      isNull p.src = false → siteW p.origin = siteW sid → p.origin ≠ sid →
      ∀ d n, routeTo x p.origin = some d → meshLink s sid d n →
        ∃ t a, exec .floodCopyArrival s = .next t ∧ sameMemory s t ∧ (getSite t sid).router.inq = x.router.inq.eraseIdx q ∧
          (getSite t sid).core = { x.core with arrivals := x.core.arrivals ++ [before s sid p] } ∧ onLink s t sid d n a ∧
          a.kind = kFLOOD ∧ a.vc = 3 ∧ a.dest = p.src ∧ a.src = p.dest ∧ a.seq = p.seq ∧ a.park = p.park ∧ a.tgt = some p.origin) ∧
    (p.kind = kFLOOD → p.prb = false → p.fld = false → p.tgt = some sid → waferOf p = siteW sid →
      ∃ t, exec .floodPacketSink s = .next t ∧ onlySite s t sid ∧ sameMemory s t ∧ (getSite t sid).core = x.core ∧
        (getSite t sid).router.inq = x.router.inq.eraseIdx q) ∧
    (p.prb = true → p.kind ≠ kREPLY → p.fld = false → p.tgt = some sid → siteW p.origin = siteW sid → p.origin ≠ sid →
      ∀ d n, routeTo x p.origin = some d → meshLink s sid d n →
        ∃ t a, exec .probeArrival s = .next t ∧ sameMemory s t ∧ (getSite t sid).router.inq = x.router.inq.eraseIdx q ∧ onLink s t sid d n a ∧
          a.kind = kREPLY ∧ a.prb = true ∧ a.vc = 1 ∧ a.tgt = some p.origin ∧ a.arg0 = p.arg0 ∧ a.arg1 = p.arg1) ∧
    (p.prb = true → p.kind = kREPLY → p.tgt = some sid →
      let key := p.arg1.toNat
      let pr := tget {} x.router.paths key
      ∀ old h t' d n, pr.probe = some (old, p.arg0.toNat) → pr.held = [h] → h.tgt = some t' → h.hop1 = some d → meshLink s sid d n →
        ∃ t, exec .probeAnswer s = .next t ∧ sameMemory s t ∧ (tget {} (getSite t sid).router.paths key).probe = none ∧
          (tget {} (getSite t sid).router.paths key).held = [] ∧
          (tget {} (getSite t sid).router.paths key).entries.head? = some { dest := h.dest, path := some (t', d) } ∧
          onLink s t sid d n { h with tgt := some t' })

/-- R63, R64, R70, R73, R74, R292: NAME_TABLE_TICK, where a tick fell in the cycle, ages every entry that is valid and not pinned and that no other event of the
cycle has met, the oldest becoming invalid; ROUTE_FLUSH makes every valid entry that is not pinned invalid, but for one that a link failure of the cycle has
met (an invalid entry keeps its other fields, log 152, and the order of a cycle's events on an entry is log 151's reading); PROBE_CLEAR empties the
records of a router that holds no packet; LINK_DOWN marks a link down at both ends, makes the entries by it invalid, and has a packet whose tail has
not arrived reported LOST to its SRC; BRIDGE_FORWARD takes the oldest packet of a channel across its bridge, at least 200 cycles on, and
BRIDGE_REINJECT brings a packet that follows a tree into the rim router. -/
def Obligations.NamesLinksAndBridges : Prop :=
  (∀ (s : State) (sid : Nat), s.arg = [sid] →
    let r := (getSite s sid).router
    (∃ t, exec .nameTableTick s = .next t ∧ onlySite s t sid ∧ sameMemory s t ∧
      (r.ticked = false → (getSite t sid).router.nt = r.nt) ∧
      (r.ticked = true → (getSite t sid).router.nt.length = r.nt.length ∧
        ∀ (k : Nat) (e : Nat × Word), r.nt[k]? = some e → ∃ w, (getSite t sid).router.nt[k]? = some (e.1, w) ∧
          (e.2.getLsbD 42 = false ∨ e.2.getLsbD 41 = true ∨ (tget? r.ntRank e.1).isSome = true → w = e.2) ∧
          (e.2.getLsbD 42 = true → e.2.getLsbD 41 = false → tget? r.ntRank e.1 = none →
            (e.2.toNat / 2 ^ 38 % 8 < 7 → w = e.2 + 2 ^ 38) ∧
            (e.2.toNat / 2 ^ 38 % 8 = 7 → ∀ b, w.getLsbD b = (e.2.getLsbD b && b != 42))))) ∧
    ((r.nt.map Prod.fst).Nodup → ∃ t, exec .routeFlush s = .next t ∧ onlySite s t sid ∧ sameMemory s t ∧
      ∀ k, let e : Word := tget 0 r.nt k
        (e.getLsbD 42 = false ∨ e.getLsbD 41 = true ∨ 3 < tget 0 r.ntRank k → tget 0 (getSite t sid).router.nt k = e) ∧
        (e.getLsbD 42 = true → e.getLsbD 41 = false → tget 0 r.ntRank k ≤ 3 →
          ∀ b, (tget 0 (getSite t sid).router.nt k : Word).getLsbD b = (e.getLsbD b && b != 42))) ∧
    ((∀ e ∈ r.paths, e.2.held = []) → ∃ t, exec .probeClear s = .next t ∧ onlySite s t sid ∧ sameMemory s t ∧
      (getSite t sid).router.paths = [])) ∧
  (∀ (s : State) (a d b : Nat), s.arg = [a, d] → nbr a d = some b → a ≠ b → d < 4 → linkUp (getSite s a) d = true →
    (∀ e ∈ (getSite s a).router.ntRank ++ (getSite s b).router.ntRank, e.2 ≤ 4) →
    let quiet := fun (u e : Nat) => ∀ y ∈ s.sites, ∀ w ∈ y.2.router.inq, ¬stillCrosses s u e w.2.2
    quiet b (opp d) →
    (quiet a d → ∃ t, exec .linkDown s = .next t ∧ sameMemory s t ∧ linkUp (getSite t a) d = false ∧ linkUp (getSite t b) (opp d) = false ∧
      (reg (getSite t a) 0x076).testBit (8 * d + 6) = true ∧ (reg (getSite t b) 0x076).testBit (8 * opp d + 6) = true ∧
      (∀ k, let w : Word := tget 0 (getSite t a).router.nt k; ¬(w.getLsbD 42 = true ∧ w.toNat / 2 ^ 36 % 4 = d)) ∧
      ∀ m, m ≠ a → m ≠ b → getSite t m = getSite s m) ∧
    ∀ h port ready p d' n, (port, ready, p) ∈ (getSite s h).router.inq → stillCrosses s a d p →
      (∀ y ∈ s.sites, ∀ w ∈ y.2.router.inq, stillCrosses s a d w.2.2 → y.1 = h ∧ w = (port, ready, p)) →
      (s.sites.map Prod.fst).Nodup → ((getSite s h).router.inq.count (port, ready, p) = 1) → n ≠ h → p.prb = false → isAnswer p.kind = false → isTree p.kind = false → p.kind ≠ kFLOOD →
      p.vc ≠ 2 → p.mgmt = .none → siteW p.origin = siteW a → p.origin ≠ a → d' ≠ d → routeTo (endDown d (getSite s a)) p.origin = some d' →
      nbr a d' = some n → n ≠ a → n ≠ b →
      ∃ t e, exec .linkDown s = .next t ∧ sameMemory s t ∧ (port, ready, p) ∉ (getSite t h).router.inq ∧
        (getSite t n).router.inq = (getSite s n).router.inq ++ [e] ∧ e.1 = opp d' ∧ e.2.2.kind = kFAULTREP ∧ e.2.2.dest = p.src ∧ e.2.2.seq = p.seq ∧
        e.2.2.ks % 2 ^ 8 = 6 + 1 * 2 ^ 4 ∧ e.2.2.tgt = some p.origin) ∧
  ∀ (s : State) (b : Nat), s.arg = [b, 0] →
    let u := tget {} s.bridges b
    let far := 192 * beyond (b / 192) (b % 192 / 48) + 48 * opp (b % 192 / 48) + b % 48
    let up := u.present = true ∧ (tget {} s.bridges far).present = true
    (∀ p l, u.out = p :: l → far ≠ b →
      (up → ∃ t, exec .bridgeForward s = .next t ∧ sameMemory s t ∧ t.sites = s.sites ∧
        (tget {} t.bridges b).out = l ∧ (tget {} t.bridges far).inn = (tget {} s.bridges far).inn ++ [(s.time + 200, p)]) ∧
      (¬up → ∃ t, exec .bridgeForward s = .next t ∧ sameMemory s t ∧ (tget {} t.bridges far).inn = (tget {} s.bridges far).inn)) ∧
    ∀ ready p l, u.inn = (ready, p) :: l → ready ≤ s.time →
      isTree p.kind = true ∨ p.kind = kCOPYACK ∨ (p.kind = kCOPYDATA ∧ p.arg1.toNat / 2 ^ 17 % 4 = 3) →
      ∃ t, exec .bridgeReinject s = .next t ∧ sameMemory s t ∧ (tget {} t.bridges b).inn = l ∧
        (getSite t (bridgeSite b)).router.inq = (getSite s (bridgeSite b)).router.inq ++
          [(5, s.time, { p with tgt := none, fld := false, hop1 := none })]

/-! ### Memory and host ports (R260 to R262, R312, R330), and guard reports (R415, R416) -/

namespace Sys2Proof.Claims

/-- The tables of a park lead an address to a leaf at a level, with its page and its R and W bits: each entry on the way is valid,
readable, has its reserved bits 0, and none above the leaf is one (R261). -/
def leadsTo (u : Port) (park a level ppn : Nat) (r w : Bool) : Prop :=
  ∃ tbl : Nat → Nat, (tget 0 u.roots park).getLsbD 0 = true ∧ tbl 3 = (tget 0 u.roots park).toNat / 2 ^ 12 % 2 ^ 40 ∧ level < 3 ∧
    ∀ k, level ≤ k → k < 4 →
      let ea := tbl k * 4096 + 8 * (a / 2 ^ (12 + 10 * k) % 2 ^ 10)
      let e := mread u.mem ea 8
      badIn u.bad ea 8 = none ∧ e.testBit 0 = true ∧ e / 2 ^ 4 % 2 ^ 8 = 0 ∧ e / 2 ^ 52 = 0 ∧
      (level < k → e.testBit 3 = false ∧ tbl (k - 1) = e / 2 ^ 12 % 2 ^ 40) ∧
      (k = level → (level = 0 ∨ e.testBit 3 = true) ∧ e / 2 ^ 12 % 2 ^ 40 = ppn ∧ ppn % 2 ^ (10 * level) = 0 ∧
        e.testBit 1 = r ∧ e.testBit 2 = w)

/-- From s to t a port has put request q among those in flight, at an address of the memory behind it, with all of its words of 8 bytes still to be
performed (R261, R331). -/
def queuedAt (s t : State) (p : Nat) (q : Packet) (phys : Nat) : Prop :=
  ∃ r, (getPort t p).reqs = (getPort s p).reqs ++ [r] ∧ r.pkt = q ∧ r.phys = phys ∧ r.acc = 0 ∧ r.bad = false ∧ r.old = false ∧
    r.left = List.range ((phys + portBytes q + 7) / 8 - phys / 8)
/-- R261, R312: PORT_REQUEST with a fresh walk: a request that the port performs is translated to the page of its leaf and put among those
in flight where the leaf allows it; a park whose root is not valid is refused ACCESS with DETAIL 1, and a leaf that does not allow the
access with DETAIL 3; a request that no port performs is refused NOTARGET, and one that finds 4,096 in flight FULL. With a translation that the
port has kept, the request goes to the page that it gives. (That the root's and the table's reserved bits must be 0, log 100, which requests a
port performs, log 101, and when it uses a kept translation, log 104, are the model's reading.) -/
def PortRequests : Prop :=
  (∀ (s : State) (p : Nat) (q : Packet) (rest : List Packet), s.arg = [p, 0] → (getPort s p).arrivals = q :: rest → q.mgmt ≠ .portOp →
    let u := getPort s p
    let wr := q.kind ≠ kRLOAD
    ∃ t, exec .portRequest s = .next t ∧ (getPort t p).mem = u.mem ∧ sameMemory s t ∧
      (portTakes q = true → u.reqs.length < 4096 →
        (∀ level ppn r w, leadsTo u q.park q.arg0.toNat level ppn r w →
          ((wr → w = true) → (¬wr → r = true) → (getPort t p).arrivals = rest ∧ queuedAt s t p q (ppn * 4096 + q.arg0.toNat % 2 ^ (12 + 10 * level))) ∧
          (¬((wr → w = true) ∧ (¬wr → r = true)) → portAnswers s t p q kNACK (8 + 3 * 16) fun a => a.len = 0)) ∧
        ((tget 0 u.roots q.park).getLsbD 0 = false → portAnswers s t p q kNACK (8 + 1 * 16) fun a => a.len = 0)) ∧
      (portTakes q = true → 4096 ≤ u.reqs.length → portAnswers s t p q kNACK rFULL fun a => a.len = 0) ∧
      (portTakes q = false → q.kind ∈ [kRLOAD, kRSTORE, kRATOMIC, kINVOKE, kCOPYDATA] →
        portAnswers s t p q kNACK 10 fun a => a.len = 0)) ∧
  ∀ (s : State) (p k : Nat) (q : Packet) (rest : List Packet) (c : Cached), s.arg = [p, k + 1] → (getPort s p).arrivals = q :: rest →
    q.mgmt ≠ .portOp → portTakes q = true → (getPort s p).reqs.length < 4096 → (getPort s p).cache[k]? = some c → c.park = q.park →
    c.vpn = q.arg0.toNat % 2 ^ 52 / 2 ^ (12 + 10 * c.level) →
    ∃ t, exec .portRequest s = .next t ∧ sameMemory s t ∧
      ((if q.kind = kRLOAD then c.r else c.w) = true → (getPort t p).arrivals = rest ∧
        queuedAt s t p q (c.ppn * 4096 + q.arg0.toNat % 2 ^ (12 + 10 * c.level))) ∧
      ((if q.kind = kRLOAD then c.r else c.w) = false → portAnswers s t p q kNACK (8 + 3 * 16) fun a => a.len = 0)

/-- Whether two requests in flight touch no byte in common. -/
def apart (a b : PortReq) : Prop := a.phys + portBytes a.pkt ≤ b.phys ∨ b.phys + portBytes b.pkt ≤ a.phys
/-- A byte of a payload. -/
def payByte (p : Packet) (k : Nat) : Nat := (p.payload.getD (k / 32) 0).toNat / 256 ^ (k % 32) % 256
/-- The bytes from lo up to hi are the part of a request that lies in the word number w of those it touches. -/
def wordPart (r : PortReq) (w lo hi : Nat) : Prop :=
  lo = max r.phys (8 * (r.phys / 8 + w)) ∧ hi = min (r.phys + portBytes r.pkt) (8 * (r.phys / 8 + w) + 8) ∧ lo < hi

/-- R261, R330, R331: PORT_ACCESS_COMPLETE performs one word of 8 bytes of a request that touches no byte of an earlier one: of a load it reads the bytes that the
memory holds in that cycle and changes none; of a store it writes those bytes of its payload and no other. With its last word the request is answered,
a load with its bytes, or, where a word of it was uncorrectable, refused UNCORR, and is no longer in flight. -/
def PortAccesses : Prop :=
  ∀ (s : State) (p i j w lo hi : Nat) (r : PortReq), s.arg = [p, i, j] → (getPort s p).reqs[i]? = some r → r.left[j]? = some w → wordPart r w lo hi →
    (∀ k b, k < i → (getPort s p).reqs[k]? = some b → apart r b) →
    let q := r.pkt
    let n := portBytes q
    let good := badIn (getPort s p).bad lo (hi - lo) = none
    let acc := r.acc + mread (getPort s p).mem lo (hi - lo) * 256 ^ (lo - r.phys)
    let more := fun (t : State) (r' : PortReq) => (getPort t p).reqs = (getPort s p).reqs.set i { r' with left := r.left.eraseIdx j }
    let isOver := fun (t : State) => (getPort t p).reqs = (getPort s p).reqs.eraseIdx i
    ∃ t, exec .portAccessComplete s = .next t ∧
      (q.kind = kRLOAD → sameMemory s t ∧
        (1 < r.left.length → (good → more t { r with acc := acc }) ∧ (¬good → more t { r with bad := true })) ∧
        (r.left = [w] → isOver t ∧
          (r.bad = true ∨ ¬good → portAnswers s t p q kNACK 11 fun a => a.len = 0) ∧
          (r.bad = false → good → portAnswers s t p q kREPLY 4 fun a => a.len = (n + 31) / 32 ∧ flitsNat a.payload = acc % 2 ^ (256 * a.len)))) ∧
      (q.kind ≠ kRLOAD →
        (∀ b, lo ≤ b → b < hi → (portByte t p b).toNat = payByte q (b - r.phys)) ∧
        (∀ b, b < lo ∨ hi ≤ b → portByte t p b = portByte s p b) ∧ (∀ p' a, p' ≠ p → portByte t p' a = portByte s p' a) ∧
        (∀ sid a, storeByte t sid a = storeByte s sid a) ∧ (∀ k a, mgmtByte t k a = mgmtByte s k a) ∧
        (1 < r.left.length → more t r) ∧ (r.left = [w] → isOver t ∧ portAnswers s t p q kREPLY 3 fun a => a.len = 0))

end Sys2Proof.Claims

/-- Ports translate requests and perform them on the memory behind: `PortRequests`, `PortAccesses`, together. -/
def Obligations.PortTranslation : Prop :=
  Sys2Proof.Claims.PortRequests ∧ Sys2Proof.Claims.PortAccesses

namespace Sys2Proof.Claims

/-- A port has answered a management core's operation with a value. -/
def opAnswers (s t : State) (p : Nat) (q : Packet) (v : Word) : Prop :=
  sentFrom s t (portSite p) q.origin fun a => a.mgmt = .portOpAnswer ∧ a.vc = 2 ∧ a.arg0 = v ∧ a.ks = 0

/-- R262: PORT_ROOT_WRITE changes the V and PPN fields of the root that the operation selects, discards the translations the port holds for its park, and
answers with the value before; PORT_INVAL discards a park's translations, and is answered once the requests that had used one have been; that it then awaits
every request of the park in flight, whether one had used a translation or not, is the model's choice (log 102). -/
def PortRootsAndInvalidation : Prop :=
  (∀ (s : State) (p : Nat) (q : Packet) (rest : List Packet), s.arg = [p] → (getPort s p).arrivals = q :: rest → q.mgmt = .portOp →
    q.arg0.toNat % 2 ^ 12 = 0x731 → q.arg0.toNat / 2 ^ 12 % 4 ≠ 0 →
    let park := q.arg0.toNat / 2 ^ 16 % 2 ^ 8
    let old := tget 0 (getPort s p).roots park
    ∃ t, exec .portRootWrite s = .next t ∧ sameMemory s t ∧ (getPort t p).arrivals = rest ∧
      (∀ k, k < 64 → (tget 0 (getPort t p).roots park).getLsbD k =
        newBit (q.arg0.toNat / 2 ^ 12 % 4) (1 + 2 ^ 12 * (2 ^ 40 - 1)) old.toNat q.arg1.toNat k) ∧
      (∀ k, k ≠ park → tget 0 (getPort t p).roots k = tget 0 (getPort s p).roots k) ∧
      (getPort t p).cache = (getPort s p).cache.filter (fun c => c.park != park) ∧ opAnswers s t p q old) ∧
  (∀ (s : State) (p : Nat) (q : Packet) (rest : List Packet), s.arg = [p, 0] → (getPort s p).arrivals = q :: rest → q.mgmt = .portOp →
    q.arg0.toNat % 2 ^ 12 = 0x732 → q.arg0.toNat / 2 ^ 12 % 4 = 1 → q.arg1.getLsbD 0 = true →
    let park := q.arg0.toNat / 2 ^ 16 % 2 ^ 8
    ∃ t, exec .portInval s = .next t ∧ sameMemory s t ∧ t.sites = s.sites ∧ (getPort t p).arrivals = rest ∧
      (getPort t p).cache = (getPort s p).cache.filter (fun c => c.park != park) ∧ (getPort t p).invals = (getPort s p).invals ++ [(park, q)] ∧
      ∀ r ∈ (getPort t p).reqs, r.pkt.park = park → r.old = true) ∧
  ∀ (s : State) (p k park : Nat) (q : Packet), s.arg = [p, k + 1] → (getPort s p).invals[k]? = some (park, q) →
    ∃ t, exec .portInval s = .next t ∧ sameMemory s t ∧
      ((∃ r ∈ (getPort s p).reqs, r.old = true ∧ r.pkt.park = park) → t = s) ∧
      ((∀ r ∈ (getPort s p).reqs, r.old = false ∨ r.pkt.park ≠ park) →
        (getPort t p).invals = (getPort s p).invals.eraseIdx k ∧ (getPort t p).reqs = (getPort s p).reqs ∧ opAnswers s t p q 0)

/-- R68, R415, R416: a packet that PACKET_HOP finds at a mesh port whose park is not its own is dropped and counted, its SRC gets a FAULTREP GUARD by the
port that it came by, and the management core of the router's side a report of it; an answer is dropped and reported to that core alone, and
a FAULTREP only counted. GUARD_REPORT: a report that reaches its management core stands in GUARD_LOG with V, with OVF where V or OVF was 1,
and raises interrupt 3. (The layout of a report and of a FAULTREP's ARG1 are logs 59 and 63.) -/
def GuardReported : Prop :=
  (∀ (s : State) (sid q port : Nat) (p : Packet), s.arg = [sid, q] → inputAt s sid q = some (port, p) → special sid p = false → p.vc ≠ 2 → p.prb = false →
    port < 4 → heldFor (getSite s sid) p = false → portPark (getSite s sid) port ≠ p.park →
    let x := getSite s sid
    let m := rimAt (siteW sid) (regF x 0x073 45 44) 96
    ∃ t, exec .packetHop s = .next t ∧ sameMemory s t ∧ (getSite t sid).core = x.core ∧ (getSite t sid).router.nt = x.router.nt ∧
      reg (getSite t sid) 0x075 = (reg x 0x075 + 1) % 2 ^ 32 ∧
      (isAnswer p.kind = false → siteW p.origin = siteW sid → ∀ n, meshLink s sid port n → ∃ e ∈ (getSite t n).router.inq, e.1 = opp port ∧
        e.2.2.kind = kFAULTREP ∧ e.2.2.ks % 2 ^ 8 = rGUARD ∧ e.2.2.dest = p.src ∧ e.2.2.seq = p.seq ∧ e.2.2.tgt = some p.origin) ∧
      (p.kind ≠ kFAULTREP → siteW sid < 4 → m ≠ sid → ∀ d n, routeTo x m = some d → meshLink s sid d n → ∃ e ∈ (getSite t n).router.inq, e.1 = opp d ∧
        e.2.2.mgmt = .guardDrop ∧ e.2.2.vc = 2 ∧ e.2.2.tgt = some m ∧ e.2.2.arg0 = BitVec.ofNat 64 (siteX sid + siteY sid * 2 ^ 8 + siteW sid * 2 ^ 16 +
          port * 2 ^ 18 + p.src % 2 ^ 20 * 2 ^ 20 + p.park % 2 ^ 8 * 2 ^ 40 + p.kind % 2 ^ 4 * 2 ^ 48))) ∧
  ∀ (s : State) (k : Nat) (p : Packet), s.arg = [k] → (getMgmt s k).arrivals.head? = some p → p.mgmt = .guardDrop →
    ∃ t, exec .guardReport s = .next t ∧ sameMemory s t ∧ t.sites = s.sites ∧ (getMgmt t k).arrivals = (getMgmt s k).arrivals.tail ∧
      (mreg (getMgmt t k) 0x702).testBit 3 = true ∧ mreg (getMgmt t k) 0x7E8 % 2 ^ 52 = p.arg0.toNat % 2 ^ 52 ∧
      (mreg (getMgmt t k) 0x7E8).testBit 54 = p.arg0.getLsbD 54 ∧ (mreg (getMgmt t k) 0x7E8).testBit 52 = true ∧
      (mreg (getMgmt t k) 0x7E8).testBit 53 = ((mreg (getMgmt s k) 0x7E8).testBit 52 || (mreg (getMgmt s k) 0x7E8).testBit 53)

end Sys2Proof.Claims

/-- Roots and invalidation of ports; guard reports: `PortRootsAndInvalidation`, `GuardReported`, together. -/
def Obligations.PortRootsAndGuards : Prop :=
  Sys2Proof.Claims.PortRootsAndInvalidation ∧ Sys2Proof.Claims.GuardReported

/-! ### Power and heat (R420 to R429) -/

namespace Sys2Proof.Claims

/-- From s to t only the modules, the power regions and the management cores may have changed, and no byte of memory. -/
def onlyPower (s t : State) : Prop :=
  { t with modules := [], regions := [], mgmts := [] } = { s with modules := [], regions := [], mgmts := [] } ∧ sameMemory s t
/-- A power region's event and interrupt stand at its management core. -/
def eventAt (s t : State) (r b irq : Nat) : Prop :=
  let k := 4 * (r / 16) + (getRegion s r).ctl.toNat / 2 ^ 24 % 4
  (mreg (getMgmt t k) 0x719).testBit b = true ∧ (mreg (getMgmt t k) 0x702).testBit irq = true
/-- A field of a register that a module's management cores share. -/
def modField (s : State) (w n hi lo : Nat) : Nat := modReg (getModule s w) n / 2 ^ lo % 2 ^ (hi + 1 - lo)

/-- R423 to R426: STEP_BOUNDARY sets I_MEAS to the mean of the step's samples and the ceiling to it plus CURSTEP_LIMIT, releases a region whose
armed step has come, and ends a droop throttle after HOLD steps without a low sample; CURRENT_SAMPLE throttles by 7 above the ceiling and
otherwise lowers the throttle by one; VOLTAGE_SAMPLE below VMIN raises the droop throttle with its event, or holds it on. (That the mean is rounded
down is log 127, that an alarm takes effect with its sample log 128, and that a management core's events and interrupts go to the core that MGR
names log 131: the model's readings.) -/
def StepsCurrentAndVoltage : Prop :=
  (∀ (s : State) (r : Nat), s.arg = [r] →
    let g := getRegion s r
    ∃ t, exec .stepBoundary s = .next t ∧ onlyPower s t ∧ (∀ q, q ≠ r → getRegion t q = getRegion s q) ∧
      let g' := getRegion t r
      g'.imeas = (if g.samples = [] then g.imeas else g.samples.sum / g.samples.length) ∧ g'.samples = [] ∧
      g'.ceiling = g'.imeas + g.ctl.toNat % 2 ^ 12 ∧
      (∀ a, g.armed = some a → (a ≤ s.time / 320 % 2 ^ 32 → g'.armed = none ∧ g'.ctl.getLsbD 26 = false) ∧
        (s.time / 320 % 2 ^ 32 < a → g'.armed = some a ∧ g'.ctl = g.ctl)) ∧
      (g.armed = none → g'.ctl = g.ctl ∧ g'.armed = none) ∧
      (g.dip = true → modField s (r / 16) 0x718 15 12 ≠ 0 → g'.droopT = g.droopT) ∧
      (g.dip = false → g.clean + 1 < modField s (r / 16) 0x718 15 12 → g'.droopT = g.droopT) ∧
      (g.dip = false → modField s (r / 16) 0x718 15 12 ≤ g.clean + 1 → g'.droopT = 0) ∧ g'.stepT = g.stepT) ∧
  (∀ (s : State) (r a : Nat), s.arg = [r, a] →
    ∃ t, exec .currentSample s = .next t ∧ onlyPower s t ∧ (getRegion t r).samples = (getRegion s r).samples ++ [a] ∧
      ((getRegion s r).dead = false → (getRegion t r).stepT = if (getRegion s r).ceiling < a then 7 else (getRegion s r).stepT - 1)) ∧
  ∀ (s : State) (r mv : Nat), s.arg = [r, mv] → mv < 2 ^ 12 →
    ∃ t, exec .voltageSample s = .next t ∧ onlyPower s t ∧ (getRegion t r).volt = mv ∧
      (modField s (r / 16) 0x718 11 0 ≤ mv → (getRegion t r).droopT = (getRegion s r).droopT ∧ t.mgmts = s.mgmts) ∧
      (mv < modField s (r / 16) 0x718 11 0 → (getRegion t r).dip = true ∧
        ((getRegion s r).droopT = 0 → (getRegion t r).droopT = (getRegion s r).ctl.toNat / 2 ^ 20 % 2 ^ 4 ∧ eventAt s t r (r % 16) 1) ∧
        ((getRegion s r).droopT ≠ 0 → (getRegion t r).droopT = (getRegion s r).droopT ∧ t.mgmts = s.mgmts))

/-- A field's reading at or above a threshold, both in two's complement of 12 bits. -/
def reads12 (v th : Nat) : Prop := (BitVec.ofNat 12 th).toInt ≤ (BitVec.ofNat 12 v).toInt
/-- The region of a reticle field on its wafer (R15). -/
def regionOfField (f : Nat) : Nat := f / 36 * 4 + f % 12 / 3

/-- R427, R428: THERMAL_SAMPLE gives every field its reading; a field at or above ALERT_HI has its alert, and a new one its event; a region one of
whose fields is at or above TRIP_HI is tripped, and a trip ends when all its fields read below ALERT_HI. (That thresholds are read in two's
complement, and that a trip whose region reads below ALERT_HI in its own sampling ends in it, is the model's reading, log 129.) -/
def HeatSampled : Prop :=
  ∀ (s : State) (w : Nat) (temps : List Nat), s.arg = w :: temps → temps.length = 144 →
    let v (f : Nat) : Nat := temps.getD f 0
    let hi := modField s w 0x716 11 0
    ∃ t, exec .thermalSample s = .next t ∧ onlyPower s t ∧
      (∀ f, f < 144 → tget 0 (getModule t w).temps f = v f % 2 ^ 12 ∧
        (f ∈ (getModule t w).alerts ↔ f ∈ (getModule s w).alerts ∨ reads12 (v f) hi) ∧
        (f ∉ (getModule s w).alerts → reads12 (v f) hi → eventAt s t (16 * w + regionOfField f) (32 + regionOfField f) 0)) ∧
      ∀ r, r < 16 → ((getRegion t (16 * w + r)).trip = true ↔
        ((getRegion s (16 * w + r)).trip = true ∨ ∃ f, f < 144 ∧ regionOfField f = r ∧ reads12 (v f) (modField s w 0x716 23 12)) ∧
        ∃ f, f < 144 ∧ regionOfField f = r ∧ reads12 (v f) hi)

end Sys2Proof.Claims

/-- Power steps, current, voltage and heat: throttles, alerts and trips: `StepsCurrentAndVoltage`, `HeatSampled`, together. -/
def Obligations.PowerMeasured : Prop :=
  Sys2Proof.Claims.StepsCurrentAndVoltage ∧ Sys2Proof.Claims.HeatSampled

namespace Sys2Proof.Claims

/-- R429: REGULATOR_FAIL of a region leaves it failed and dead with its step throttle 0, raises its event, and its live cores are dead with their whole state
as at reset, but for accesses by the remote window that had reached the site; where the other regulator of the pair has failed already, every site of both
regions that had joined becomes a hole, with its router's, its core's and its attachment's state lost. (That a packet that had reached a dead core is answered
by its router, and what becomes of an attachment, is the model's reading, log 130.) -/
def RegulatorFailed : Prop :=
  ∀ (s : State) (r : Nat), s.arg = [r] → (getRegion s r).fail = false →
    let r' := r / 2 * 2 + (1 - r % 2)
    ∃ t, exec .regulatorFail s = .next t ∧ (getRegion t r).fail = true ∧ (getRegion t r).dead = true ∧ (getRegion t r).stepT = 0 ∧
      eventAt s t r (16 + r % 16) 2 ∧
      ∀ sid, tget? s.sites sid = some (getSite s sid) →
        (regionAt sid = r → (getSite s sid).life = .live → (getSite s sid).dead = false → (getRegion s r').fail = false →
          (getSite t sid).dead = true ∧ (getSite t sid).life = .live ∧
          (getSite t sid).core = { arrivals := (getSite s sid).core.arrivals.filter fun p => p.mgmt == .window }) ∧
        (regionAt sid = r ∨ regionAt sid = r' → (getSite s sid).life ≠ .unjoined → (getRegion s r').fail = true →
          (getSite t sid).life = .hole ∧ (getSite t sid).router = {} ∧ (getSite t sid).core = {} ∧
          (∀ p, portAt sid = some p → (getPort t p).present = false) ∧ ∀ b, bridgeAt sid = some b → tget {} t.bridges b = {})

/-- R422, R425, R427: PWR_CTL_WRITE replaces the RW fields of the selected region's PWR_CTL, or is refused with PWR_SEL.ERR where CURSTEP_LIMIT or DROOP_LEVEL is 0 or a
level is above 8; PWR_GO arms every held region for its release; THERM_SEL_WRITE selects a field, or is refused above 143. -/
def PowerRegisterWrites : Prop :=
  (∀ (s : State) (k v : Nat), s.arg = [k, v] →
    let r := 16 * (k / 4) + modField s (k / 4) 0x710 3 0
    let ok := v % 2 ^ 12 ≠ 0 ∧ v / 2 ^ 16 % 2 ^ 4 ≤ 8 ∧ v / 2 ^ 20 % 2 ^ 4 ≠ 0 ∧ v / 2 ^ 20 % 2 ^ 4 ≤ 8
    ∃ t, exec .pwrCtlWrite s = .next t ∧ onlyPower s t ∧ t.mgmts = s.mgmts ∧ (∀ q, q ≠ r → getRegion t q = getRegion s q) ∧
      (ok → (getRegion t r).ctl = BitVec.ofNat 64 (v % 2 ^ 27) ∧ (getRegion t r).armed = (if v.testBit 26 then none else (getRegion s r).armed) ∧
        modField t (k / 4) 0x710 4 4 = 0) ∧
      (¬ok → getRegion t r = getRegion s r ∧ modField t (k / 4) 0x710 4 4 = 1) ∧
      modField t (k / 4) 0x710 3 0 = modField s (k / 4) 0x710 3 0) ∧
  (∀ (s : State) (k v r : Nat), s.arg = [k, v] → r < 16 →
    let g := getRegion s (16 * (k / 4) + r)
    ∃ t, exec .pwrGo s = .next t ∧ onlyPower s t ∧ t.mgmts = s.mgmts ∧
      getRegion t (16 * (k / 4) + r) =
        if g.ctl.getLsbD 26 then { g with armed := some ((v + g.ctl.toNat / 2 ^ 12 % 2 ^ 4) % 2 ^ 32) } else g) ∧
  ∀ (s : State) (k v : Nat), s.arg = [k, v] →
    ∃ t, exec .thermSelWrite s = .next t ∧ onlyPower s t ∧ t.mgmts = s.mgmts ∧ t.regions = s.regions ∧
      (v % 2 ^ 8 ≤ 143 → modField t (k / 4) 0x714 7 0 = v % 2 ^ 8 ∧ modField t (k / 4) 0x714 8 8 = 0) ∧
      (143 < v % 2 ^ 8 → modField t (k / 4) 0x714 7 0 = modField s (k / 4) 0x714 7 0 ∧ modField t (k / 4) 0x714 8 8 = 1)

end Sys2Proof.Claims

/-- Regulator failure, and the power registers: `RegulatorFailed`, `PowerRegisterWrites`, together. -/
def Obligations.PowerControl : Prop :=
  Sys2Proof.Claims.RegulatorFailed ∧ Sys2Proof.Claims.PowerRegisterWrites

/-! ### Bring-up (R438 to R447) -/

namespace Sys2Proof.Claims

/-- From s to t only a module's record has changed. -/
def onlyModule (s t : State) (w : Nat) : Prop :=
  { t with modules := [] } = { s with modules := [] } ∧ ∀ v, v ≠ w → getModule t v = getModule s v
/-- The verified slot that a start runs: the active one, else the other (R444). -/
def startSlot (u : Module) (k : Nat) : Prop :=
  Config.signatureVerifies (tget [] u.images k) = true ∧
    (k = u.slotActive ∨ k = 1 - u.slotActive ∧ Config.signatureVerifies (tget [] u.images u.slotActive) = false)

/-- R439, R444: MODULE_RESET leaves every site of the module as before bring-up and every byte behind its ports and of its images; where a firmware
slot verifies, it is the active one, the module has started, and its four management cores run it from address 0, alone in their
stores; where none does, the module has not started and its management cores stand still. Wafer time is 0 where no other module has started
(the model's choice, log 12, as is the address at which firmware starts, log 113). -/
def ModuleReset : Prop :=
  ∀ (s : State) (w : Nat), s.arg = [w] →
    let u := getModule s w
    ∃ t, exec .moduleReset s = .next t ∧ (∀ sid, siteW sid = w → getSite t sid = { id := sid }) ∧
      (∀ sid, siteW sid ≠ w → getSite t sid = getSite s sid) ∧ (∀ p a, portByte t p a = portByte s p a) ∧
      (∀ v n a, imageByte t v n a = imageByte s v n a) ∧
      ((∀ e ∈ s.modules, e.1 = w ∨ e.2.started = false) → t.time = 0) ∧
      (∀ k, startSlot u k → (getModule t w).started = true ∧ (getModule t w).slotActive = k ∧
        ∀ i, i < 4 → (getMgmt t (4 * w + i)).st = .running ∧ (getMgmt t (4 * w + i)).ctx = {} ∧
          ∀ a, mgmtByte t (4 * w + i) a = if a < 0x40000 then imageByte s w k a else 0) ∧
      ((∀ k, ¬startSlot u k) → (getModule t w).started = false ∧ ∀ i, i < 4 → getMgmt t (4 * w + i) = {})

/-- The page-map entry of a virtual page that bring-up leaves: physical page, R 13, W 14, X 15, S 18 and V 19 (R439). -/
def joinedPage (v : Nat) : Nat :=
  if v < 7 then v + 2 ^ 13 + 2 ^ 14 + 2 ^ 15 + 2 ^ 18 + 2 ^ 19
  else if v = 7 then 7 + 2 ^ 13 + 2 ^ 19
  else if v < 16 then v + 2 ^ 13 + 2 ^ 14 + 2 ^ 18 + 2 ^ 19
  else if v < 48 then 16 + v % 16 + 2 ^ 13 + 2 ^ 19
  else 0

/-- R13, R69, R429, R438, R439, R441: SITE_JOIN of a site whose turn has come and that something tests, in EDGE-WAVE with no entry of the boot log: a core that
passes is live with the page map, HTAB_BASE and MBOX_CFG of bring-up and its supervisor context idle; a router that passes alone is transit-only, and so
is a core whose regulator has failed; anything else is a hole, and so is a site that nothing tests (log 157) or whose router's step the log skips. The
module has settled one site more; and the link to each neighbour that has joined comes up at both ends where its test passes. In PORT-FIRST a site's test
is kept until all 2,304 sites of its region are tested, and they join then. -/
def SitesJoin : Prop :=
  (∀ (s : State) (sid tested links : Nat) (rest : List Nat), s.arg = sid :: tested :: links :: rest → mayJoin s sid = true →
    let u := getModule s (siteW sid)
    u.cfg.getLsbD 0 = false →
    ∃ t, exec .siteJoin s = .next t ∧ (getModule t (siteW sid)).settled = u.settled + 1 ∧
      (hasTester s sid = false ∨ (∃ e ∈ u.startLog, e.toNat % 2 ^ 20 = siteX sid + siteY sid * 2 ^ 8 + 1 * 2 ^ 16 ∧
          ∀ e' ∈ u.startLog, e'.toNat % 2 ^ 19 = e.toNat % 2 ^ 19 → e' = e) →
        (getSite t sid).life = .hole ∧ (getModule t (siteW sid)).joined = u.joined) ∧
      (u.startLog = [] → hasTester s sid = true →
        (2 ≤ tested ∨ unpowered s sid = 2 → (getSite t sid).life = .hole ∧ (getModule t (siteW sid)).joined = u.joined) ∧
        (tested < 2 → unpowered s sid < 2 → tested = 1 ∨ unpowered s sid = 1 →
          (getSite t sid).life = .transit ∧ (getModule t (siteW sid)).joined = u.joined) ∧
        (tested = 0 → unpowered s sid = 0 → (getSite t sid).life = .live ∧ (getModule t (siteW sid)).joined = u.joined + 1 ∧
          (∀ v, v < 512 → tget 0 (getSite t sid).core.pmap v = BitVec.ofNat 64 (joinedPage v)) ∧ reg (getSite t sid) 0x046 = 0x8000 ∧
          regF (getSite t sid) 0x055 14 0 = 16 + 16 * 2 ^ 9 ∧ (getSite t sid).core.sup.st = .idle ∧ regF (getSite t sid) 0x023 21 21 = 0) ∧
        ∀ d n, d < 4 → nbr sid d = some n → tested < 2 → unpowered s sid < 2 → rest.getD (2 + d) 0 ≤ 16 →
          (getSite s n).life = .live ∨ (getSite s n).life = .transit →
          linkUp (getSite t sid) d = links.testBit d ∧ (links.testBit d = true → linkUp (getSite t n) (opp d) = true))) ∧
  ∀ (s : State) (sid : Nat) (rest : List Nat), s.arg = sid :: rest → mayJoin s sid = true → (getModule s (siteW sid)).cfg.getLsbD 0 = true →
    let u := getModule s (siteW sid)
    ∃ t, exec .siteJoin s = .next t ∧
      (u.tests.length < 2303 → t.sites = s.sites ∧ (getModule t (siteW sid)).settled = u.settled ∧
        ∃ e, (getModule t (siteW sid)).tests = u.tests ++ [e] ∧ e.sid = sid) ∧
      (u.tests.length = 2303 → (∀ e ∈ u.tests, siteW e.sid = siteW sid) → (getModule t (siteW sid)).tests = [] ∧
        (getModule t (siteW sid)).settled = u.settled + 2304 ∧ (getSite t sid).life ≠ .unjoined ∧ ∀ e ∈ u.tests, (getSite t e.sid).life ≠ .unjoined)

end Sys2Proof.Claims

/-- Module reset and the joining of sites: `ModuleReset`, `SitesJoin`, together. -/
def Obligations.BringUp : Prop :=
  Sys2Proof.Claims.ModuleReset ∧ Sys2Proof.Claims.SitesJoin

/-- R441 to R443, R445: LIFE_COUNTER_UPDATE adds the start (0) or the hour (1) and the events noted since to the life counters, which saturate;
BOOT_CFG_WRITE keeps the mode, the first port and the use of the log in flash and CLEAR_LOG empties the boot log, and neither changes anything else; SPDM_REQUEST at a
present host port of a started module is answered from its firmware slots, the images of its parks and its boot log (the contents of the answer are a
constant of the model, log 138, and the life counters' bookkeeping is log 137's). -/
def Obligations.FlashAndMeasurements : Prop :=
  (∀ (s : State) (w b : Nat), s.arg = [w, b] → b < 2 →
    ∃ t, exec .lifeCounterUpdate s = .next t ∧ onlyModule s t w ∧ (getModule t w).pending = [] ∧
      ∀ j, let u := getModule s w
        let more := (if j = 1 - b then 1 else 0) + ((u.pending.filter fun e => e.1 == j).map fun e => e.2).sum
        tget 0 (getModule t w).lives j = if j = 1 - b ∨ ∃ e ∈ u.pending, e.1 = j then min (tget 0 u.lives j + more) (2 ^ 64 - 1) else tget 0 u.lives j) ∧
  (∀ (s : State) (k v : Nat), s.arg = [k, v] → ∃ t, exec .bootCfgWrite s = .next t ∧ onlyModule s t (k / 4) ∧
      getModule t (k / 4) = { getModule s (k / 4) with bootCfg := BitVec.ofNat 64 (v % 2 ^ 4) }) ∧
  (∀ (s : State) (k : Nat), s.arg = [k] → ∃ t, exec .clearLog s = .next t ∧ onlyModule s t (k / 4) ∧
      getModule t (k / 4) = { getModule s (k / 4) with log := [] }) ∧
  ∀ (s : State) (w p n : Nat), s.arg = [w, p, n] →
    ∃ t, exec .spdmRequest s = .next t ∧ onlyModule s t w ∧
      ((getModule s w).started = true → (getPort s (132 * w + 128 + p)).present = true →
        (getModule t w).spdm = (getModule s w).spdm ++ [Config.spdmAnswer w p n (getModule s w).images (supImages s w) (getModule s w).log]) ∧
      ((getModule s w).started = false → t = s)

/-! ### Tenant switching (R403 to R414) -/

namespace Sys2Proof.Claims

/-- STOP_STAT's fields of a management core. -/
def stopField (s : State) (k hi lo : Nat) : Nat := mreg (getMgmt s k) 0x7E2 / 2 ^ lo % 2 ^ (hi + 1 - lo)
/-- The constructor of a STOP_CMD operation: 1 EVICT, 2 RESTORE, 3 RELEASE. -/
def stopInstr (op : Nat) : Instr := if op = 1 then .evict else if op = 2 then .restore else .release

/-- R403, R404: EVICT, RESTORE and RELEASE count a command in PENDING, an EVICT also in UNSTOPPED, and send a STOP packet on VC2 with STOP_AREA and OP
towards the site named; STOP_COMPLETION takes the command out of PENDING and keeps the code and the site of one that failed; STOP_ECHO takes one out of UNSTOPPED. -/
def StopCommands : Prop :=
  (∀ (s : State) (k v op : Nat), s.arg = [k, v] → 1 ≤ op → op ≤ 3 →
    let dst := siteAt (v / 2 ^ 18 % 4) (v % 2 ^ 8) (v / 2 ^ 8 % 2 ^ 8)
    ∃ t, exec (stopInstr op) s = .next t ∧ sameMemory s t ∧ stopField t k 15 0 = (stopField s k 15 0 + 1) % 2 ^ 16 ∧
      stopField t k 31 16 = (stopField s k 31 16 + if op = 1 then 1 else 0) % 2 ^ 16 ∧
      (siteW (mgmtSite k) = v / 2 ^ 18 % 4 → v % 2 ^ 8 < 192 → v / 2 ^ 8 % 2 ^ 8 < 192 → sentFrom s t (mgmtSite k) dst fun a =>
        a.kind = kSTOP ∧ a.vc = 2 ∧ a.origin = mgmtSite k ∧ a.arg0.toNat = mreg (getMgmt s k) 0x7E1 ∧ a.ks = op)) ∧
  (∀ (s : State) (k : Nat) (p : Packet), s.arg = [k] → (getMgmt s k).arrivals.head? = some p → p.mgmt = .stopDone →
    let code := p.ks % 2 ^ 4
    ∃ t, exec .stopCompletion s = .next t ∧ sameMemory s t ∧ t.sites = s.sites ∧ (getMgmt t k).arrivals = (getMgmt s k).arrivals.tail ∧
      stopField t k 15 0 = (stopField s k 15 0 + (2 ^ 16 - 1)) % 2 ^ 16 ∧ stopField t k 31 16 = stopField s k 31 16 ∧
      (code ≠ 0 → stopField t k 35 32 = code ∧
        stopField t k 55 36 = p.arg0.toNat % 2 ^ 16 + p.arg0.toNat / 2 ^ 18 % 4 * 2 ^ 16) ∧
      (code = 0 → stopField t k 55 32 = stopField s k 55 32)) ∧
  ∀ (s : State) (k : Nat), s.arg = [k] → (getMgmt s k).echoes ≠ 0 →
    ∃ t, exec .stopEcho s = .next t ∧ sameMemory s t ∧ t.sites = s.sites ∧ (getMgmt t k).echoes = (getMgmt s k).echoes - 1 ∧
      stopField t k 31 16 = (stopField s k 31 16 + (2 ^ 16 - 1)) % 2 ^ 16 ∧ stopField t k 15 0 = stopField s k 15 0

/-- From s to t a site has sent the completion of a command, with a code, to the rim site that commanded it. -/
def completionSent (s t : State) (sid mgr code : Nat) : Prop :=
  sentFrom s t sid mgr fun a => a.mgmt = .stopDone ∧ a.vc = 2 ∧ a.ks = code ∧ a.arg0.toNat % 2 ^ 20 = siteWord sid
/-- A STOP packet of an operation that a core handles now, the first that has reached it, and the others without it (R413). -/
def stopNext (x : Site) (op : Nat) (p : Packet) (l : List Packet) : Prop :=
  x.core.arrivals.find? (fun q => q.kind == kSTOP) = some p ∧ l = x.core.arrivals.eraseP (fun q => q.kind == kSTOP) ∧ p.ks % 2 ^ 4 = op

/-- An operation is out on the fabric: neither waiting to be sent again nor still in the injection buffer. -/
def isOut (c : Core) (o : Outst) : Prop := o.due = none ∧ ∀ j ∈ c.inj0, ¬(j.pkt.seq = o.seq ∧ j.pkt.kind = o.pkt.kind)
/-- R405 to R409, R413, R414: STOP_ARRIVAL of an EVICT stops a core in RUN, which remembers the area, where to answer and when its site's time was read, and
abandons its safety tests; one whose image could not be written begins SAVING again; any other refuses with code 2. QUIESCENCE makes a stopping core in which
nothing is in progress STOPPED and sends its stop echo; STOPPED_END, with every answer in or after TMO times 64 cycles, records what is unanswered, begins
SAVING and holds the core's name and park at its router. (What the quiescence of the tensor engine leaves is log 99's reading, which packets came by the
arrival cycle log 125's, and the echo's path log 122's.) -/
def CoresStop : Prop :=
  (∀ (s : State) (sid : Nat) (p : Packet) (l : List Packet), s.arg = [sid] → stopNext (getSite s sid) 1 p l →
    let e := (getSite s sid).core.evict
    ∃ t, exec .stopArrival s = .next t ∧ sameMemory s t ∧ (getSite t sid).core.arrivals = l ∧
      let e' := (getSite t sid).core.evict
      (e.st = .run → onlySite s t sid ∧ e'.st = .stopping ∧ e'.mgr = p.origin ∧ e'.area = p.arg0 ∧ e'.stopAt = some (e.stopAt.getD s.time) ∧
        e'.arrived = siteTime (e.stopAt.getD s.time) sid ∧ (getSite t sid).core.tum.tests = []) ∧
      (e.st = .stopped → e.failed = true → e'.st = .saving ∧ e'.mgr = p.origin ∧ e'.area = p.arg0 ∧
        (getSite t sid).router.hold = some (coreName (getSite s sid), localPark (getSite s sid)) ∧
        ∀ k, mgmtAt p.origin = some k → (getMgmt t k).echoes = (getMgmt s k).echoes + 1) ∧
      (e.st ≠ .run → ¬(e.st = .stopped ∧ e.failed = true) → e' = e ∧ completionSent s t sid p.origin 2)) ∧
  (∀ (s : State) (sid : Nat), s.arg = [sid] →
    let x := getSite s sid
    x.core.evict.st = .stopping → x.core.scalars = [] → x.core.vectors = [] → x.core.landing = none → x.core.ordReady = [] → toWrite x.core.tensor = none →
    (∀ w ∈ x.router.tiles, w.lines = []) → (∀ q ∈ x.core.arrivals, q.late = true ∨ q.vc = 2 ∨ isAnswer q.kind = true) →
    (∀ a ∈ x.core.accesses, a.fin = .engine) →
    ∃ t, exec .quiescence s = .next t ∧ sameMemory s t ∧ (getSite t sid).core.evict = { x.core.evict with st := .stopped, since := s.time } ∧
      ∀ k, mgmtAt x.core.evict.mgr = some k → (getMgmt t k).echoes = (getMgmt s k).echoes + 1) ∧
  ∀ (s : State) (sid : Nat), s.arg = [sid] →
    let c := (getSite s sid).core
    c.evict.st = .stopped → c.evict.failed = false →
    ((∀ o ∈ c.outs, ¬isOut c o) ∨ c.evict.since + c.evict.area.toNat / 2 ^ 8 % 2 ^ 12 * 64 ≤ s.time) →
    ∃ t, exec .stoppedEnd s = .next t ∧ sameMemory s t ∧ onlySite s t sid ∧ (getSite t sid).core.evict.st = .saving ∧
      (∀ o, o ∈ (getSite t sid).core.evict.lost ↔ o ∈ c.outs ∧ isOut c o) ∧
      (getSite t sid).router.hold = some (coreName (getSite s sid), localPark (getSite s sid))

end Sys2Proof.Claims

/-- STOP commands, and how a core stops: `StopCommands`, `CoresStop`, together. -/
def Obligations.CoresStopForEviction : Prop :=
  Sys2Proof.Claims.StopCommands ∧ Sys2Proof.Claims.CoresStop

namespace Sys2Proof.Claims

/-- R409, R410, R414: SAVE_COMPLETE writes the core's reserved pages, VERSION, the site, the time of the STOP and LOSTANS to the image area, and nothing else outside
it; the core's store, its registers and all its state are then cleared, the router's registers stay, its unpinned names are invalid, and the command completes; with a
port that does not answer or an uncorrectable word in a page it fails with code 5 and the core stays STOPPED. (That a port answers where it is there and
packets pass both ways, that the words that the image takes up are good afterwards, and the bytes of the unit state, are the model's readings, logs 117, 118 and
120.) -/
def CoresAreSaved : Prop :=
  ∀ (s : State) (sid : Nat), s.arg = [sid] → (getSite s sid).core.evict.st = .saving → memWf (getSite s sid).core.mem = true →
    let x := getSite s sid
    let area := x.core.evict.area
    let p := 132 * siteW sid + area.toNat % 2 ^ 7
    let a := area.toNat / 2 ^ 21 % 2 ^ 31 * 2 ^ 21
    let bad := ∃ b ∈ x.core.bad, b / 4096 ∈ savedPages x
    let header := fun (t : State) (k : Nat) => mread (getPort t p).mem (a + 0x1FF000 + 8 * k) 8
    ∃ t, exec .saveComplete s = .next t ∧
      (Sys2Proof.Machine.portAnswers s sid p = true → ¬bad →
        (∀ k i, k < resvL x → k < 384 → i < 4096 → portByte t p (a + 4096 * k + i) = storeByte s sid (4096 * k + i)) ∧
        header t 0 = Config.unitVersion % 2 ^ 64 ∧ header t 1 = siteWord x.id % 2 ^ 64 ∧ header t 2 = x.core.evict.arrived % 2 ^ 64 ∧
        header t 3 = x.core.evict.lostAns % 2 ^ 64 ∧
        ((∀ f ∈ imageFields x (imageSerial s (siteW sid)), f.1 + f.2.1 ≤ 2 ^ 21) →
          ∀ b, b < a ∨ a + 2 ^ 21 ≤ b → portByte t p b = portByte s p b) ∧
        (∀ b, b ∈ (getPort t p).bad ↔ b ∈ (getPort s p).bad ∧ inParts (imageParts x) a b = false) ∧
        (∀ p' b, p' ≠ p → portByte t p' b = portByte s p' b) ∧ (∀ b, storeByte t sid b = 0) ∧
        (∀ n b, n ≠ sid → storeByte t n b = storeByte s n b) ∧
        (getSite t sid).core = { inj1 := x.core.inj1, arrivals := x.core.arrivals, evict := { st := .idle, mgr := x.core.evict.mgr, area := area } } ∧
        (∀ n, n ≠ 0x075 → reg (getSite t sid) n = if isRouterReg n then reg x n else siteReset x.id n) ∧
        (∀ k, let w : Word := tget 0 (getSite t sid).router.nt k; w.getLsbD 42 = true → w.getLsbD 41 = true ∨ 3 < tget 0 x.router.ntRank k) ∧
        completionSent s t sid x.core.evict.mgr 0) ∧
      (Sys2Proof.Machine.portAnswers s sid p = false ∨ bad → sameMemory s t ∧ (getSite t sid).core.evict.st = .stopped ∧
        (getSite t sid).core.evict.failed = true ∧ completionSent s t sid x.core.evict.mgr 5)

/-- R406, R411, R414: RESTORE_ARRIVAL ends the held name, begins to restore an IDLE core from an image of this unit-state VERSION, and is refused with
code 3, 4 or 5 otherwise; RELEASE_ARRIVAL returns CORE_NAME to its reset value and ends the held name, or is refused with code 6 where no name is held. (When a port
answers is log 117's reading, that VERSION is read as the command arrives log 121's.) -/
def RestoresAndReleasesArrive : Prop :=
  (∀ (s : State) (sid : Nat) (q : Packet) (l : List Packet), s.arg = [sid] → stopNext (getSite s sid) 2 q l →
    let p := 132 * siteW sid + q.arg0.toNat % 2 ^ 7
    let a := q.arg0.toNat / 2 ^ 21 % 2 ^ 31 * 2 ^ 21
    let version := mread (getPort s p).mem (a + 0x1FF000) 8
    let e := (getSite s sid).core.evict
    let good := Sys2Proof.Machine.portAnswers s sid p = true ∧ badIn (getPort s p).bad (a + 0x1FF000) 8 = none
    ∃ t, exec .restoreArrival s = .next t ∧ sameMemory s t ∧ (getSite t sid).core.arrivals = l ∧ (getSite t sid).router.hold = none ∧
      (e.st ≠ .idle → completionSent s t sid q.origin 3 ∧ (getSite t sid).core.evict = e) ∧
      (e.st = .idle → ¬good → completionSent s t sid q.origin 5 ∧ (getSite t sid).core.evict = e) ∧
      (e.st = .idle → good →
        (version = Config.unitVersion % 2 ^ 64 → (getSite t sid).core.evict = { st := .restoring, area := q.arg0, mgr := q.origin }) ∧
        (version ≠ Config.unitVersion % 2 ^ 64 → (getSite t sid).core.evict = e ∧ completionSent s t sid q.origin 4))) ∧
  ∀ (s : State) (sid : Nat) (q : Packet) (l : List Packet), s.arg = [sid] → stopNext (getSite s sid) 3 q l →
    ∃ t, exec .releaseArrival s = .next t ∧ sameMemory s t ∧ (getSite t sid).core.arrivals = l ∧
      ((getSite s sid).router.hold = none → completionSent s t sid q.origin 6) ∧
      ((getSite s sid).router.hold ≠ none → (getSite t sid).router.hold = none ∧
        reg (getSite t sid) 0x041 = siteReset (getSite s sid).id 0x041 ∧ completionSent s t sid q.origin 0)

/-- R410, R411, R414: RESTORE_COMPLETE of an image whose unit state is one that a save wrote: the core runs again with its reserved pages, page map, slots'
program counters and CORE_NAME as the image has them, the STOP record waits where TRAP_VEC.EN is 1, and the command completes; a blocking invocation or a remote load whose answer was
lost takes MESSAGE_LOST 3; a port that does not answer or an uncorrectable word of the image fails it with code 5 and
leaves the core IDLE. An image whose unit state no save wrote stops the model: the manual does not define what is restored. (Which words an image
takes up, and that its state is found by the bytes of the unit state, are the model's readings, logs 117 and 118; a lost answer's subcode is log 160's, and the STOP
record's fields log 123's.) -/
def CoresAreRestored : Prop :=
  ∀ (s : State) (sid : Nat), s.arg = [sid] → (getSite s sid).core.evict.st = .restoring →
    let area := (getSite s sid).core.evict.area
    let p := 132 * siteW sid + area.toNat % 2 ^ 7
    let a := area.toNat / 2 ^ 21 % 2 ^ 31 * 2 ^ 21
    let badWord := fun (l : List (Nat × Nat)) => ∃ b ∈ (getPort s p).bad, ∃ r ∈ l, a + r.1 ≤ b ∧ b < a + r.1 + r.2
    let fixed := [(0x180000, 0x24C00), (0x1FF000, 0x20)]
    let parts := fun (im : Image) => imageParts { regs := im.regs, core := im.core }
    (Sys2Proof.Machine.portAnswers s sid p = true → ¬badWord fixed →
      (findImage s (getPort s p).mem a = none → exec .restoreComplete s = .fault .imageChanged) ∧
      ∀ im, findImage s (getPort s p).mem a = some im → ¬badWord (parts im) → memWf (getPort s p).mem = true → im.core.redOps = [] →
        (im.core.evict.lost = [] → ∃ t, exec .restoreComplete s = .next t ∧ (getSite t sid).core.evict = {} ∧
          (∀ k i, k < regF { regs := im.regs } 0x045 8 0 → k < 384 → i < 4096 →
            storeByte t sid (4096 * k + i) = portByte s p (a + 4096 * k + i)) ∧
          (∀ v, v < 512 → pmapAt (getSite t sid).core v = mread (getPort s p).mem (a + 0x193C00 + 8 * v) 8 % 2 ^ 20) ∧
          (∀ k, (tget? im.core.slots k).isSome = true → (slotOf (getSite t sid).core k).st = (slotOf im.core k).st ∧
            (slotOf (getSite t sid).core k).ctx.pc = BitVec.ofNat 64 (mread (getPort s p).mem (a + 0x188000 + 2560 * k) 8)) ∧
          (∀ w, tget? im.regs 0x041 = some w → reg (getSite t sid) 0x041 = w.toNat) ∧
          (regF (getSite t sid) 0x023 21 21 = 1 → ∃ r ∈ (getSite t sid).core.traps, r.slot = 16 ∧ r.val.cause = 0x14) ∧
          (∀ b, portByte t p b = portByte s p b) ∧ (∀ n b, n ≠ sid → storeByte t n b = storeByte s n b) ∧
          ((getSite s sid).router.trees = [] → completionSent s t sid (getSite s sid).core.evict.mgr 0)) ∧
        ∀ o k, im.core.evict.lost = [o] → o.dead = false → o.kind = .invoke ∨ (∃ d n, o.kind = .rld d n) → o.key < 256 →
          (strandOf im.core o.key).saved = none → findSlot im.core o.key = some k → (slotOf im.core k).st = .waiting →
          ∃ t v, exec .restoreComplete s = .next t ∧ (getSite t sid).core.evict = {} ∧
            (strandOf (getSite t sid).core o.key).trapOnResume = some v ∧ v.cause = 0x0E ∧ v.pc = o.pc ∧ v.info.toNat % 2 ^ 4 = 3) ∧
    (Sys2Proof.Machine.portAnswers s sid p = false ∨ badWord fixed ∨ (∃ im, findImage s (getPort s p).mem a = some im ∧ badWord (parts im)) →
      ∃ t, exec .restoreComplete s = .next t ∧ (getSite t sid).core.evict.st = .idle ∧
        completionSent s t sid (getSite s sid).core.evict.mgr 5)

end Sys2Proof.Claims

/-- A core is saved, cleared, restored and released: `CoresAreSaved`, `RestoresAndReleasesArrive`, `CoresAreRestored`, together. -/
def Obligations.CoresSavedAndRestored : Prop :=
  Sys2Proof.Claims.CoresAreSaved ∧ Sys2Proof.Claims.RestoresAndReleasesArrive ∧ Sys2Proof.Claims.CoresAreRestored

/-! ### Host-port ingress queues (R43 to R51) -/

namespace Sys2Proof.Claims

/-- From s to t queue q has taken an ingress fault: it is halted with the cause, holds no line and no open record, has dropped what it has not sent and
every retry, and has raised its port's interrupt where that is enabled (R50). -/
def queueFaults (s t : State) (q cause : Nat) : Prop :=
  let i := getIngress s q
  let j := getIngress t q
  j.halted = true ∧ j.cause = cause ∧ j.held = [] ∧ j.timers = [] ∧ j.isOpen = false ∧ j.bytes = [] ∧
    (∀ o ∈ j.outs, o.sent = true ∧ o.due = none) ∧ (∀ o ∈ i.outs, o.sent = true → o.due = none → o ∈ j.outs) ∧
    (getModule t (q / 64)).irqs = (getModule s (q / 64)).irqs ++ (if i.irqEn then [ingPort q] else [])
/-- From s to t a request has left its rim site by the path that the name table gives its name, past the guard of the edge. -/
def edgeSends (s t : State) (q : Nat) (p : Packet) : Prop :=
  let sid := ingSite q
  let x := getSite s sid
  portPark x 5 = p.park → p.vc = 0 → isAnswer p.kind = false → p.kind ≠ kFLOOD → isNull p.dest = false → p.dest / 2 ^ 18 % 4 = siteW sid →
    p.ansTo = none → owns s sid p.dest = false → heldFor x p = false → recordFree s sid 20 p.dest → ∀ x' dst d n, ntLookup x p.dest = some (x', dst, d) →
    meshLink s sid d n → onLink s t sid d n { p with tgt := some dst }

/-- A line of a launch: its sequence number, FIRST and FINAL (R44). -/
def lineSeq (data : Nat) : Nat := data % 64
def lineFirst (data : Nat) : Bool := data.testBit 6
def lineFinal (data : Nat) : Bool := data.testBit 7
/-- A queue that takes lines: its port is present, it is bound and not halted. -/
def takesLines (s : State) (q : Nat) : Prop :=
  (getPort s (ingPort q)).present = true ∧ (getIngress s q).bind.getLsbD 31 = true ∧ (getIngress s q).halted = false

/-- R43 to R46, R51: LAUNCH_LINE_WRITE of 64 aligned bytes to a queue that takes lines: a line ahead of a gap is held, with a timer where it closes a record; the
next line of the sequence joins the open record; a second line of a held number is fault 3, FIRST out of place or any other size or alignment fault 4. A halted or unbound queue
takes nothing; INGRESS_CTL sets the interrupt enable, and its RESET, like INGRESS_RESET, keeps only the binding, the enable and the packet counter. That INGRESS_CTL takes a write of any size, also at an unbound queue, is the model's reading (log entry 140). -/
def LaunchLines : Prop :=
  (∀ (s : State) (q off size data : Nat), s.arg = [q, off, size, data] →
    let i := getIngress s q
    let n := lineSeq data
    ∃ t, exec .launchLineWrite s = .next t ∧ sameMemory s t ∧
      (takesLines s q → off < 0x1000 → (size ≠ 64 ∨ off % 64 ≠ 0) → queueFaults s t q 4) ∧
      (takesLines s q → off < 0x1000 → off % 64 = 0 → size = 64 →
        ((tget? i.held n).isSome = true → queueFaults s t q 3) ∧
        (tget? i.held n = none → n ≠ i.nextLseq → tget? i.held i.nextLseq = none →
          getIngress t q = { i with held := tset i.held n (BitVec.ofNat 512 data)
                                    timers := if lineFinal data then tset i.timers n (s.time + i.bind.toNat / 2 ^ 32 % 2 ^ 24) else i.timers }) ∧
        (tget? i.held n = none → n = i.nextLseq → lineFirst data = i.isOpen → queueFaults s t q 4) ∧
        (tget? i.held n = none → n = i.nextLseq → lineFirst data ≠ i.isOpen → lineFinal data = false → tget? i.held ((n + 1) % 64) = none →
          (getIngress t q).nextLseq = (n + 1) % 64 ∧ (getIngress t q).isOpen = true ∧ (getIngress t q).records = i.records ∧
          (∀ k, tget? (getIngress t q).held k = tget? i.held k) ∧ (getIngress t q).bytes.length = i.bytes.length + 63 ∧
          ∀ k, (getIngress t q).bytes.getD k 0 =
            if k < i.bytes.length then i.bytes.getD k 0 else if k < i.bytes.length + 63 then BitVec.ofNat 8 (data / 256 ^ (k - i.bytes.length + 1)) else 0)) ∧
      ((i.halted = true ∨ i.bind.getLsbD 31 = false) → off < 0x1000 → t = s) ∧ (0x1008 ≤ off → t = s) ∧
      ((getPort s (ingPort q)).present = true → off = 0x1000 →
        getIngress t q = { (if data.testBit 0 then { bind := i.bind, seq := i.seq } else i) with irqEn := data.testBit 1 })) ∧
  ∀ (s : State) (q : Nat), s.arg = [q] → ∃ t, exec .ingressReset s = .next t ∧ sameMemory s t ∧
    getIngress t q = { bind := (getIngress s q).bind, irqEn := (getIngress s q).irqEn, seq := (getIngress s q).seq } ∧
    ∀ k, k ≠ q → getIngress t k = getIngress s k

/-- R45, R47, R48: the line that closes a record, at a queue with no packet outstanding: where the record reads well and names one destination, its packet bears the queue's name,
park and next sequence number, is kept for its answer and goes out at the rim site; where it does not read well the queue takes its fault. How a record of too few or too many bytes
reads is the model's reading (log entry 139). -/
def RecordsLaunch : Prop :=
  ∀ (s : State) (q off data : Nat), s.arg = [q, off, 64, data] → takesLines s q → off < 0x1000 → off % 64 = 0 →
    let i := getIngress s q
    lineSeq data = i.nextLseq → tget? i.held i.nextLseq = none → tget? i.held ((i.nextLseq + 1) % 64) = none → lineFirst data ≠ i.isOpen →
    lineFinal data = true → i.outs = [] →
    let bytes := i.bytes ++ bytesOf 63 (data % 2 ^ 512 / 256)
    ∃ t, exec .launchLineWrite s = .next t ∧ sameMemory s t ∧
      (∀ k, parseRecord bytes i.fields = .error k → queueFaults s t q k) ∧
      ∀ f pay, parseRecord bytes i.fields = .ok (f, pay) → (tget 0 f 0).testBit 20 = false →
        ∃ p : Packet, (getIngress t q).outs = [{ pkt := p, sent := true }] ∧ (getIngress t q).records = (i.records + 1) % 2 ^ 32 ∧
          (getIngress t q).seq = (i.seq + 1) % 2 ^ 16 ∧ (getIngress t q).fields = f ∧ (getIngress t q).isOpen = false ∧ (getIngress t q).bytes = [] ∧
          p.dest = tget 0 f 0 % 2 ^ 20 ∧ p.src = i.bind.toNat % 2 ^ 20 ∧ p.park = i.bind.toNat / 2 ^ 20 % 2 ^ 8 ∧ p.seq = i.seq ∧ p.vc = 0 ∧
          p.ing = true ∧ p.handler = tget 0 f 1 ∧ p.prio = tget 0 f 2 ∧ p.counter = tget 0 f 3 ∧ p.arg0 = BitVec.ofNat 64 (tget 0 f 6) ∧
          p.arg1 = BitVec.ofNat 64 (tget 0 f 7) ∧
          (tget 0 f 1 = 0 → p.kind = kDATA ∧ p.payload = pay) ∧
          (tget 0 f 1 ≠ 0 → p.kind = kINVOKE ∧ p.payload = BitVec.ofNat 256 (tget 0 f 5 + tget 0 f 4 * 2 ^ 64) :: pay) ∧
          edgeSends s t q p

end Sys2Proof.Claims

/-- Launch lines are taken in order, and records launch: `LaunchLines`, `RecordsLaunch`, together. -/
def Obligations.LaunchLinesAndRecords : Prop :=
  Sys2Proof.Claims.LaunchLines ∧ Sys2Proof.Claims.RecordsLaunch

/-- R46, R49, R50: INGRESS_TIMER_EXPIRY halts a queue whose FINAL line is still held after its timer with cause 2. INGRESS_ANSWER of the packet it matches by SEQ: an
acceptance ends it; a refusal FULL or RETRY sets its retry delay; FULL past the limit is fault 8, a loss 10 and any other refusal 7; nothing is done while the queue is halted.
INGRESS_RETRY sends the packet again with its own SEQ once the delay has passed. What a fault discards beside the record at hand, and that a refusal code R50 does not list counts as cause 7,
are the model's reading (log entry 143). -/
def Obligations.AnswersAndRetries : Prop :=
  (∀ (s : State) (q : Nat), s.arg = [q] → ∃ t, exec .ingressTimerExpiry s = .next t ∧ sameMemory s t ∧
    ((∃ e ∈ (getIngress s q).timers, e.2 < s.time) → queueFaults s t q 2) ∧ ((∀ e ∈ (getIngress s q).timers, s.time ≤ e.2) → t = s)) ∧
  (∀ (s : State) (q j : Nat) (p : Packet) (rest : List Packet) (o : IngOut), s.arg = [q] → (getIngress s q).arrivals = p :: rest →
    let i := getIngress s q
    let answered (o : IngOut) : Prop := o.sent = true ∧ o.due = none ∧ o.pkt.seq = p.seq
    i.outs[j]? = some o → answered o → (∀ k b, k < j → i.outs[k]? = some b → ¬answered b) →
    let code := p.ks % 2 ^ 4
    let refused := p.kind = kNACK ∨ p.kind = kFAULTREP
    ∃ t, exec .ingressAnswer s = .next t ∧ sameMemory s t ∧ (getIngress t q).arrivals = rest ∧
      (i.halted = true → getIngress t q = { i with arrivals := rest }) ∧
      (i.halted = false →
        (¬refused → (getIngress t q).outs = i.outs.eraseIdx j) ∧
        (refused → code = 4 ∨ (code = 1 ∧ o.full < i.bind.toNat / 2 ^ 56) →
          (getIngress t q).halted = false ∧ (getIngress t q).outs = i.outs.set j { o with
            tries := o.tries + 1, full := o.full + (if code = 1 then 1 else 0)
            due := some (s.time + 16 * 2 ^ (i.bind.toNat / 2 ^ 28 % 2 ^ 3) * 2 ^ min o.tries 8) }) ∧
        (refused → code = 1 → i.bind.toNat / 2 ^ 56 ≤ o.full → queueFaults s t q 8) ∧ (refused → code = 6 → queueFaults s t q 10) ∧
        (refused → code ∉ [1, 4, 6] → queueFaults s t q 7))) ∧
  ∀ (s : State) (q j due : Nat) (o : IngOut), s.arg = [q, j] → (getIngress s q).outs[j]? = some o → o.due = some due → due ≤ s.time →
    (∀ b ∈ (getIngress s q).outs, b.sent = true) →
    ∃ t, exec .ingressRetry s = .next t ∧ sameMemory s t ∧ (getIngress t q).outs = (getIngress s q).outs.set j { o with due := none } ∧
      (getIngress t q).seq = (getIngress s q).seq ∧ edgeSends s t q o.pkt

/-! ### Fetch lines, ages, frames, scrubbing and the remote window (R75, R76, R101 to R112, R169, R170, R391, R392, R398) -/

namespace Sys2Proof.Claims

/-- A byte that the agent at hand fetches at an address: of its management core's store, or of its site's local store through the page map. -/
def fetchByte (u : State) (a : Nat) : Byte :=
  match u.cur with
  | .mgmt k => mgmtByte u k a
  | .strand sid _ | .sup sid => storeByte u sid (physOf (getSite u sid).core a)
/-- The subcode of the first check of R75 and R392 that a word's address fails, as the first word of an instruction. -/
def fetchFails (u : State) (a sub : Nat) : Prop :=
  match u.cur with
  | .mgmt _ => (0x40000 ≤ a ∧ sub = 4) ∨ (a < 0x40000 ∧ a % 4 ≠ 0 ∧ sub = 3)
  | _ =>
    let e := pmapAt (curSite u).core (a / 4096)
    (0x200000 ≤ a ∧ sub = 4) ∨ (a < 0x200000 ∧ a % 4 ≠ 0 ∧ sub = 3) ∨
    (a < 0x200000 ∧ a % 4 = 0 ∧ ¬(eValid e = true ∧ eOwned (curSite u) e (checkGrp u) = true) ∧ sub = 1) ∨
    (a < 0x200000 ∧ a % 4 = 0 ∧ eValid e = true ∧ eOwned (curSite u) e (checkGrp u) = true ∧
      (eX e = false ∨ (checkGrp u).isSome = true ∧ eS e = true) ∧ sub = 2)

/-- R75, R76, R392: FETCH_LINE_FILL of a context that may run and does not hold the line of its program counter: where the word passes the checks the context holds the 32
bytes of that line, and nothing but its lines changes of its registers; where it fails one the context traps FETCH_FAULT with the check's subcode and the word's address. With that line held the fill is of the next line,
where a failing check traps, with [4] set, only an instruction that goes on into it, and otherwise abandons the prefetch. That only a context that may issue fills lines is the model's choice (log entry 24). -/
def FetchLinesFilled : Prop :=
  ∀ (s : State) (id n : Nat), s.arg = [id, n] →
    let u := { s with cur := agentOf id n }
    let a := (curPc u).toNat
    (runs u.cur u = true → lineAt (curCtx u) a = none →
      ((∀ sub, ¬fetchFails u a sub) → ∃ t, exec .fetchLineFill s = .next t ∧ sameMemory s t ∧ curPc t = curPc u ∧
        (∀ r, readG t r = readG u r) ∧ ∃ l ∈ (curCtx t).lines, l.base = a - a % 32 ∧
          ∀ j, j < 32 → l.data.toNat / 256 ^ j % 256 = (fetchByte u (a - a % 32 + j)).toNat) ∧
      ∀ sub, fetchFails u a sub → agentStands u → ∃ t, exec .fetchLineFill s = .next t ∧ trapTaken u t 0x03 (sub + a % 2 ^ 32 * 2 ^ 32) ∧ sameMemory s t) ∧
    let next := a - a % 32 + 32
    (runs u.cur u = true → ∀ l, lineAt (curCtx u) a = some l → lineAt (curCtx u) next = none →
      let goesOn := lineBad l a = false ∧ instrLen (lineWord l a) = 8 ∧ a + 4 = next
      ((∀ sub, ¬fetchFails u next sub) → ((curCtx u).abandoned ≠ some next ∨ goesOn) → ∃ t, exec .fetchLineFill s = .next t ∧ sameMemory s t ∧ curPc t = curPc u ∧
        (∀ r, readG t r = readG u r) ∧ lineAt (curCtx t) a = some l ∧ ∃ l' ∈ (curCtx t).lines, l'.base = next ∧
          ∀ j, j < 32 → l'.data.toNat / 256 ^ j % 256 = (fetchByte u (next + j)).toNat) ∧
      (∀ sub, fetchFails u next sub → goesOn → agentStands u → ∃ t, exec .fetchLineFill s = .next t ∧
        trapTaken u t 0x03 (sub + 16 + next % 2 ^ 32 * 2 ^ 32) ∧ sameMemory s t) ∧
      ∀ sub, fetchFails u next sub → ¬goesOn → ∃ t, exec .fetchLineFill s = .next t ∧ sameMemory s t ∧
        let v := { t with cur := u.cur }
        curPc v = curPc u ∧ (∀ r, readG v r = readG u r) ∧ (curCtx v).lines = (curCtx u).lines ∧ (curCtx v).abandoned = some next) ∧
    (runs u.cur u = false → exec .fetchLineFill s = .next s)

/-- R101, R103: AGE_PROMOTION raises a READY strand by one class for each 1,024 cycles of its age, and leaves others; YIELD_WINDOW_END lets a context issue again once the cycles
after its YIELD have passed, and not before. -/
def AgesAndYieldWindows : Prop :=
  (∀ (s : State) (sid k : Nat), s.arg = [sid, k] →
    let c := (getSite s sid).core
    let sl := slotOf c k
    ∃ t, exec .agePromotion s = .next t ∧ onlySite s t sid ∧ sameMemory s t ∧ (∀ j, j ≠ k → slotOf (getSite t sid).core j = slotOf c j) ∧
      (sl.st = .ready → 1024 * (sl.boost + 1) ≤ sl.age → slotOf (getSite t sid).core k = { sl with boost := sl.boost + 1 }) ∧
      (sl.st ≠ .ready ∨ sl.age < 1024 * (sl.boost + 1) → (getSite t sid).core = c)) ∧
  ∀ (s : State) (id n : Nat), s.arg = [id, n] →
    let u := { s with cur := agentOf id n }
    ∃ t, exec .yieldWindowEnd s = .next t ∧ sameMemory s t ∧ (yieldEnd u ≤ s.time → yieldEnd { t with cur := u.cur } = 0) ∧
      (s.time < yieldEnd u → yieldEnd { t with cur := u.cur } = yieldEnd u)

/-- A dword of a frame in a page of a core's store. -/
def frameWord (s : State) (sid page o n : Nat) : Nat := mread (getSite s sid).core.mem (page * 4096 + o) n

end Sys2Proof.Claims

/-- R109, R111, R112: a strand of a victim whose results are written enters SAVING. FRAME_SAVE_DONE writes the strand whose turn it is to the lowest free frame, as R111 lays it out (a store of that
cycle to one of its lines is lost), and its slot is free; after the group's last one the group is PREEMPTED. FRAME_RESTORE_DONE, for the last strand of a group to be restored, gives
the strand the registers its frame holds, reserved bits zero, and the state it records, READY where its wait has ended; of a stored status only [15:14] counts, as the model reads R111 (log entry 42). -/
def Obligations.FramesSavedAndRestored : Prop :=
  (∀ (s : State) (sid k : Nat), nextSave (getSite s sid).core = some k →
    let c := (getSite s sid).core
    (∃ g, groupOf c (slotOf c k).grp = some g ∧ g.victim = true) ∧ settled c (slotKey (slotOf c k)) = true ∧
    onlySite s (beginDue (.save sid) s) sid ∧ sameMemory s (beginDue (.save sid) s) ∧
    (slotOf (getSite (beginDue (.save sid) s) sid).core k).st = .saving ∧
    ∀ j, j ≠ k → slotOf (getSite (beginDue (.save sid) s) sid).core j = slotOf c j) ∧
  (∀ (s : State) (sid k page : Nat) (l : List Nat), s.arg = [sid] →
    let c := (getSite s sid).core
    let sl := slotOf c k
    let x := sl.ctx
    let st := strandOf c (slotKey sl)
    savingNow c = some k → freeFrames (getSite s sid) = page :: l →
    ∃ t, exec .frameSaveDone s = .next t ∧ onlySite s t sid ∧ slotOf (getSite t sid).core k = {} ∧
      (strandOf (getSite t sid).core (slotKey sl)).saved = some page ∧
      (∀ p, page * 4096 ≤ p → p < page * 4096 + 0xA00 → ¬lineFree t sid p) ∧
      (let trapped := (∃ r ∈ c.traps, r.slot < 16 ∧ r.grp = sl.grp ∧ r.idx = sl.idx) ∨ st.trapOnResume ≠ none
       ∀ g code, groupOf c sl.grp = some g → sl.grp < 16 → sl.idx < 16 → g.prio < 4 → code < 3 → (code = 2 ↔ trapped) →
        (code = 0 → st.wait = .none) → (code = 1 → st.wait ≠ .none) →
        frameWord t sid page 8 8 = sl.grp + sl.idx * 2 ^ 4 + st.wait.reason * 2 ^ 8 + g.prio * 2 ^ 12 + code * 2 ^ 14) ∧
      ((∀ e ∈ x.banks, e.2 < 256) → ∀ j, j < 6 → frameWord t sid page (0x98 + j) 1 = (tget? x.banks (j + 2)).getD 0xFF) ∧
      frameWord t sid page 0 8 = x.pc.toNat ∧ frameWord t sid page 0x10 8 = x.fpflags.toNat % 2 ^ 32 + x.fpctl.toNat % 2 ^ 32 * 2 ^ 32 ∧
      frameWord t sid page 0x18 8 = x.lfsr.toNat ∧
      (∀ r, 1 ≤ r → r < 16 → frameWord t sid page (0x20 + 8 * (r - 1)) 8 = (tget 0 x.g r).toNat) ∧
      (∀ r, r < 10 → frameWord t sid page (0xA0 + 8 * r) 8 = (mGet x r).toNat) ∧
      (∀ r, r < 8 → frameWord t sid page (0xF0 + 8 * r) 8 = (tget 0 x.f r).toNat) ∧
      (∀ r, 1 ≤ r → r < 8 → frameWord t sid page (0x130 + 16 * (r - 1)) 16 = (qGet x r).toNat) ∧
      (∀ r, r < 16 → frameWord t sid page (0x200 + 128 * r) 128 = (vGet x r).toNat) ∧
      (∀ p, p < page * 4096 ∨ page * 4096 + 0xA00 ≤ p → storeByte t sid p = storeByte s sid p) ∧
      ((∀ e ∈ c.slots, e.1 ≠ k → e.2.grp ≠ sl.grp) → ∀ g, groupOf c sl.grp = some g →
        ∃ g', groupOf (getSite t sid).core sl.grp = some g' ∧ g'.st = .preempted ∧ g'.victim = false)) ∧
  ∀ (s : State) (sid key k page : Nat) (g : Group), s.arg = [sid] →
    let c := (getSite s sid).core
    c.restores = [(key, k)] → (c.slots.filter fun e => e.2.st == .restoring && e.2.grp == key / 16).map (fun e => e.1) = [k] →
    slotKey (slotOf c k) = key → (strandOf c key).saved = some page → (strandOf c key).trapOnResume = none → groupOf c (key / 16) = some g →
    (∀ b ∈ c.bad, b / 4096 ≠ page) →
    ∃ t, exec .frameRestoreDone s = .next t ∧ onlySite s t sid ∧ sameMemory s t ∧ (getSite t sid).core.restores = [] ∧
      (strandOf (getSite t sid).core key).saved = none ∧ (∃ g', groupOf (getSite t sid).core (key / 16) = some g' ∧ g'.st = .running) ∧
      (let code := frameWord s sid page 8 8 / 2 ^ 14 % 4
       (code = 2 → (slotOf (getSite t sid).core k).st = .trapped) ∧
       (code = 1 → (strandOf c key).wait ≠ .none → (slotOf (getSite t sid).core k).st = .waiting) ∧
       (code = 1 → (strandOf c key).wait = .none → (slotOf (getSite t sid).core k).st = .ready) ∧
       (code = 0 → (slotOf (getSite t sid).core k).st = .ready)) ∧
      let y := (slotOf (getSite t sid).core k).ctx
      y.pc.toNat = frameWord s sid page 0 8 ∧ y.lfsr.toNat = frameWord s sid page 0x18 4 ∧ y.fpflags.toNat = frameWord s sid page 0x10 4 % 64 ∧
        (let w := frameWord s sid page 0x14 4
         y.fpctl.toNat = (if w % 8 = 7 then 0 else w % 8) + w / 16 % 64 * 16) ∧
        (∀ r, r < 8 → (tget 0 y.f r).toNat = frameWord s sid page (0xF0 + 8 * r) 8) ∧
        (∀ r, 2 ≤ r → r < 8 → tget? y.banks r = if frameWord s sid page (0x98 + (r - 2)) 1 = 0xFF then none else some (frameWord s sid page (0x98 + (r - 2)) 1)) ∧
        (∀ r, 1 ≤ r → r < 16 → (tget 0 y.g r).toNat = frameWord s sid page (0x20 + 8 * (r - 1)) 8) ∧
        (∀ r, r < 10 → (mGet y r).toNat = frameWord s sid page (0xA0 + 8 * r) 8) ∧
        (∀ r, 1 ≤ r → r < 8 → (qGet y r).toNat = frameWord s sid page (0x130 + 16 * (r - 1)) 16) ∧
        ∀ r, r < 16 → (vGet y r).toNat = frameWord s sid page (0x200 + 128 * r) 128

namespace Sys2Proof.Claims

/-- R169, R170: ECC_CORRECTION_WRITEBACK of a word found corrected: it bears an error no longer, the corrected words counted in LS_ECC are one more, and no byte changes.
SCRUB_LINE_READ finds the correctable words of the next of the 49,152 lines, counts its uncorrectable ones in UE_COUNT, which saturates, with the last of them and AGENT 4 in
LS_ECC_ADDR, and changes no byte. -/
def ErrorsCorrected : Prop :=
  (∀ (s : State) (sid w : Nat), s.arg = [sid, w, 0] → w ∈ (getSite s sid).core.found →
    ∃ t, exec .eccCorrectionWriteback s = .next t ∧ onlySite s t sid ∧ sameMemory s t ∧ w ∉ (getSite t sid).core.found ∧
      w ∉ (getSite t sid).core.correctable ∧ (getSite t sid).core.bad = (getSite s sid).core.bad ∧
      regF (getSite t sid) 0x052 31 0 = (regF (getSite s sid) 0x052 31 0 + 1) % 2 ^ 32 ∧
      regF (getSite t sid) 0x052 47 32 = regF (getSite s sid) 0x052 47 32) ∧
  (∀ (s : State) (k w : Nat), s.arg = [k, w, 1] → w ∈ (getMgmt s k).found →
    ∃ t, exec .eccCorrectionWriteback s = .next t ∧ t.sites = s.sites ∧ sameMemory s t ∧ w ∉ (getMgmt t k).found ∧ w ∉ (getMgmt t k).correctable ∧
      mreg (getMgmt t k) 0x052 % 2 ^ 32 = (mreg (getMgmt s k) 0x052 + 1) % 2 ^ 32) ∧
  ∀ (s : State) (sid : Nat), s.arg = [sid] →
    let c := (getSite s sid).core
    let p := 32 * c.scrub
    ∃ t, exec .scrubLineRead s = .next t ∧ onlySite s t sid ∧ sameMemory s t ∧ (getSite t sid).core.scrub = (c.scrub + 1) % 49152 ∧
      (∀ w ∈ c.correctable, p ≤ w → w < p + 32 → w ∈ (getSite t sid).core.found) ∧ (getSite t sid).core.bad = c.bad ∧
      regF (getSite t sid) 0x052 31 0 = regF (getSite s sid) 0x052 31 0 ∧
      ((∀ w ∈ c.bad, w < p ∨ p + 32 ≤ w) → regF (getSite t sid) 0x052 47 32 = regF (getSite s sid) 0x052 47 32) ∧
      let n := ([p, p + 8, p + 16, p + 24].filter fun w => w ∈ c.bad).length
      regF (getSite t sid) 0x052 47 32 = min (regF (getSite s sid) 0x052 47 32 + n) 0xFFFF ∧
      ∀ w, w ∈ [p, p + 8, p + 16, p + 24] → w ∈ c.bad → (∀ w' ∈ c.bad, w < w' → p + 32 ≤ w') →
        regF (getSite t sid) 0x053 20 0 = w % 2 ^ 21 ∧ regF (getSite t sid) 0x053 23 21 = 4

end Sys2Proof.Claims

/-- Fetch lines, ages, yield windows and error correction: `FetchLinesFilled`, `AgesAndYieldWindows`, `ErrorsCorrected`, together. -/
def Obligations.FetchAgesAndScrubbing : Prop :=
  Sys2Proof.Claims.FetchLinesFilled ∧ Sys2Proof.Claims.AgesAndYieldWindows ∧ Sys2Proof.Claims.ErrorsCorrected

namespace Sys2Proof.Claims

/-- A window operation that a site handles next: its register and operation, 0 a read, 1 a write, 2 a set, 3 a clear (R391). -/
def windowNext (s : State) (sid : Nat) (q : Packet) (n op : Nat) : Prop :=
  nextVc2 (getSite s sid) = some q ∧ q.mgmt = .window ∧ q.arg0.toNat % 2 ^ 12 = n ∧ q.arg0.toNat / 2 ^ 12 % 4 = op
/-- From s to t a site has answered a window operation with a value, or with a refusal and its detail. -/
def windowAnswers (s t : State) (sid : Nat) (q : Packet) (v ks : Nat) : Prop :=
  sentFrom s t sid q.origin fun a => a.mgmt = .windowAnswer ∧ a.vc = 2 ∧ a.arg0 = BitVec.ofNat 64 v ∧ a.ks = ks

/-- R391: REMOTE_WINDOW_ACCESS acts on a register of the site as the same instruction in M does and is answered with the value before; a register of a context, and a number that is
not in the map, are refused INVALID with DETAIL 10 and nothing is changed. REMOTE_WINDOW_ANSWER ends the wait of its management core with the value, or traps it REMOTE_FAULT. -/
def WindowOperations : Prop :=
  (∀ (s : State) (sid n op : Nat) (q : Packet), s.arg = [sid] → windowNext s sid q n op →
    ∃ t, exec .remoteWindowAccess s = .next t ∧
      (isContextReg n = true ∨ (siteRegAccess n).isNone = true → (∀ m, m ≠ 0x075 → reg (getSite t sid) m = reg (getSite s sid) m) ∧ sameMemory s t ∧
        windowAnswers s t sid q 0 (2 + 10 * 16)) ∧
      ((siteRegAccess n).isSome = true → isContextReg n = false → n ∉ [0x023, 0x090, 0x091] → n ∉ ownRule → sameMemory s t ∧
        windowAnswers s t sid q (reg (getSite s sid) n) 0 ∧
        (∀ m, m ≠ n → m ≠ 0x075 → reg (getSite t sid) m = reg (getSite s sid) m) ∧
        (n ≠ 0x075 → (op = 0 → reg (getSite t sid) n = reg (getSite s sid) n) ∧
          (op ≠ 0 → ∀ k, k < 64 → (reg (getSite t sid) n).testBit k = newBit op (rwMask n) (reg (getSite s sid) n) q.arg1.toNat k)))) ∧
  ∀ (s : State) (k d : Nat) (p : Packet), s.arg = [k] → (getMgmt s k).arrivals.head? = some p → p.mgmt ∈ [.windowAnswer, .portOpAnswer] →
    (getMgmt s k).wait = .window (some d) ∨ (getMgmt s k).wait = .port (some d) → d < 16 →
    let u := { s with cur := .mgmt k }
    ∃ t, exec .remoteWindowAnswer s = .next t ∧ sameMemory s t ∧ t.sites = s.sites ∧ (getMgmt t k).arrivals = (getMgmt s k).arrivals.tail ∧
      let v := { t with cur := .mgmt k }
      (p.ks % 2 ^ 4 = 0 → (getMgmt t k).wait = .none ∧ curPc v = curPc u + 4 ∧ readG v d = (if d = 0 then 0 else p.arg0) ∧
        ∀ r, r < 16 → r ≠ d → readG v r = readG u r) ∧
      (p.ks % 2 ^ 4 ≠ 0 → (∃ info, trapTaken u v 0x0C info) ∧ ∀ r, readG v r = readG u r)

/-- R392, R398: SITE_LSA_WRITE sets the offset within the local store and refuses one beyond it; SITE_LSD_READ and SITE_LSD_WRITE act on the dword there, which the write alone changes, and
move the offset on by 8, which is the model's reading at the end of the store and over an uncorrectable dword (log entry 110). A window read of SITE_LSD is answered with the
dword there, an uncorrectable one with REFUSAL 11, and a window write stores it; a set or clear is refused. TRAP_VEC_WRITE writes the register's RW bits and, through the window with EN 1, runs a halted supervisor context from BASE. -/
def SiteRegistersOfTheWindow : Prop :=
  (∀ (s : State) (sid v : Nat), s.arg = [sid, v] → ∃ t, exec .siteLsaWrite s = .next t ∧ onlyRegister s t sid 0x090 ∧ sameMemory s t ∧
    (v / 8 % 2 ^ 18 * 8 < 0x180000 → regF (getSite t sid) 0x090 20 3 = v / 8 % 2 ^ 18) ∧
    (0x180000 ≤ v / 8 % 2 ^ 18 * 8 → getSite t sid = getSite s sid)) ∧
  (∀ (s : State) (sid : Nat), s.arg = [sid] →
    let a := reg (getSite s sid) 0x090
    ∃ t, exec .siteLsdRead s = .next t ∧ onlySite s t sid ∧ sameMemory s t ∧
      (a < 0x180000 → badIn (getSite s sid).core.bad a 8 = none → regF (getSite t sid) 0x090 20 3 = (a / 8 + 1) % 2 ^ 18) ∧
      (a < 0x180000 → badIn (getSite s sid).core.bad a 8 ≠ none → reg (getSite t sid) 0x090 = a)) ∧
  (∀ (s : State) (sid v : Nat), s.arg = [sid, v] →
    let a := reg (getSite s sid) 0x090
    a < 0x180000 → ∃ t, exec .siteLsdWrite s = .next t ∧ onlySite s t sid ∧ regF (getSite t sid) 0x090 20 3 = (a / 8 + 1) % 2 ^ 18 ∧
      (lineFree s sid a → ∀ k, k < 8 → (storeByte t sid (a + k)).toNat = v / 256 ^ k % 256) ∧ (¬lineFree s sid a → sameMemory s t) ∧
      ∀ p, p < a ∨ a + 8 ≤ p → storeByte t sid p = storeByte s sid p) ∧
  (∀ (s : State) (sid op : Nat) (q : Packet), s.arg = [sid] → windowNext s sid q 0x091 op →
    let a := reg (getSite s sid) 0x090
    let good := badIn (getSite s sid).core.bad a 8 = none
    ∃ t, exec .remoteWindowAccess s = .next t ∧
      (op = 0 → a < 0x180000 → sameMemory s t ∧
        (good → windowAnswers s t sid q (mread (getSite s sid).core.mem a 8) 0 ∧ regF (getSite t sid) 0x090 20 3 = (a / 8 + 1) % 2 ^ 18) ∧
        (¬good → windowAnswers s t sid q 0 11)) ∧
      (op = 1 → a < 0x180000 → (∃ v, windowAnswers s t sid q v 0) ∧ regF (getSite t sid) 0x090 20 3 = (a / 8 + 1) % 2 ^ 18 ∧
        (lineFree s sid a → ∀ k, k < 8 → (storeByte t sid (a + k)).toNat = q.arg1.toNat / 256 ^ k % 256) ∧
        (∀ p, p < a ∨ a + 8 ≤ p → storeByte t sid p = storeByte s sid p) ∧ ∀ m, m ≠ sid → ∀ p, storeByte t m p = storeByte s m p) ∧
      (2 ≤ op ∨ 0x180000 ≤ a → sameMemory s t ∧ windowAnswers s t sid q 0 (2 + 10 * 16))) ∧
  ∀ (s : State) (sid w v : Nat), s.arg = [sid, w, v] →
    ∃ t, exec .trapVecWrite s = .next t ∧ onlySite s t sid ∧ sameMemory s t ∧
      (∀ k, k < 64 → (reg (getSite t sid) 0x023).testBit k = newBit 1 (rwMask 0x023) (reg (getSite s sid) 0x023) v k) ∧
      (w = 0 → (getSite t sid).core = (getSite s sid).core) ∧
      (w ≠ 0 → v.testBit 21 = true → (getSite s sid).core.sup.st = .halted → (getSite t sid).core.sup.st = .running ∧
        (getSite t sid).core.sup.ctx.pc = BitVec.ofNat 64 (regF (getSite t sid) 0x023 20 0))

end Sys2Proof.Claims

/-- The remote window, SITE_LSA, SITE_LSD and TRAP_VEC: `WindowOperations`, `SiteRegistersOfTheWindow`, together. -/
def Obligations.RemoteWindow : Prop :=
  Sys2Proof.Claims.WindowOperations ∧ Sys2Proof.Claims.SiteRegistersOfTheWindow

/-! ### Words, steps and the whole machine -/

namespace Sys2Proof.Claims

/-- R79 to R84: the words that the encoder gives a well-formed instruction decode to it, with every operand at every value that the encoding allows. -/
def EncodedInstructionsDecode : Prop :=
  ∀ i : Instr, i.WellFormed → decodeWords (encode i).1 (encode i).2 = .ok i

/-- R79 to R84: words that decode are the words of a well-formed instruction, bit for bit: no other words decode to it (a short form has no second word). -/
def DecodedWordsEncode : Prop :=
  ∀ (w0 w1 : Nat) (i : Instr), w0 < 2 ^ 32 → w1 < 2 ^ 32 → decodeWords w0 w1 = .ok i →
    i.WellFormed ∧ (encode i).1 = w0 ∧ (encode i).2 = if instrLen w0 = 8 then w1 else 0

end Sys2Proof.Claims

/-- Encoding and decoding are inverse on every well-formed instruction and every word that decodes: `EncodedInstructionsDecode`, `DecodedWordsEncode`, together. -/
def Obligations.EncodingsAgree : Prop :=
  Sys2Proof.Claims.EncodedInstructionsDecode ∧ Sys2Proof.Claims.DecodedWordsEncode

/-- Nine of the words that the manual writes out for scalar, control and resource instructions decode to the instructions that it gives them, and the all-zero word
to none. -/
def Obligations.PrintedEncodings : Prop :=
  decodeWords 0x04820900 0 = .ok (.add 8 8 9) ∧ decodeWords 0x04A2C028 0 = .ok (.clz 10 11) ∧ decodeWords 0x1861E003 0 = .ok (.sari 6 7 3) ∧
  decodeWords 0x24800049 0 = .ok (.lui 8 73) ∧ decodeWords 0x44900010 0 = .ok (.jal 9 16) ∧ decodeWords 0x48024000 0 = .ok (.jalr 0 9 0) ∧
  decodeWords 0x4CA00009 0 = .ok (.time 10) ∧ decodeWords 0x4C900408 0 = .ok (.wid 9 4) ∧ decodeWords 0x98000040 0 = .ok .relall ∧
  decodeWords 0 0 = .error .major

namespace Sys2Proof.Claims

/-- What an agent's issue notes in its core (R100, R101): the cycle, and for a strand its slot, its age back at 0 and the pointer of its effective class. -/
def issueNoted (s : State) (a : Agent) : State :=
  match a with
  | .strand sid k => modSite { s with cur := a } sid (onCore fun c =>
      let prio := match groupOf c (slotOf c k).grp with | some g => g.prio | none => 0
      { c with slots := tset c.slots k { slotOf c k with age := 0, boost := 0 }, lastIssue := s.time, issued := k
               rr := tset c.rr (min 3 (prio + (slotOf c k).boost)) k })
  | .sup sid => modSite { s with cur := a } sid (onCore fun c => { c with lastIssue := s.time, issued := 16 })
  | .mgmt k => modMgmt { s with cur := a } k fun m => { m with lastIssue := s.time }
/-- What the next step does, and the state it does it to: what is first on the agenda, or the model's choice among what may come next. -/
def doesNext (s : State) (d : Due) (v : State) : Prop :=
  (∃ rest, s.agenda = d :: rest ∧ v = { s with agenda := rest }) ∨ (s.agenda = [] ∧ chosen s = .due d ∧ v = { s with picks := s.picks + 1 })

end Sys2Proof.Claims

/-- R75 to R77, R82, R100: a step that issues for an agent whose context may run, with no machine check due, and whose fetch lines hold the words at its program
counter: where they decode to an instruction the step is that instruction's execution in the state with the issue noted, and where they do not it is ILLEGAL_INSTRUCTION of those words;
an uncorrectable word
there is MACHINE_CHECK of source 2. A step that performs an event is that event's execution, and one that ends a wait is that end. -/
def Obligations.StepRunsTheInstruction : Prop :=
  (∀ (s v : State) (a : Agent) (w0 w1 len : Nat), doesNext s (.issue a) v → runs a { v with cur := a } = true →
    dueCheck { v with cur := a } = none → fetched (curCtx { v with cur := a }) = .word w0 w1 len →
    (∀ i, decodeWords w0 w1 = .ok i → step s = exec i (issueNoted v a)) ∧
    (∀ e, decodeWords w0 w1 = .error e → step s = exec .illegalInstruction { issueNoted v a with arg := [w0, w1, len] })) ∧
  (∀ (s v : State) (a : Agent) (w : Nat), doesNext s (.issue a) v → runs a { v with cur := a } = true → agentStands { v with cur := a } →
    dueCheck { v with cur := a } = none → fetched (curCtx { v with cur := a }) = .bad w →
    ∃ t, step s = .next t ∧ trapTaken (issueNoted v a) t 0x13 (2 + w % 2 ^ 32 * 2 ^ 32) ∧ sameMemory s t) ∧
  (∀ (s v : State) (o : Op), doesNext s (.op o) v → step s = exec o.instr { v with arg := o.arg }) ∧
  ∀ (s v : State) (sid key : Nat), doesNext s (.wake sid key) v → step s = .next (wakeUp v sid key)

/-- R43, R53, R60, R99, R118, R170, R192, R260, R285, R286, R306, R390, R403, R422: the machine right after reset: no site has joined, every core is empty and runs, its
registers have the reset values of their maps, no management core runs, and no port, bridge or queue is in use. That every byte of memory reads 0 and that registers without a stated reset value
read 0 is the model's choice (log entries 1 and 2). -/
def Obligations.ResetLeaves : Prop :=
  let s := State.reset
  s.time = 0 ∧ (∀ sid, (getSite s sid).life = .unjoined ∧ (getSite s sid).dead = false ∧ (getSite s sid).core.evict.st = .run ∧
    (getSite s sid).core.groups = [] ∧ (getSite s sid).core.slots = [] ∧ (getSite s sid).core.sup.st = .idle ∧
    reg (getSite s sid) 0x045 = 32 ∧ reg (getSite s sid) 0x054 = 1024 ∧ reg (getSite s sid) 0x055 = 16 * 2 ^ 9 ∧ reg (getSite s sid) 0x060 = 63 ∧
    reg (getSite s sid) 0x023 = 0 ∧ regF (getSite s sid) 0x041 17 0 = 0x3FFFF ∧ regF (getSite s sid) 0x073 41 40 = 3 ∧
    (∀ p, p < 512 → pmapAt (getSite s sid).core p = 0) ∧ ∀ p, storeByte s sid p = 0) ∧
  (∀ k, (getMgmt s k).st = .stopped ∧ mreg (getMgmt s k) 0x7E1 = 64 * 2 ^ 8 ∧ mreg (getMgmt s k) 0x703 = 0 ∧ ∀ a, mgmtByte s k a = 0) ∧
  (∀ r, (getRegion s r).ctl = BitVec.ofNat 64 (128 + 4 * 2 ^ 20)) ∧ (∀ w, modReg (getModule s w) 0x718 = 650 + 2 ^ 12) ∧
  (∀ p, (getPort s p).present = false ∧ (getPort s p).roots = [] ∧ ∀ a, portByte s p a = 0) ∧
  ∀ q, (getIngress s q).bind = 0x10003E8020000000 ∧ (getIngress s q).irqEn = true ∧ (getIngress s q).halted = false

namespace Sys2Proof.Claims

/-- Every memory of the machine, of cores, management cores, ports and firmware slots, keeps its canonical form: addresses strictly rising, and no byte listed that reads as an unlisted one does. -/
def memoriesCanonical (s : State) : Prop :=
  (∀ e ∈ s.sites, memWf e.2.core.mem = true) ∧ (∀ e ∈ s.mgmts, memWf e.2.store = true) ∧ (∀ e ∈ s.ports, memWf e.2.mem = true) ∧
  ∀ e ∈ s.modules, ∀ im ∈ e.2.images, memWf im.2 = true

end Sys2Proof.Claims

/-- Every step keeps the canonical form of every memory. -/
def Obligations.StepsKeepMemoriesCanonical : Prop :=
  ∀ s t : State, memoriesCanonical s → step s = .next t → memoriesCanonical t

/-- The memories after reset have their canonical form. -/
def Obligations.ResetMemoriesCanonical : Prop := memoriesCanonical State.reset

/-- R410: no operation is refused, and none stops the machine but RESTORE_COMPLETE of an image whose unit state no save wrote. That this stop is a fault of the machine is the
model's choice (log entry 119). -/
def Obligations.OperationsGoOn : Prop :=
  ∀ (i : Instr) (s : State), (∃ t, exec i s = .next t) ∨ (i = .restoreComplete ∧ exec i s = .fault .imageChanged)
end

