-- ==== Sys2Proof/Laws/Tab.lean ====
section
/-! SUPPORT. What lookups give after updates of sparse tables and memories, and the canonical form of a memory. -/

namespace Sys2Proof.Laws

open Sys2Proof.Machine

variable {α : Type}

/-! ### Tables -/

theorem tget?_tset_same (t : Tab α) (n : Nat) (x : α) : tget? (tset t n x) n = some x := by
  induction t with
  | nil => simp [tset, tget?]
  | cons e t ih =>
    obtain ⟨k, v⟩ := e
    simp only [tset]
    split
    · simp [tget?]
    · split
      · rename_i h; subst h; simp [tget?]
      · rename_i h; simp [tget?, h, ih]

theorem tget?_tset_other (t : Tab α) {n m : Nat} (x : α) (h : m ≠ n) : tget? (tset t n x) m = tget? t m := by
  induction t with
  | nil => simp [tset, tget?, h]
  | cons e t ih =>
    obtain ⟨k, v⟩ := e
    simp only [tset]
    split
    · simp [tget?, h]
    · split
      · rename_i hk; subst hk; simp [tget?, h]
      · simp only [tget?, ih]

@[simp] theorem tget?_tset (t : Tab α) (n m : Nat) (x : α) :
    tget? (tset t n x) m = if m = n then some x else tget? t m := by
  split
  · rename_i h; subst h; exact tget?_tset_same t m x
  · rename_i h; exact tget?_tset_other t x h

@[simp] theorem tget?_terase (t : Tab α) (n m : Nat) :
    tget? (terase t n) m = if m = n then none else tget? t m := by
  induction t with
  | nil => simp [terase, tget?]
  | cons e t ih =>
    obtain ⟨k, v⟩ := e
    simp only [terase] at ih
    by_cases hk : k = n
    · subst hk
      simp only [terase, List.filter, bne_self_eq_false, ih, tget?]
      split <;> simp_all
    · have : (k != n) = true := by simpa using hk
      simp only [terase, List.filter, this, tget?, ih]
      split
      · rename_i h; subst h; simp [hk]
      · rfl

@[simp] theorem tget_tset (d : α) (t : Tab α) (n m : Nat) (x : α) :
    tget d (tset t n x) m = if m = n then x else tget d t m := by
  simp only [tget, tget?_tset]; split <;> rfl

@[simp] theorem tget_terase (d : α) (t : Tab α) (n m : Nat) :
    tget d (terase t n) m = if m = n then d else tget d t m := by
  simp only [tget, tget?_terase]; split <;> rfl

@[simp] theorem tget_tmod (d : α) (t : Tab α) (n m : Nat) (f : α → α) :
    tget d (tmod d t n f) m = if m = n then f (tget d t n) else tget d t m := by
  simp [tmod]

@[simp] theorem tget?_tmod (d : α) (t : Tab α) (n m : Nat) (f : α → α) :
    tget? (tmod d t n f) m = if m = n then some (f (tget d t n)) else tget? t m := by
  simp [tmod]

/-! ### Bytes of a memory -/

/-- A byte read after a byte is written. -/
theorem mget_mset (m : Mem) (a b : Nat) (v : Byte) : mget (mset m a v) b = if b = a then v else mget m b := by
  simp only [mget, mset]
  split
  · rename_i h; subst h; simp only [tget_terase]
  · simp only [tget_tset]

/-- A byte outside a written run keeps its value. -/
theorem mget_mwrite_other (n : Nat) : ∀ (m : Mem) (a x b : Nat), (b < a ∨ a + n ≤ b) → mget (mwrite m a n x) b = mget m b := by
  induction n with
  | zero => intro m a x b _; rfl
  | succ n ih =>
    intro m a x b h
    simp only [mwrite]
    rw [ih _ _ _ _ (by omega), mget_mset, if_neg (by omega)]

/-- A byte inside a written run is the number's byte at that place. -/
theorem mget_mwrite_inside (n : Nat) : ∀ (m : Mem) (a x k : Nat), k < n →
    mget (mwrite m a n x) (a + k) = BitVec.ofNat 8 (x / 256 ^ k) := by
  induction n with
  | zero => intro m a x k h; omega
  | succ n ih =>
    intro m a x k h
    simp only [mwrite]
    cases k with
    | zero => rw [mget_mwrite_other _ _ _ _ _ (by omega), mget_mset, if_pos (by omega)]; simp
    | succ k =>
      have e : a + (k + 1) = (a + 1) + k := by omega
      rw [e, ih _ _ _ _ (by omega), Nat.div_div_eq_div_mul, Nat.pow_succ, Nat.mul_comm]

/-- A run read after it is written holds the number, cut to the run's length. -/
theorem mread_mwrite (n : Nat) : ∀ (m : Mem) (a x : Nat), mread (mwrite m a n x) a n = x % 256 ^ n := by
  have aux : ∀ (k : Nat) (m : Mem) (a x : Nat),
      (∀ j, j < k → mget m (a + j) = BitVec.ofNat 8 (x / 256 ^ j)) → mread m a k = x % 256 ^ k := by
    intro k
    induction k with
    | zero => intro m a x _; simp [mread, Nat.mod_one]
    | succ k ih =>
      intro m a x h
      have h0 := h 0 (by omega)
      simp only [Nat.add_zero, Nat.pow_zero, Nat.div_one] at h0
      simp only [mread, h0]
      rw [ih m (a + 1) (x / 256) (fun j hj => by
        have := h (j + 1) (by omega)
        rw [show a + 1 + j = a + (j + 1) by omega, this, Nat.div_div_eq_div_mul, Nat.pow_succ, Nat.mul_comm])]
      rw [BitVec.toNat_ofNat, show 256 ^ (k + 1) = 256 * 256 ^ k from by rw [Nat.pow_succ, Nat.mul_comm], Nat.mod_mul]
  intro m a x
  exact aux n _ a x (fun j hj => mget_mwrite_inside n m a x j hj)

/-- A run that a write does not touch reads as before. -/
theorem mread_congr (n : Nat) : ∀ (m m' : Mem) (a : Nat), (∀ j, j < n → mget m (a + j) = mget m' (a + j)) →
    mread m a n = mread m' a n := by
  induction n with
  | zero => intros; rfl
  | succ n ih =>
    intro m m' a h
    simp only [mread]
    rw [ih m m' (a + 1) (fun j hj => by have := h (j + 1) (by omega); rwa [show a + (j + 1) = a + 1 + j by omega] at this)]
    rw [show mget m a = mget m' a from by simpa using h 0 (by omega)]

theorem mread_mwrite_other (m : Mem) (a n x b k : Nat) (h : b + k ≤ a ∨ a + n ≤ b) :
    mread (mwrite m a n x) b k = mread m b k :=
  mread_congr k _ _ b (fun j hj => mget_mwrite_other n m a x (b + j) (by omega))

/-- A byte of a memory with a run made zero. -/
theorem mget_mzero (m : Mem) (a n b : Nat) : mget (mzero m a n) b = if a ≤ b ∧ b < a + n then 0 else mget m b := by
  simp only [mget, tget, mzero]
  induction m with
  | nil => simp [tget?]
  | cons e m ih =>
    obtain ⟨k, v⟩ := e
    by_cases hk : a ≤ k ∧ k < a + n
    · have : (!(decide (a ≤ k) && decide (k < a + n))) = false := by simp [hk]
      simp only [List.filter, this]
      rw [ih]
      simp only [tget?]
      split
      · rfl
      · rename_i h; rw [if_neg (by rintro rfl; exact h hk)]
    · have : (!(decide (a ≤ k) && decide (k < a + n))) = true := by simp; omega
      simp only [List.filter, this, tget?]
      split
      · rename_i h; subst h; rw [if_neg hk]
      · exact ih

/-! ### The canonical form (strictly rising addresses, no listed zero) -/

theorem wfFrom_le {lo lo' : Nat} (h : lo' ≤ lo) : ∀ (m : Mem), wfFrom lo m = true → wfFrom lo' m = true
  | [], _ => rfl
  | (a, v) :: m, hm => by
    simp only [wfFrom, Bool.and_eq_true, decide_eq_true_eq] at hm ⊢
    exact ⟨⟨by omega, hm.1.2⟩, hm.2⟩

theorem wfFrom_tset {a : Nat} {v : Byte} (hv : v ≠ 0) : ∀ (lo : Nat) (m : Mem), lo ≤ a → wfFrom lo m = true →
    wfFrom lo (tset m a v) = true
  | lo, [], h, _ => by simp [tset, wfFrom, h]; exact hv
  | lo, (k, w) :: m, h, hm => by
    simp only [wfFrom, Bool.and_eq_true, decide_eq_true_eq] at hm
    simp only [tset]
    split
    · simp only [wfFrom, Bool.and_eq_true, decide_eq_true_eq]
      exact ⟨⟨h, by simpa using hv⟩, ⟨by omega, hm.1.2⟩, hm.2⟩
    · split
      · rename_i hk; subst hk
        simp only [wfFrom, Bool.and_eq_true, decide_eq_true_eq]
        exact ⟨⟨h, by simpa using hv⟩, hm.2⟩
      · simp only [wfFrom, Bool.and_eq_true, decide_eq_true_eq]
        exact ⟨hm.1, wfFrom_tset hv (k + 1) m (by omega) hm.2⟩

theorem wfFrom_filter (p : Host.Cell → Bool) : ∀ (lo : Nat) (m : Mem), wfFrom lo m = true → wfFrom lo (m.filter p) = true
  | _, [], _ => rfl
  | lo, (k, w) :: m, hm => by
    simp only [wfFrom, Bool.and_eq_true, decide_eq_true_eq] at hm
    simp only [List.filter]
    split
    · simp only [wfFrom, Bool.and_eq_true, decide_eq_true_eq]
      exact ⟨hm.1, wfFrom_filter p (k + 1) m hm.2⟩
    · exact wfFrom_le (by omega) _ (wfFrom_filter p (k + 1) m hm.2)

/-- The empty memory has the canonical form. -/
@[simp] theorem memWf_nil : memWf [] = true := rfl
/-- Keeping some of the listed bytes keeps the canonical form. -/
theorem memWf_filter {m : Mem} (p : Host.Cell → Bool) (h : memWf m = true) : memWf (m.filter p) = true :=
  wfFrom_filter p 0 m h
/-- Writing a byte keeps the canonical form. -/
theorem memWf_mset {m : Mem} (h : memWf m = true) (a : Nat) (v : Byte) : memWf (mset m a v) = true := by
  simp only [mset]
  split
  · exact memWf_filter _ h
  · exact wfFrom_tset (by assumption) 0 m (by omega) h
/-- Writing a run of bytes keeps the canonical form. -/
theorem memWf_mwrite (n : Nat) : ∀ {m : Mem} (a x : Nat), memWf m = true → memWf (mwrite m a n x) = true := by
  induction n with
  | zero => intro m a x h; exact h
  | succ n ih => intro m a x h; exact ih _ _ (memWf_mset h _ _)
/-- Making a run of bytes zero keeps the canonical form. -/
theorem memWf_mzero {m : Mem} (h : memWf m = true) (a n : Nat) : memWf (mzero m a n) = true := memWf_filter _ h

theorem tget?_lt_wf {lo a : Nat} : ∀ (m : Mem), wfFrom lo m = true → a < lo → tget? m a = none
  | [], _, _ => rfl
  | (k, w) :: m, hm, h => by
    simp only [wfFrom, Bool.and_eq_true, decide_eq_true_eq] at hm
    simp only [tget?]
    rw [if_neg (by omega)]
    exact tget?_lt_wf m hm.2 (by omega)

theorem mem_ext_from : ∀ (lo : Nat) (m m' : Mem), wfFrom lo m = true → wfFrom lo m' = true →
    (∀ a, tget? m a = tget? m' a) → m = m'
  | _, [], [], _, _, _ => rfl
  | _, [], (k, w) :: m', _, _, h => by have := h k; simp [tget?] at this
  | _, (k, w) :: m, [], _, _, h => by have := h k; simp [tget?] at this
  | lo, (k, w) :: m, (k', w') :: m', hm, hm', h => by
    simp only [wfFrom, Bool.and_eq_true, decide_eq_true_eq] at hm hm'
    have hk : k = k' := by
      rcases Nat.lt_trichotomy k k' with hl | he | hl
      · have := h k
        simp only [tget?, if_true] at this
        rw [if_neg (by omega), tget?_lt_wf m' hm'.2 (by omega)] at this
        simp at this
      · exact he
      · have := h k'
        simp only [tget?, if_true] at this
        rw [if_neg (by omega), tget?_lt_wf m hm.2 (by omega)] at this
        simp at this
    subst hk
    have hw : w = w' := by have := h k; simpa [tget?] using this
    subst hw
    congr 1
    refine mem_ext_from (k + 1) m m' hm.2 hm'.2 (fun a => ?_)
    have := h a
    simp only [tget?] at this
    split at this
    · rename_i ha
      rw [tget?_lt_wf m hm.2 (by omega), tget?_lt_wf m' hm'.2 (by omega)]
    · exact this

theorem tget?_ne_zero {lo : Nat} : ∀ (m : Mem) (a : Nat), wfFrom lo m = true → tget? m a ≠ some 0
  | [], _, _ => by simp [tget?]
  | (k, w) :: m, a, hm => by
    simp only [wfFrom, Bool.and_eq_true, decide_eq_true_eq, bne_iff_ne] at hm
    simp only [tget?]
    split
    · simpa using hm.1.2
    · exact tget?_ne_zero m a hm.2

/-- Memories in canonical form that read alike at every address are the same data. -/
theorem mem_ext {m m' : Mem} (h : memWf m = true) (h' : memWf m' = true) (e : ∀ a, mget m a = mget m' a) : m = m' := by
  refine mem_ext_from 0 m m' h h' (fun a => ?_)
  have := e a
  simp only [mget, tget] at this
  have h1 := tget?_ne_zero m a h
  have h2 := tget?_ne_zero m' a h'
  cases hx : tget? m a <;> cases hy : tget? m' a <;> simp_all

end Sys2Proof.Laws
end

