-- ==== Sys2Proof/Laws/State.lean ====
section
/-! SUPPORT. What each field reads after each named update of the state: one lemma per field and update. -/

namespace Sys2Proof.Laws

open Sys2Proof.Machine

variable (s : State) (x : Site) (c : Core) (y : Ctx) (m : Mgmt)

/-! ### The machine -/

@[simp] theorem setSite_time (n : Nat) (z : Site) : (setSite s n z).time = s.time := rfl
@[simp] theorem setSite_cur (n : Nat) (z : Site) : (setSite s n z).cur = s.cur := rfl
@[simp] theorem setSite_arg (n : Nat) (z : Site) : (setSite s n z).arg = s.arg := rfl
@[simp] theorem setSite_picks (n : Nat) (z : Site) : (setSite s n z).picks = s.picks := rfl
@[simp] theorem setSite_agenda (n : Nat) (z : Site) : (setSite s n z).agenda = s.agenda := rfl
@[simp] theorem setSite_inputs (n : Nat) (z : Site) : (setSite s n z).inputs = s.inputs := rfl
@[simp] theorem setSite_mgmts (n : Nat) (z : Site) : (setSite s n z).mgmts = s.mgmts := rfl
@[simp] theorem setSite_regions (n : Nat) (z : Site) : (setSite s n z).regions = s.regions := rfl
@[simp] theorem setSite_ports (n : Nat) (z : Site) : (setSite s n z).ports = s.ports := rfl
@[simp] theorem setSite_ingress (n : Nat) (z : Site) : (setSite s n z).ingress = s.ingress := rfl
@[simp] theorem setSite_bridges (n : Nat) (z : Site) : (setSite s n z).bridges = s.bridges := rfl
@[simp] theorem setSite_modules (n : Nat) (z : Site) : (setSite s n z).modules = s.modules := rfl
@[simp] theorem modSite_time (n : Nat) (f : Site → Site) : (modSite s n f).time = s.time := rfl
@[simp] theorem modSite_cur (n : Nat) (f : Site → Site) : (modSite s n f).cur = s.cur := rfl
@[simp] theorem modSite_arg (n : Nat) (f : Site → Site) : (modSite s n f).arg = s.arg := rfl
@[simp] theorem modSite_picks (n : Nat) (f : Site → Site) : (modSite s n f).picks = s.picks := rfl
@[simp] theorem modSite_agenda (n : Nat) (f : Site → Site) : (modSite s n f).agenda = s.agenda := rfl
@[simp] theorem modSite_inputs (n : Nat) (f : Site → Site) : (modSite s n f).inputs = s.inputs := rfl
@[simp] theorem modSite_mgmts (n : Nat) (f : Site → Site) : (modSite s n f).mgmts = s.mgmts := rfl
@[simp] theorem modSite_regions (n : Nat) (f : Site → Site) : (modSite s n f).regions = s.regions := rfl
@[simp] theorem modSite_ports (n : Nat) (f : Site → Site) : (modSite s n f).ports = s.ports := rfl
@[simp] theorem modSite_ingress (n : Nat) (f : Site → Site) : (modSite s n f).ingress = s.ingress := rfl
@[simp] theorem modSite_bridges (n : Nat) (f : Site → Site) : (modSite s n f).bridges = s.bridges := rfl
@[simp] theorem modSite_modules (n : Nat) (f : Site → Site) : (modSite s n f).modules = s.modules := rfl
@[simp] theorem modMgmt_time (n : Nat) (f : Mgmt → Mgmt) : (modMgmt s n f).time = s.time := rfl
@[simp] theorem modMgmt_cur (n : Nat) (f : Mgmt → Mgmt) : (modMgmt s n f).cur = s.cur := rfl
@[simp] theorem modMgmt_arg (n : Nat) (f : Mgmt → Mgmt) : (modMgmt s n f).arg = s.arg := rfl
@[simp] theorem modMgmt_picks (n : Nat) (f : Mgmt → Mgmt) : (modMgmt s n f).picks = s.picks := rfl
@[simp] theorem modMgmt_agenda (n : Nat) (f : Mgmt → Mgmt) : (modMgmt s n f).agenda = s.agenda := rfl
@[simp] theorem modMgmt_inputs (n : Nat) (f : Mgmt → Mgmt) : (modMgmt s n f).inputs = s.inputs := rfl
@[simp] theorem modMgmt_sites (n : Nat) (f : Mgmt → Mgmt) : (modMgmt s n f).sites = s.sites := rfl
@[simp] theorem modMgmt_regions (n : Nat) (f : Mgmt → Mgmt) : (modMgmt s n f).regions = s.regions := rfl
@[simp] theorem modMgmt_ports (n : Nat) (f : Mgmt → Mgmt) : (modMgmt s n f).ports = s.ports := rfl
@[simp] theorem modMgmt_ingress (n : Nat) (f : Mgmt → Mgmt) : (modMgmt s n f).ingress = s.ingress := rfl
@[simp] theorem modMgmt_bridges (n : Nat) (f : Mgmt → Mgmt) : (modMgmt s n f).bridges = s.bridges := rfl
@[simp] theorem modMgmt_modules (n : Nat) (f : Mgmt → Mgmt) : (modMgmt s n f).modules = s.modules := rfl
@[simp] theorem modModule_time (n : Nat) (f : Module → Module) : (modModule s n f).time = s.time := rfl
@[simp] theorem modModule_cur (n : Nat) (f : Module → Module) : (modModule s n f).cur = s.cur := rfl
@[simp] theorem modModule_arg (n : Nat) (f : Module → Module) : (modModule s n f).arg = s.arg := rfl
@[simp] theorem modModule_picks (n : Nat) (f : Module → Module) : (modModule s n f).picks = s.picks := rfl
@[simp] theorem modModule_agenda (n : Nat) (f : Module → Module) : (modModule s n f).agenda = s.agenda := rfl
@[simp] theorem modModule_inputs (n : Nat) (f : Module → Module) : (modModule s n f).inputs = s.inputs := rfl
@[simp] theorem modModule_sites (n : Nat) (f : Module → Module) : (modModule s n f).sites = s.sites := rfl
@[simp] theorem modModule_mgmts (n : Nat) (f : Module → Module) : (modModule s n f).mgmts = s.mgmts := rfl
@[simp] theorem modModule_regions (n : Nat) (f : Module → Module) : (modModule s n f).regions = s.regions := rfl
@[simp] theorem modModule_ports (n : Nat) (f : Module → Module) : (modModule s n f).ports = s.ports := rfl
@[simp] theorem modModule_ingress (n : Nat) (f : Module → Module) : (modModule s n f).ingress = s.ingress := rfl
@[simp] theorem modModule_bridges (n : Nat) (f : Module → Module) : (modModule s n f).bridges = s.bridges := rfl
@[simp] theorem modRegion_time (n : Nat) (f : Region → Region) : (modRegion s n f).time = s.time := rfl
@[simp] theorem modRegion_cur (n : Nat) (f : Region → Region) : (modRegion s n f).cur = s.cur := rfl
@[simp] theorem modRegion_arg (n : Nat) (f : Region → Region) : (modRegion s n f).arg = s.arg := rfl
@[simp] theorem modRegion_picks (n : Nat) (f : Region → Region) : (modRegion s n f).picks = s.picks := rfl
@[simp] theorem modRegion_agenda (n : Nat) (f : Region → Region) : (modRegion s n f).agenda = s.agenda := rfl
@[simp] theorem modRegion_inputs (n : Nat) (f : Region → Region) : (modRegion s n f).inputs = s.inputs := rfl
@[simp] theorem modRegion_sites (n : Nat) (f : Region → Region) : (modRegion s n f).sites = s.sites := rfl
@[simp] theorem modRegion_mgmts (n : Nat) (f : Region → Region) : (modRegion s n f).mgmts = s.mgmts := rfl
@[simp] theorem modRegion_ports (n : Nat) (f : Region → Region) : (modRegion s n f).ports = s.ports := rfl
@[simp] theorem modRegion_ingress (n : Nat) (f : Region → Region) : (modRegion s n f).ingress = s.ingress := rfl
@[simp] theorem modRegion_bridges (n : Nat) (f : Region → Region) : (modRegion s n f).bridges = s.bridges := rfl
@[simp] theorem modRegion_modules (n : Nat) (f : Region → Region) : (modRegion s n f).modules = s.modules := rfl
@[simp] theorem modPort_time (n : Nat) (f : Port → Port) : (modPort s n f).time = s.time := rfl
@[simp] theorem modPort_cur (n : Nat) (f : Port → Port) : (modPort s n f).cur = s.cur := rfl
@[simp] theorem modPort_arg (n : Nat) (f : Port → Port) : (modPort s n f).arg = s.arg := rfl
@[simp] theorem modPort_picks (n : Nat) (f : Port → Port) : (modPort s n f).picks = s.picks := rfl
@[simp] theorem modPort_agenda (n : Nat) (f : Port → Port) : (modPort s n f).agenda = s.agenda := rfl
@[simp] theorem modPort_inputs (n : Nat) (f : Port → Port) : (modPort s n f).inputs = s.inputs := rfl
@[simp] theorem modPort_sites (n : Nat) (f : Port → Port) : (modPort s n f).sites = s.sites := rfl
@[simp] theorem modPort_mgmts (n : Nat) (f : Port → Port) : (modPort s n f).mgmts = s.mgmts := rfl
@[simp] theorem modPort_regions (n : Nat) (f : Port → Port) : (modPort s n f).regions = s.regions := rfl
@[simp] theorem modPort_ingress (n : Nat) (f : Port → Port) : (modPort s n f).ingress = s.ingress := rfl
@[simp] theorem modPort_bridges (n : Nat) (f : Port → Port) : (modPort s n f).bridges = s.bridges := rfl
@[simp] theorem modPort_modules (n : Nat) (f : Port → Port) : (modPort s n f).modules = s.modules := rfl

/-! ### A site -/

@[simp] theorem onCore_id (f : Core → Core) : (onCore f x).id = x.id := rfl
@[simp] theorem onCore_life (f : Core → Core) : (onCore f x).life = x.life := rfl
@[simp] theorem onCore_dead (f : Core → Core) : (onCore f x).dead = x.dead := rfl
@[simp] theorem onCore_regs (f : Core → Core) : (onCore f x).regs = x.regs := rfl
@[simp] theorem onCore_core (f : Core → Core) : (onCore f x).core = f x.core := rfl
@[simp] theorem onCore_router (f : Core → Core) : (onCore f x).router = x.router := rfl
@[simp] theorem onRouter_id (f : Router → Router) : (onRouter f x).id = x.id := rfl
@[simp] theorem onRouter_life (f : Router → Router) : (onRouter f x).life = x.life := rfl
@[simp] theorem onRouter_dead (f : Router → Router) : (onRouter f x).dead = x.dead := rfl
@[simp] theorem onRouter_regs (f : Router → Router) : (onRouter f x).regs = x.regs := rfl
@[simp] theorem onRouter_core (f : Router → Router) : (onRouter f x).core = x.core := rfl
@[simp] theorem onRouter_router (f : Router → Router) : (onRouter f x).router = f x.router := rfl
@[simp] theorem setReg_id (n v : Nat) : (setReg x n v).id = x.id := rfl
@[simp] theorem setReg_life (n v : Nat) : (setReg x n v).life = x.life := rfl
@[simp] theorem setReg_dead (n v : Nat) : (setReg x n v).dead = x.dead := rfl
@[simp] theorem setReg_core (n v : Nat) : (setReg x n v).core = x.core := rfl
@[simp] theorem setReg_router (n v : Nat) : (setReg x n v).router = x.router := rfl
@[simp] theorem setRegF_id (n hi lo v : Nat) : (setRegF x n hi lo v).id = x.id := rfl
@[simp] theorem setRegF_life (n hi lo v : Nat) : (setRegF x n hi lo v).life = x.life := rfl
@[simp] theorem setRegF_dead (n hi lo v : Nat) : (setRegF x n hi lo v).dead = x.dead := rfl
@[simp] theorem setRegF_core (n hi lo v : Nat) : (setRegF x n hi lo v).core = x.core := rfl
@[simp] theorem setRegF_router (n hi lo v : Nat) : (setRegF x n hi lo v).router = x.router := rfl

/-! ### A core -/

@[simp] theorem modSlot_mem (k : Nat) (f : Slot → Slot) : (modSlot c k f).mem = c.mem := rfl
@[simp] theorem modSlot_bad (k : Nat) (f : Slot → Slot) : (modSlot c k f).bad = c.bad := rfl
@[simp] theorem modSlot_correctable (k : Nat) (f : Slot → Slot) : (modSlot c k f).correctable = c.correctable := rfl
@[simp] theorem modSlot_found (k : Nat) (f : Slot → Slot) : (modSlot c k f).found = c.found := rfl
@[simp] theorem modSlot_scrub (k : Nat) (f : Slot → Slot) : (modSlot c k f).scrub = c.scrub := rfl
@[simp] theorem modSlot_pmap (k : Nat) (f : Slot → Slot) : (modSlot c k f).pmap = c.pmap := rfl
@[simp] theorem modSlot_pmapNext (k : Nat) (f : Slot → Slot) : (modSlot c k f).pmapNext = c.pmapNext := rfl
@[simp] theorem modSlot_tdec (k : Nat) (f : Slot → Slot) : (modSlot c k f).tdec = c.tdec := rfl
@[simp] theorem modSlot_tdecNext (k : Nat) (f : Slot → Slot) : (modSlot c k f).tdecNext = c.tdecNext := rfl
@[simp] theorem modSlot_steer (k : Nat) (f : Slot → Slot) : (modSlot c k f).steer = c.steer := rfl
@[simp] theorem modSlot_rr (k : Nat) (f : Slot → Slot) : (modSlot c k f).rr = c.rr := rfl
@[simp] theorem modSlot_lastIssue (k : Nat) (f : Slot → Slot) : (modSlot c k f).lastIssue = c.lastIssue := rfl
@[simp] theorem modSlot_issued (k : Nat) (f : Slot → Slot) : (modSlot c k f).issued = c.issued := rfl
@[simp] theorem modSlot_sup (k : Nat) (f : Slot → Slot) : (modSlot c k f).sup = c.sup := rfl
@[simp] theorem modSlot_strands (k : Nat) (f : Slot → Slot) : (modSlot c k f).strands = c.strands := rfl
@[simp] theorem modSlot_groups (k : Nat) (f : Slot → Slot) : (modSlot c k f).groups = c.groups := rfl
@[simp] theorem modSlot_pool (k : Nat) (f : Slot → Slot) : (modSlot c k f).pool = c.pool := rfl
@[simp] theorem modSlot_bankOf (k : Nat) (f : Slot → Slot) : (modSlot c k f).bankOf = c.bankOf := rfl
@[simp] theorem modSlot_uids (k : Nat) (f : Slot → Slot) : (modSlot c k f).uids = c.uids := rfl
@[simp] theorem modSlot_invq (k : Nat) (f : Slot → Slot) : (modSlot c k f).invq = c.invq := rfl
@[simp] theorem modSlot_mboxPages (k : Nat) (f : Slot → Slot) : (modSlot c k f).mboxPages = c.mboxPages := rfl
@[simp] theorem modSlot_mboxPtr (k : Nat) (f : Slot → Slot) : (modSlot c k f).mboxPtr = c.mboxPtr := rfl
@[simp] theorem modSlot_copies (k : Nat) (f : Slot → Slot) : (modSlot c k f).copies = c.copies := rfl
@[simp] theorem modSlot_copyIds (k : Nat) (f : Slot → Slot) : (modSlot c k f).copyIds = c.copyIds := rfl
@[simp] theorem modSlot_mq (k : Nat) (f : Slot → Slot) : (modSlot c k f).mq = c.mq := rfl
@[simp] theorem modSlot_recvOrder (k : Nat) (f : Slot → Slot) : (modSlot c k f).recvOrder = c.recvOrder := rfl
@[simp] theorem modSlot_tum (k : Nat) (f : Slot → Slot) : (modSlot c k f).tum = c.tum := rfl
@[simp] theorem modSlot_restores (k : Nat) (f : Slot → Slot) : (modSlot c k f).restores = c.restores := rfl
@[simp] theorem modSlot_counters (k : Nat) (f : Slot → Slot) : (modSlot c k f).counters = c.counters := rfl
@[simp] theorem modSlot_hasps (k : Nat) (f : Slot → Slot) : (modSlot c k f).hasps = c.hasps := rfl
@[simp] theorem modSlot_rwaits (k : Nat) (f : Slot → Slot) : (modSlot c k f).rwaits = c.rwaits := rfl
@[simp] theorem modSlot_tensor (k : Nat) (f : Slot → Slot) : (modSlot c k f).tensor = c.tensor := rfl
@[simp] theorem modSlot_chans (k : Nat) (f : Slot → Slot) : (modSlot c k f).chans = c.chans := rfl
@[simp] theorem modSlot_ordHeld (k : Nat) (f : Slot → Slot) : (modSlot c k f).ordHeld = c.ordHeld := rfl
@[simp] theorem modSlot_ordReady (k : Nat) (f : Slot → Slot) : (modSlot c k f).ordReady = c.ordReady := rfl
@[simp] theorem modSlot_landing (k : Nat) (f : Slot → Slot) : (modSlot c k f).landing = c.landing := rfl
@[simp] theorem modSlot_redOps (k : Nat) (f : Slot → Slot) : (modSlot c k f).redOps = c.redOps := rfl
@[simp] theorem modSlot_epochs (k : Nat) (f : Slot → Slot) : (modSlot c k f).epochs = c.epochs := rfl
@[simp] theorem modSlot_seq (k : Nat) (f : Slot → Slot) : (modSlot c k f).seq = c.seq := rfl
@[simp] theorem modSlot_outs (k : Nat) (f : Slot → Slot) : (modSlot c k f).outs = c.outs := rfl
@[simp] theorem modSlot_inj0 (k : Nat) (f : Slot → Slot) : (modSlot c k f).inj0 = c.inj0 := rfl
@[simp] theorem modSlot_inj1 (k : Nat) (f : Slot → Slot) : (modSlot c k f).inj1 = c.inj1 := rfl
@[simp] theorem modSlot_injIds (k : Nat) (f : Slot → Slot) : (modSlot c k f).injIds = c.injIds := rfl
@[simp] theorem modSlot_allowQ (k : Nat) (f : Slot → Slot) : (modSlot c k f).allowQ = c.allowQ := rfl
@[simp] theorem modSlot_arrivals (k : Nat) (f : Slot → Slot) : (modSlot c k f).arrivals = c.arrivals := rfl
@[simp] theorem modSlot_accesses (k : Nat) (f : Slot → Slot) : (modSlot c k f).accesses = c.accesses := rfl
@[simp] theorem modSlot_accIds (k : Nat) (f : Slot → Slot) : (modSlot c k f).accIds = c.accIds := rfl
@[simp] theorem modSlot_scalars (k : Nat) (f : Slot → Slot) : (modSlot c k f).scalars = c.scalars := rfl
@[simp] theorem modSlot_vectors (k : Nat) (f : Slot → Slot) : (modSlot c k f).vectors = c.vectors := rfl
@[simp] theorem modSlot_traps (k : Nat) (f : Slot → Slot) : (modSlot c k f).traps = c.traps := rfl
@[simp] theorem modSlot_haspAt (k : Nat) (f : Slot → Slot) : (modSlot c k f).haspAt = c.haspAt := rfl
@[simp] theorem modSlot_routed (k : Nat) (f : Slot → Slot) : (modSlot c k f).routed = c.routed := rfl
@[simp] theorem modSlot_collTold (k : Nat) (f : Slot → Slot) : (modSlot c k f).collTold = c.collTold := rfl
@[simp] theorem modSlot_countedBy (k : Nat) (f : Slot → Slot) : (modSlot c k f).countedBy = c.countedBy := rfl
@[simp] theorem modSlot_frameLines (k : Nat) (f : Slot → Slot) : (modSlot c k f).frameLines = c.frameLines := rfl
@[simp] theorem modSlot_stored (k : Nat) (f : Slot → Slot) : (modSlot c k f).stored = c.stored := rfl
@[simp] theorem modSlot_evict (k : Nat) (f : Slot → Slot) : (modSlot c k f).evict = c.evict := rfl
@[simp] theorem modStrand_mem (k : Nat) (f : Strand → Strand) : (modStrand c k f).mem = c.mem := rfl
@[simp] theorem modStrand_bad (k : Nat) (f : Strand → Strand) : (modStrand c k f).bad = c.bad := rfl
@[simp] theorem modStrand_correctable (k : Nat) (f : Strand → Strand) : (modStrand c k f).correctable = c.correctable := rfl
@[simp] theorem modStrand_found (k : Nat) (f : Strand → Strand) : (modStrand c k f).found = c.found := rfl
@[simp] theorem modStrand_scrub (k : Nat) (f : Strand → Strand) : (modStrand c k f).scrub = c.scrub := rfl
@[simp] theorem modStrand_pmap (k : Nat) (f : Strand → Strand) : (modStrand c k f).pmap = c.pmap := rfl
@[simp] theorem modStrand_pmapNext (k : Nat) (f : Strand → Strand) : (modStrand c k f).pmapNext = c.pmapNext := rfl
@[simp] theorem modStrand_tdec (k : Nat) (f : Strand → Strand) : (modStrand c k f).tdec = c.tdec := rfl
@[simp] theorem modStrand_tdecNext (k : Nat) (f : Strand → Strand) : (modStrand c k f).tdecNext = c.tdecNext := rfl
@[simp] theorem modStrand_steer (k : Nat) (f : Strand → Strand) : (modStrand c k f).steer = c.steer := rfl
@[simp] theorem modStrand_slots (k : Nat) (f : Strand → Strand) : (modStrand c k f).slots = c.slots := rfl
@[simp] theorem modStrand_rr (k : Nat) (f : Strand → Strand) : (modStrand c k f).rr = c.rr := rfl
@[simp] theorem modStrand_lastIssue (k : Nat) (f : Strand → Strand) : (modStrand c k f).lastIssue = c.lastIssue := rfl
@[simp] theorem modStrand_issued (k : Nat) (f : Strand → Strand) : (modStrand c k f).issued = c.issued := rfl
@[simp] theorem modStrand_sup (k : Nat) (f : Strand → Strand) : (modStrand c k f).sup = c.sup := rfl
@[simp] theorem modStrand_groups (k : Nat) (f : Strand → Strand) : (modStrand c k f).groups = c.groups := rfl
@[simp] theorem modStrand_pool (k : Nat) (f : Strand → Strand) : (modStrand c k f).pool = c.pool := rfl
@[simp] theorem modStrand_bankOf (k : Nat) (f : Strand → Strand) : (modStrand c k f).bankOf = c.bankOf := rfl
@[simp] theorem modStrand_uids (k : Nat) (f : Strand → Strand) : (modStrand c k f).uids = c.uids := rfl
@[simp] theorem modStrand_invq (k : Nat) (f : Strand → Strand) : (modStrand c k f).invq = c.invq := rfl
@[simp] theorem modStrand_mboxPages (k : Nat) (f : Strand → Strand) : (modStrand c k f).mboxPages = c.mboxPages := rfl
@[simp] theorem modStrand_mboxPtr (k : Nat) (f : Strand → Strand) : (modStrand c k f).mboxPtr = c.mboxPtr := rfl
@[simp] theorem modStrand_copies (k : Nat) (f : Strand → Strand) : (modStrand c k f).copies = c.copies := rfl
@[simp] theorem modStrand_copyIds (k : Nat) (f : Strand → Strand) : (modStrand c k f).copyIds = c.copyIds := rfl
@[simp] theorem modStrand_mq (k : Nat) (f : Strand → Strand) : (modStrand c k f).mq = c.mq := rfl
@[simp] theorem modStrand_recvOrder (k : Nat) (f : Strand → Strand) : (modStrand c k f).recvOrder = c.recvOrder := rfl
@[simp] theorem modStrand_tum (k : Nat) (f : Strand → Strand) : (modStrand c k f).tum = c.tum := rfl
@[simp] theorem modStrand_restores (k : Nat) (f : Strand → Strand) : (modStrand c k f).restores = c.restores := rfl
@[simp] theorem modStrand_counters (k : Nat) (f : Strand → Strand) : (modStrand c k f).counters = c.counters := rfl
@[simp] theorem modStrand_hasps (k : Nat) (f : Strand → Strand) : (modStrand c k f).hasps = c.hasps := rfl
@[simp] theorem modStrand_rwaits (k : Nat) (f : Strand → Strand) : (modStrand c k f).rwaits = c.rwaits := rfl
@[simp] theorem modStrand_tensor (k : Nat) (f : Strand → Strand) : (modStrand c k f).tensor = c.tensor := rfl
@[simp] theorem modStrand_chans (k : Nat) (f : Strand → Strand) : (modStrand c k f).chans = c.chans := rfl
@[simp] theorem modStrand_ordHeld (k : Nat) (f : Strand → Strand) : (modStrand c k f).ordHeld = c.ordHeld := rfl
@[simp] theorem modStrand_ordReady (k : Nat) (f : Strand → Strand) : (modStrand c k f).ordReady = c.ordReady := rfl
@[simp] theorem modStrand_landing (k : Nat) (f : Strand → Strand) : (modStrand c k f).landing = c.landing := rfl
@[simp] theorem modStrand_redOps (k : Nat) (f : Strand → Strand) : (modStrand c k f).redOps = c.redOps := rfl
@[simp] theorem modStrand_epochs (k : Nat) (f : Strand → Strand) : (modStrand c k f).epochs = c.epochs := rfl
@[simp] theorem modStrand_seq (k : Nat) (f : Strand → Strand) : (modStrand c k f).seq = c.seq := rfl
@[simp] theorem modStrand_outs (k : Nat) (f : Strand → Strand) : (modStrand c k f).outs = c.outs := rfl
@[simp] theorem modStrand_inj0 (k : Nat) (f : Strand → Strand) : (modStrand c k f).inj0 = c.inj0 := rfl
@[simp] theorem modStrand_inj1 (k : Nat) (f : Strand → Strand) : (modStrand c k f).inj1 = c.inj1 := rfl
@[simp] theorem modStrand_injIds (k : Nat) (f : Strand → Strand) : (modStrand c k f).injIds = c.injIds := rfl
@[simp] theorem modStrand_allowQ (k : Nat) (f : Strand → Strand) : (modStrand c k f).allowQ = c.allowQ := rfl
@[simp] theorem modStrand_arrivals (k : Nat) (f : Strand → Strand) : (modStrand c k f).arrivals = c.arrivals := rfl
@[simp] theorem modStrand_accesses (k : Nat) (f : Strand → Strand) : (modStrand c k f).accesses = c.accesses := rfl
@[simp] theorem modStrand_accIds (k : Nat) (f : Strand → Strand) : (modStrand c k f).accIds = c.accIds := rfl
@[simp] theorem modStrand_scalars (k : Nat) (f : Strand → Strand) : (modStrand c k f).scalars = c.scalars := rfl
@[simp] theorem modStrand_vectors (k : Nat) (f : Strand → Strand) : (modStrand c k f).vectors = c.vectors := rfl
@[simp] theorem modStrand_traps (k : Nat) (f : Strand → Strand) : (modStrand c k f).traps = c.traps := rfl
@[simp] theorem modStrand_haspAt (k : Nat) (f : Strand → Strand) : (modStrand c k f).haspAt = c.haspAt := rfl
@[simp] theorem modStrand_routed (k : Nat) (f : Strand → Strand) : (modStrand c k f).routed = c.routed := rfl
@[simp] theorem modStrand_collTold (k : Nat) (f : Strand → Strand) : (modStrand c k f).collTold = c.collTold := rfl
@[simp] theorem modStrand_countedBy (k : Nat) (f : Strand → Strand) : (modStrand c k f).countedBy = c.countedBy := rfl
@[simp] theorem modStrand_frameLines (k : Nat) (f : Strand → Strand) : (modStrand c k f).frameLines = c.frameLines := rfl
@[simp] theorem modStrand_stored (k : Nat) (f : Strand → Strand) : (modStrand c k f).stored = c.stored := rfl
@[simp] theorem modStrand_evict (k : Nat) (f : Strand → Strand) : (modStrand c k f).evict = c.evict := rfl

/-! ### A context -/

@[simp] theorem vSet_pc (r : Nat) (z : Vec) : (vSet y r z).pc = y.pc := rfl
@[simp] theorem vSet_g (r : Nat) (z : Vec) : (vSet y r z).g = y.g := rfl
@[simp] theorem vSet_q (r : Nat) (z : Vec) : (vSet y r z).q = y.q := rfl
@[simp] theorem vSet_m (r : Nat) (z : Vec) : (vSet y r z).m = y.m := rfl
@[simp] theorem vSet_f (r : Nat) (z : Vec) : (vSet y r z).f = y.f := rfl
@[simp] theorem vSet_fpflags (r : Nat) (z : Vec) : (vSet y r z).fpflags = y.fpflags := rfl
@[simp] theorem vSet_fpctl (r : Nat) (z : Vec) : (vSet y r z).fpctl = y.fpctl := rfl
@[simp] theorem vSet_lfsr (r : Nat) (z : Vec) : (vSet y r z).lfsr = y.lfsr := rfl
@[simp] theorem vSet_banks (r : Nat) (z : Vec) : (vSet y r z).banks = y.banks := rfl
@[simp] theorem vSet_lines (r : Nat) (z : Vec) : (vSet y r z).lines = y.lines := rfl
@[simp] theorem vSet_abandoned (r : Nat) (z : Vec) : (vSet y r z).abandoned = y.abandoned := rfl
@[simp] theorem mSet_pc (r : Nat) (z : Word) : (mSet y r z).pc = y.pc := rfl
@[simp] theorem mSet_g (r : Nat) (z : Word) : (mSet y r z).g = y.g := rfl
@[simp] theorem mSet_v (r : Nat) (z : Word) : (mSet y r z).v = y.v := rfl
@[simp] theorem mSet_q (r : Nat) (z : Word) : (mSet y r z).q = y.q := rfl
@[simp] theorem mSet_f (r : Nat) (z : Word) : (mSet y r z).f = y.f := rfl
@[simp] theorem mSet_fpflags (r : Nat) (z : Word) : (mSet y r z).fpflags = y.fpflags := rfl
@[simp] theorem mSet_fpctl (r : Nat) (z : Word) : (mSet y r z).fpctl = y.fpctl := rfl
@[simp] theorem mSet_lfsr (r : Nat) (z : Word) : (mSet y r z).lfsr = y.lfsr := rfl
@[simp] theorem mSet_banks (r : Nat) (z : Word) : (mSet y r z).banks = y.banks := rfl
@[simp] theorem mSet_lines (r : Nat) (z : Word) : (mSet y r z).lines = y.lines := rfl
@[simp] theorem mSet_abandoned (r : Nat) (z : Word) : (mSet y r z).abandoned = y.abandoned := rfl
@[simp] theorem setResident_pc (r : Nat) (z : Word) : (setResident y r z).pc = y.pc := by unfold setResident; split <;> rfl
@[simp] theorem setResident_v (r : Nat) (z : Word) : (setResident y r z).v = y.v := by unfold setResident; split <;> rfl
@[simp] theorem setResident_q (r : Nat) (z : Word) : (setResident y r z).q = y.q := by unfold setResident; split <;> rfl
@[simp] theorem setResident_m (r : Nat) (z : Word) : (setResident y r z).m = y.m := by unfold setResident; split <;> rfl
@[simp] theorem setResident_f (r : Nat) (z : Word) : (setResident y r z).f = y.f := by unfold setResident; split <;> rfl
@[simp] theorem setResident_fpflags (r : Nat) (z : Word) : (setResident y r z).fpflags = y.fpflags := by unfold setResident; split <;> rfl
@[simp] theorem setResident_fpctl (r : Nat) (z : Word) : (setResident y r z).fpctl = y.fpctl := by unfold setResident; split <;> rfl
@[simp] theorem setResident_lfsr (r : Nat) (z : Word) : (setResident y r z).lfsr = y.lfsr := by unfold setResident; split <;> rfl
@[simp] theorem setResident_banks (r : Nat) (z : Word) : (setResident y r z).banks = y.banks := by unfold setResident; split <;> rfl
@[simp] theorem setResident_lines (r : Nat) (z : Word) : (setResident y r z).lines = y.lines := by unfold setResident; split <;> rfl
@[simp] theorem setResident_abandoned (r : Nat) (z : Word) : (setResident y r z).abandoned = y.abandoned := by unfold setResident; split <;> rfl
@[simp] theorem qSet_pc (r : Nat) (z : Mask) : (qSet y r z).pc = y.pc := by unfold qSet; split <;> rfl
@[simp] theorem qSet_g (r : Nat) (z : Mask) : (qSet y r z).g = y.g := by unfold qSet; split <;> rfl
@[simp] theorem qSet_v (r : Nat) (z : Mask) : (qSet y r z).v = y.v := by unfold qSet; split <;> rfl
@[simp] theorem qSet_m (r : Nat) (z : Mask) : (qSet y r z).m = y.m := by unfold qSet; split <;> rfl
@[simp] theorem qSet_f (r : Nat) (z : Mask) : (qSet y r z).f = y.f := by unfold qSet; split <;> rfl
@[simp] theorem qSet_fpflags (r : Nat) (z : Mask) : (qSet y r z).fpflags = y.fpflags := by unfold qSet; split <;> rfl
@[simp] theorem qSet_fpctl (r : Nat) (z : Mask) : (qSet y r z).fpctl = y.fpctl := by unfold qSet; split <;> rfl
@[simp] theorem qSet_lfsr (r : Nat) (z : Mask) : (qSet y r z).lfsr = y.lfsr := by unfold qSet; split <;> rfl
@[simp] theorem qSet_banks (r : Nat) (z : Mask) : (qSet y r z).banks = y.banks := by unfold qSet; split <;> rfl
@[simp] theorem qSet_lines (r : Nat) (z : Mask) : (qSet y r z).lines = y.lines := by unfold qSet; split <;> rfl
@[simp] theorem qSet_abandoned (r : Nat) (z : Mask) : (qSet y r z).abandoned = y.abandoned := by unfold qSet; split <;> rfl

/-! ### A management core -/

@[simp] theorem setMreg_st (n v : Nat) : (setMreg m n v).st = m.st := rfl
@[simp] theorem setMreg_ctx (n v : Nat) : (setMreg m n v).ctx = m.ctx := rfl
@[simp] theorem setMreg_wait (n v : Nat) : (setMreg m n v).wait = m.wait := rfl
@[simp] theorem setMreg_store (n v : Nat) : (setMreg m n v).store = m.store := rfl
@[simp] theorem setMreg_bad (n v : Nat) : (setMreg m n v).bad = m.bad := rfl
@[simp] theorem setMreg_correctable (n v : Nat) : (setMreg m n v).correctable = m.correctable := rfl
@[simp] theorem setMreg_found (n v : Nat) : (setMreg m n v).found = m.found := rfl
@[simp] theorem setMreg_mcheck (n v : Nat) : (setMreg m n v).mcheck = m.mcheck := rfl
@[simp] theorem setMreg_lastIssue (n v : Nat) : (setMreg m n v).lastIssue = m.lastIssue := rfl
@[simp] theorem setMreg_yieldTo (n v : Nat) : (setMreg m n v).yieldTo = m.yieldTo := rfl
@[simp] theorem setMreg_accesses (n v : Nat) : (setMreg m n v).accesses = m.accesses := rfl
@[simp] theorem setMreg_accIds (n v : Nat) : (setMreg m n v).accIds = m.accIds := rfl
@[simp] theorem setMreg_scalars (n v : Nat) : (setMreg m n v).scalars = m.scalars := rfl
@[simp] theorem setMreg_vectors (n v : Nat) : (setMreg m n v).vectors = m.vectors := rfl
@[simp] theorem setMreg_arrivals (n v : Nat) : (setMreg m n v).arrivals = m.arrivals := rfl
@[simp] theorem setMreg_echoes (n v : Nat) : (setMreg m n v).echoes = m.echoes := rfl

end Sys2Proof.Laws
end

