-- ==== Sys2Proof/Laws/Ops.lean ====
section
/-! SUPPORT. What the shared operations over sites, registers and contexts do, each said once. -/

namespace Sys2Proof.Laws

open Sys2Proof.Machine

/-! ### Sites, management cores, modules, regions, ports -/

@[simp] theorem getSite_setSite (s : State) (a n : Nat) (x : Site) :
    getSite (setSite s a x) n = if n = a then x else getSite s n := by
  simp only [getSite, setSite, tget?_tset]; split <;> rfl
@[simp] theorem getSite_modSite (s : State) (a n : Nat) (f : Site → Site) :
    getSite (modSite s a f) n = if n = a then f (getSite s a) else getSite s n := by
  simp [modSite]
@[simp] theorem getSite_modMgmt (s : State) (k n : Nat) (f : Mgmt → Mgmt) : getSite (modMgmt s k f) n = getSite s n := rfl
@[simp] theorem getMgmt_modSite (s : State) (a k : Nat) (f : Site → Site) : getMgmt (modSite s a f) k = getMgmt s k := rfl
@[simp] theorem getMgmt_setSite (s : State) (a k : Nat) (x : Site) : getMgmt (setSite s a x) k = getMgmt s k := rfl
@[simp] theorem getMgmt_modMgmt (s : State) (k n : Nat) (f : Mgmt → Mgmt) :
    getMgmt (modMgmt s k f) n = if n = k then f (getMgmt s k) else getMgmt s n := by
  simp [getMgmt, modMgmt]
@[simp] theorem getModule_modModule (s : State) (k n : Nat) (f : Module → Module) :
    getModule (modModule s k f) n = if n = k then f (getModule s k) else getModule s n := by
  simp [getModule, modModule]
@[simp] theorem getPort_modPort (s : State) (k n : Nat) (f : Port → Port) :
    getPort (modPort s k f) n = if n = k then f (getPort s k) else getPort s n := by
  simp [getPort, modPort]
@[simp] theorem getRegion_modRegion (s : State) (k n : Nat) (f : Region → Region) :
    getRegion (modRegion s k f) n = if n = k then f (getRegion s k) else getRegion s n := by
  simp only [getRegion, modRegion, tget_tset]
@[simp] theorem getModule_modSite (s : State) (a k : Nat) (f : Site → Site) : getModule (modSite s a f) k = getModule s k := rfl
@[simp] theorem getPort_modSite (s : State) (a k : Nat) (f : Site → Site) : getPort (modSite s a f) k = getPort s k := rfl
@[simp] theorem getModule_modMgmt (s : State) (a k : Nat) (f : Mgmt → Mgmt) : getModule (modMgmt s a f) k = getModule s k := rfl
@[simp] theorem getPort_modMgmt (s : State) (a k : Nat) (f : Mgmt → Mgmt) : getPort (modMgmt s a f) k = getPort s k := rfl
@[simp] theorem getSite_modModule (s : State) (w n : Nat) (f : Module → Module) : getSite (modModule s w f) n = getSite s n := rfl
@[simp] theorem getMgmt_modModule (s : State) (w n : Nat) (f : Module → Module) : getMgmt (modModule s w f) n = getMgmt s n := rfl
@[simp] theorem getSite_modPort (s : State) (w n : Nat) (f : Port → Port) : getSite (modPort s w f) n = getSite s n := rfl
@[simp] theorem getSite_modRegion (s : State) (w n : Nat) (f : Region → Region) : getSite (modRegion s w f) n = getSite s n := rfl

/-! ### Slots and strands of a core -/

@[simp] theorem slotOf_modSlot (c : Core) (k j : Nat) (f : Slot → Slot) :
    slotOf (modSlot c k f) j = if j = k then f (slotOf c k) else slotOf c j := by
  simp [slotOf, modSlot]
@[simp] theorem strandOf_modStrand (c : Core) (k j : Nat) (f : Strand → Strand) :
    strandOf (modStrand c k f) j = if j = k then f (strandOf c k) else strandOf c j := by
  simp [strandOf, modStrand]
@[simp] theorem strandOf_modSlot (c : Core) (k j : Nat) (f : Slot → Slot) : strandOf (modSlot c k f) j = strandOf c j := rfl
@[simp] theorem slotOf_pool (c : Core) (p : Tab Word) (k : Nat) : slotOf { c with pool := p } k = slotOf c k := rfl
@[simp] theorem slotOf_modStrand (c : Core) (k j : Nat) (f : Strand → Strand) : slotOf (modStrand c k f) j = slotOf c j := rfl

/-! ### Registers of a context -/

@[simp] theorem vGet_vSet (y : Ctx) (r n : Nat) (z : Vec) : vGet (vSet y r z) n = if n = r then z else vGet y n := by
  simp [vGet, vSet]
@[simp] theorem mGet_mSet (y : Ctx) (r n : Nat) (z : Word) : mGet (mSet y r z) n = if n = r then z else mGet y n := by
  simp [mGet, mSet]
@[simp] theorem qGet_qSet (y : Ctx) (r n : Nat) (z : Mask) (h : r ≠ 0) : qGet (qSet y r z) n = if n = r then z else qGet y n := by
  by_cases hn : n = 0
  · subst hn; simp [qGet, Ne.symm h]
  · simp [qGet, qSet, h, hn]
/-- A write to q0 is discarded. -/
@[simp] theorem qSet_zero (y : Ctx) (z : Mask) : qSet y 0 z = y := rfl
/-- A write to g0 is discarded. -/
@[simp] theorem setResident_zero (y : Ctx) (z : Word) : setResident y 0 z = y := rfl
@[simp] theorem setResident_g (e : Word) (y : Ctx) (r n : Nat) (z : Word) :
    tget e (setResident y r z).g n = if n = r ∧ r ≠ 0 then z else tget e y.g n := by
  unfold setResident
  split
  · rename_i h; rw [if_neg (by simp [h])]
  · rename_i h; simp [h]

/-! ### Registers of the agent at hand -/

@[simp] theorem cur_modCurCtx (s : State) (f : Ctx → Ctx) : (modCurCtx s f).cur = s.cur := by
  unfold modCurCtx; split <;> rfl
@[simp] theorem rest_modCurCtx (s : State) (f : Ctx → Ctx) :
    { modCurCtx s f with sites := [], mgmts := [] } = { s with sites := [], mgmts := [] } := by
  unfold modCurCtx; split <;> rfl
@[simp] theorem rest_writeG (s : State) (r : Nat) (v : Word) :
    { writeG s r v with sites := [], mgmts := [] } = { s with sites := [], mgmts := [] } := by
  unfold writeG; split
  · rfl
  · split
    · exact rest_modCurCtx s _
    · rfl

/-- The agent's context after it is changed. -/
@[simp] theorem curCtx_modCurCtx (s : State) (f : Ctx → Ctx) : curCtx (modCurCtx s f) = f (curCtx s) := by
  cases h : s.cur <;> simp [modCurCtx, curCtx, h, onCore]
@[simp] theorem cur_writeG (s : State) (r : Nat) (v : Word) : (writeG s r v).cur = s.cur := by
  unfold writeG; split
  · rfl
  · split
    · exact cur_modCurCtx s _
    · rfl
@[simp] theorem cur_advance (s : State) (n : Nat) : (advance s n).cur = s.cur := cur_modCurCtx s _
@[simp] theorem cur_jumpTo (s : State) (t : Word) : (jumpTo s t).cur = s.cur := cur_modCurCtx s _
@[simp] theorem curPc_advance (s : State) (n : Nat) : curPc (advance s n) = curPc s + wordN n := by
  simp [curPc, advance]
@[simp] theorem curPc_jumpTo (s : State) (t : Word) : curPc (jumpTo s t) = t := by
  simp [curPc, jumpTo]
@[simp] theorem curPc_writeG (s : State) (r : Nat) (v : Word) : curPc (writeG s r v) = curPc s := by
  unfold writeG
  split
  · rename_i sid k h
    simp only [curPc, curCtx, h, modSite_cur, getSite_modSite, if_true, onCore, slotSetG]
    split
    · simp
    · split <;> simp
  · split
    · simp [curPc]
    · rfl
@[simp] theorem curLevel_modCurCtx (s : State) (f : Ctx → Ctx) : curLevel (modCurCtx s f) = curLevel s := by
  simp [curLevel]

/-- What gGet reads of a context whose general registers, bank map and pool read alike. -/
theorem gGet_congr {c c' : Core} {x y : Ctx} (r : Nat) (hg : tget 0 y.g r = tget 0 x.g r) (hb : y.banks = x.banks)
    (hp : c'.pool = c.pool) : gGet c' y r = gGet c x r := by
  simp only [gGet, hg, hb, hp]

/-- A change of the agent's context that keeps its general registers and bank map changes no general register. -/
theorem readG_modCurCtx (s : State) (f : Ctx → Ctx) (r : Nat) (hg : (f (curCtx s)).g = (curCtx s).g)
    (hb : (f (curCtx s)).banks = (curCtx s).banks) : readG (modCurCtx s f) r = readG s r := by
  have hc := curCtx_modCurCtx s f
  cases h : s.cur with
  | mgmt k =>
    simp only [curCtx, h] at hg hb
    simp only [readG, cur_modCurCtx, h]
    refine gGet_congr r ?_ ?_ rfl <;> simp [modCurCtx, h, hg, hb]
  | strand sid k =>
    simp only [readG, cur_modCurCtx, h]
    refine gGet_congr r (by rw [hc, hg]) (by rw [hc, hb]) ?_
    simp [curSite, curSid, modCurCtx, h, onCore]
  | sup sid =>
    simp only [readG, cur_modCurCtx, h]
    refine gGet_congr r (by rw [hc, hg]) (by rw [hc, hb]) ?_
    simp [curSite, curSid, modCurCtx, h, onCore]
@[simp] theorem readG_advance (s : State) (n r : Nat) : readG (advance s n) r = readG s r := readG_modCurCtx s _ r rfl rfl
@[simp] theorem readG_jumpTo (s : State) (t : Word) (r : Nat) : readG (jumpTo s t) r = readG s r := readG_modCurCtx s _ r rfl rfl

/-- A general register that the agent can name and whose bank is mapped reads what was written; g0 reads zero. -/
theorem readG_writeG (s : State) (d : Nat) (v : Word) (hn : nameable s d) (hm : gMapped (curCtx s) d = true) :
    readG (writeG s d v) d = if d = 0 then 0 else v := by
  cases h : s.cur with
  | mgmt k =>
    have hd : d < 16 := by simpa [nameable, curLevel, h, levelOf] using hn
    simp [readG, writeG, h, hd, modCurCtx, gGet]
    by_cases h0 : d = 0 <;> simp [h0]
  | sup sid =>
    have hd : d < 16 := by simpa [nameable, curLevel, h, levelOf] using hn
    simp [readG, writeG, h, hd, modCurCtx, gGet, curCtx, onCore]
    by_cases h0 : d = 0 <;> simp [h0]
  | strand sid k =>
    simp only [curCtx, h] at hm
    by_cases hd : d < 16
    · simp [readG, writeG, h, hd, gGet, curCtx, onCore, slotSetG]
      by_cases h0 : d = 0 <;> simp [h0]
    · have h0 : d ≠ 0 := by omega
      simp only [gMapped, hd, decide_false, Bool.false_or] at hm
      obtain ⟨b, hb⟩ := Option.isSome_iff_exists.mp hm
      simp [readG, writeG, h, hd, gGet, curCtx, curSite, curSid, onCore, slotSetG, poolIdx, hb, h0]

/-! ### Frames -/

theorem blankSite_eq (hide : Core → Core) (x y : Site) (h1 : y.id = x.id) (h2 : y.life = x.life) (h3 : y.dead = x.dead)
    (h4 : y.regs = x.regs) (h5 : y.router = x.router) (h6 : hide y.core = hide x.core) :
    blankSite hide y = blankSite hide x := by
  cases x; cases y; simp_all [blankSite]

/-- A frame after which only the agent's program counter and fetch lines change. -/
theorem changesOnly_ctx {d : Option RegRef} {hd : Hide} {s t : State}
    (h : changesOnly d hd s t) (f : Ctx → Ctx)
    (hf : ∀ x, (f x).g = x.g ∧ (f x).v = x.v ∧ (f x).q = x.q ∧ (f x).m = x.m ∧ (f x).f = x.f ∧ (f x).fpflags = x.fpflags ∧
      (f x).fpctl = x.fpctl ∧ (f x).lfsr = x.lfsr ∧ (f x).banks = x.banks) :
    changesOnly d hd s (modCurCtx t f) := by
  obtain ⟨h1, h2, h3⟩ := h
  have hcur : t.cur = s.cur := by have := congrArg State.cur h1; simpa using this
  obtain ⟨f1, f2, f3, f4, f5, f6, f7, f8, f9⟩ := hf (curCtx t)
  refine ⟨by rw [rest_modCurCtx, h1], ?_, ?_⟩
  · obtain ⟨a1, a2, a3, a4, a5, a6, a7, a8, a9⟩ := h2
    rw [curCtx_modCurCtx]
    exact ⟨by rwa [f1], by rwa [f2], by rwa [f3], by rw [f4, a4], by rw [f5, a5], by rw [f6, a6], by rw [f7, a7],
      by rw [f8, a8], by rw [f9, a9]⟩
  · cases hc : s.cur with
    | mgmt k =>
      simp only [hc] at h3 ⊢
      obtain ⟨b1, b2, b3⟩ := h3
      simp only [modCurCtx, hcur, hc]
      refine ⟨b1, ?_, ?_⟩
      · intro n hn; rw [getMgmt_modMgmt, if_neg hn]; exact b2 n hn
      · simpa using b3
    | sup sid =>
      simp only [hc] at h3 ⊢
      obtain ⟨b1, b2, b3⟩ := h3
      simp only [modCurCtx, hcur, hc]
      refine ⟨b1, ?_, ?_⟩
      · intro n hn; rw [getSite_modSite, if_neg hn]; exact b2 n hn
      · rw [getSite_modSite, if_pos rfl]; simpa [blankSite, onCore] using b3
    | strand sid k =>
      simp only [hc] at h3 ⊢
      obtain ⟨b1, b2, b3, b4, b5, b6⟩ := h3
      simp only [modCurCtx, hcur, hc]
      refine ⟨b1, ?_, ?_, ?_, ?_, ?_⟩
      · intro n hn; rw [getSite_modSite, if_neg hn]; exact b2 n hn
      · rw [getSite_modSite, if_pos rfl]; simpa [blankSite, onCore, modSlot] using b3
      · intro j hj; rw [getSite_modSite, if_pos rfl]; simpa [onCore, hj] using b4 j hj
      · rw [getSite_modSite, if_pos rfl]; simpa [onCore] using b5
      · rw [getSite_modSite, if_pos rfl]; simpa [poolSame, onCore] using b6

/-- Nothing changed. -/
theorem changesOnly_refl (hd : Hide) (s : State) : changesOnly none hd s s := by
  refine ⟨rfl, ⟨fun _ _ _ => rfl, fun _ _ => rfl, fun _ _ => rfl, rfl, rfl, rfl, rfl, rfl, rfl⟩, ?_⟩
  cases s.cur with
  | strand sid k => exact ⟨rfl, fun _ _ => rfl, rfl, fun _ _ => rfl, rfl, fun _ _ => rfl⟩
  | sup sid => exact ⟨rfl, fun _ _ => rfl, rfl⟩
  | mgmt k => exact ⟨rfl, fun _ _ => rfl, rfl⟩

/-- A general register written. -/
theorem changesOnly_writeG (hd : Hide) (s : State) (d : Nat) (v : Word) :
    changesOnly (some (.g d)) hd s (writeG s d v) := by
  refine ⟨rest_writeG s d v, ?_, ?_⟩
  · cases h : s.cur with
    | strand sid k =>
      simp only [curCtx, writeG, h, modSite_cur, getSite_modSite, if_true, onCore, slotSetG]
      by_cases hd : d < 16
      · simp only [if_pos hd, slotOf_modSlot, if_true]
        refine ⟨?_, by simp, by simp, by simp, by simp, by simp, by simp, by simp, by simp⟩
        intro r hr hn; rw [setResident_g, if_neg]; rintro ⟨rfl, -⟩; exact hn rfl
      · simp only [if_neg hd]
        split
        · simp only [slotOf_modSlot, if_true]
          exact ⟨fun _ _ _ => rfl, fun _ _ => rfl, fun _ _ => rfl, rfl, rfl, rfl, rfl, rfl, rfl⟩
        · exact ⟨fun _ _ _ => rfl, fun _ _ => rfl, fun _ _ => rfl, rfl, rfl, rfl, rfl, rfl, rfl⟩
    | sup sid =>
      simp only [writeG, h]
      split
      · rw [curCtx_modCurCtx]
        refine ⟨?_, by simp, by simp, by simp, by simp, by simp, by simp, by simp, by simp⟩
        intro r hr hn; rw [setResident_g, if_neg]; rintro ⟨rfl, -⟩; exact hn rfl
      · exact ⟨fun _ _ _ => rfl, fun _ _ => rfl, fun _ _ => rfl, rfl, rfl, rfl, rfl, rfl, rfl⟩
    | mgmt sid =>
      simp only [writeG, h]
      split
      · rw [curCtx_modCurCtx]
        refine ⟨?_, by simp, by simp, by simp, by simp, by simp, by simp, by simp, by simp⟩
        intro r hr hn; rw [setResident_g, if_neg]; rintro ⟨rfl, -⟩; exact hn rfl
      · exact ⟨fun _ _ _ => rfl, fun _ _ => rfl, fun _ _ => rfl, rfl, rfl, rfl, rfl, rfl, rfl⟩
  · cases h : s.cur with
    | mgmt k =>
      simp only [writeG, h]
      split
      · simp only [modCurCtx, h]
        exact ⟨rfl, fun n hn => by rw [getMgmt_modMgmt, if_neg hn], by simp⟩
      · exact ⟨rfl, fun _ _ => rfl, rfl⟩
    | sup sid =>
      simp only [writeG, h]
      split
      · simp only [modCurCtx, h]
        exact ⟨rfl, fun n hn => by rw [getSite_modSite, if_neg hn], by simp [blankSite, onCore]⟩
      · exact ⟨rfl, fun _ _ => rfl, rfl⟩
    | strand sid k =>
      simp only [writeG, h]
      refine ⟨rfl, fun n hn => by rw [getSite_modSite, if_neg hn], ?_, ?_, ?_, ?_⟩
      · rw [getSite_modSite, if_pos rfl]
        simp only [blankSite, onCore, slotSetG]
        split
        · rfl
        · split <;> rfl
      · intro j hj
        rw [getSite_modSite, if_pos rfl]
        simp only [onCore, slotSetG]
        split
        · simp [hj]
        · split
          · simp only [slotOf_modSlot, if_neg hj]; rfl
          · rfl
      · rw [getSite_modSite, if_pos rfl]
        simp only [onCore, slotSetG]
        split
        · simp
        · split
          · simp only [slotOf_modSlot, if_true]; rfl
          · rfl
      · rw [getSite_modSite, if_pos rfl]
        intro i hi
        simp only [onCore, slotSetG]
        split
        · rfl
        · rename_i hd
          split
          · rename_i p hp
            simp only [modSlot_pool, tget_tset]
            rw [if_neg]; rintro rfl
            exact hi d rfl (by omega) hp
          · rfl

theorem slotOf_congr {c c' : Core} (h : c'.slots = c.slots) (k : Nat) : slotOf c' k = slotOf c k := by
  simp only [slotOf, h]

/-- A change of the agent's core that keeps its slots, its pool and the supervisor's registers, and of which the
rest is out of sight. -/
theorem changesOnly_onCore (hd : Hide) (s : State) (f : Core → Core) (hc : ∀ k, s.cur ≠ .mgmt k)
    (hs : (f (curSite s).core).slots = (curSite s).core.slots) (hp : (f (curSite s).core).pool = (curSite s).core.pool)
    (hx : (f (curSite s).core).sup.ctx = (curSite s).core.sup.ctx)
    (h1 : ∀ sid k, s.cur = .strand sid k →
      hd.core { f (curSite s).core with slots := [], pool := [] } = hd.core { (curSite s).core with slots := [], pool := [] })
    (h2 : ∀ sid, s.cur = .sup sid → hd.core { f (curSite s).core with sup := { (f (curSite s).core).sup with ctx := {} } } =
      hd.core { (curSite s).core with sup := { (curSite s).core.sup with ctx := {} } }) :
    changesOnly none hd s (modSite s (curSid s) (onCore f)) := by
  refine ⟨rfl, ?_, ?_⟩
  · have : curCtx (modSite s (curSid s) (onCore f)) = curCtx s := by
      cases h : s.cur with
      | mgmt k => exact absurd h (hc k)
      | strand sid k =>
        have hs' := hs
        simp only [curSite, curSid, h] at hs'
        simp only [curCtx, modSite_cur, h, curSid, getSite_modSite, if_true, onCore, slotOf_congr hs']
      | sup sid =>
        have hx' := hx
        simp only [curSite, curSid, h] at hx'
        simp only [curCtx, modSite_cur, h, curSid, getSite_modSite, if_true, onCore, hx']
    rw [this]
    exact ⟨fun _ _ _ => rfl, fun _ _ => rfl, fun _ _ => rfl, rfl, rfl, rfl, rfl, rfl, rfl⟩
  · cases h : s.cur with
    | mgmt k => exact absurd h (hc k)
    | strand sid k =>
      simp only [curSite, curSid, h] at hs hp h1 ⊢
      refine ⟨rfl, fun n hn => by rw [getSite_modSite, if_neg hn], ?_, ?_, ?_, ?_⟩
      · simpa [blankSite, onCore] using h1 sid k rfl
      · intro j _; rw [getSite_modSite, if_pos rfl]; exact slotOf_congr hs j
      · rw [getSite_modSite, if_pos rfl]; simp only [onCore, slotOf_congr hs]
      · rw [getSite_modSite, if_pos rfl]; intro i _; simp only [onCore, hp]
    | sup sid =>
      simp only [curSite, curSid, h] at h2 ⊢
      refine ⟨rfl, fun n hn => by rw [getSite_modSite, if_neg hn], ?_⟩
      simpa [blankSite, onCore] using h2 sid rfl

/-- A change of a management core that keeps its registers and of which the rest is out of sight. -/
theorem changesOnly_mgmt (hd : Hide) (s : State) (k : Nat) (f : Mgmt → Mgmt) (hc : s.cur = .mgmt k)
    (hx : (f (getMgmt s k)).ctx = (getMgmt s k).ctx)
    (h1 : hd.mgmt { f (getMgmt s k) with ctx := {} } = hd.mgmt { getMgmt s k with ctx := {} }) :
    changesOnly none hd s (modMgmt s k f) := by
  refine ⟨rfl, ?_, ?_⟩
  · have : curCtx (modMgmt s k f) = curCtx s := by simp [curCtx, hc, hx]
    rw [this]
    exact ⟨fun _ _ _ => rfl, fun _ _ => rfl, fun _ _ => rfl, rfl, rfl, rfl, rfl, rfl, rfl⟩
  · simp only [hc]
    exact ⟨rfl, fun n hn => by rw [getMgmt_modMgmt, if_neg hn], by simpa using h1⟩

/-- The program counter moved past the instruction keeps a frame. -/
theorem changesOnly_advance {d : Option RegRef} {hd : Hide} {s t : State} (h : changesOnly d hd s t) (n : Nat) :
    changesOnly d hd s (advance t n) :=
  changesOnly_ctx h (fun x => { x with pc := x.pc + wordN n }) (fun _ => ⟨rfl, rfl, rfl, rfl, rfl, rfl, rfl, rfl, rfl⟩)
/-- The agent's program counter under a frame. -/
theorem curPc_onCore (s : State) (f : Core → Core) (hc : ∀ k, s.cur ≠ .mgmt k)
    (hs : (f (curSite s).core).slots = (curSite s).core.slots) (hx : (f (curSite s).core).sup.ctx = (curSite s).core.sup.ctx) :
    curPc (modSite s (curSid s) (onCore f)) = curPc s := by
  cases h : s.cur with
  | mgmt k => exact absurd h (hc k)
  | strand sid k =>
    simp only [curSite, curSid, h] at hs
    simp only [curPc, curCtx, modSite_cur, h, curSid, getSite_modSite, if_true, onCore, slotOf_congr hs]
  | sup sid =>
    simp only [curSite, curSid, h] at hx
    simp only [curPc, curCtx, modSite_cur, h, curSid, getSite_modSite, if_true, onCore, hx]

/-- The memories after a frame that hides none. -/
theorem sameMemory_of {d : Option RegRef} {hd : Hide} {s t : State}
    (h : changesOnly d hd s t) (hm : ∀ c c', hd.core c = hd.core c' → c.mem = c'.mem)
    (hs : ∀ m m', hd.mgmt m = hd.mgmt m' → m.store = m'.store) :
    sameMemory s t := by
  obtain ⟨h1, -, h3⟩ := h
  have hp : t.ports = s.ports := by have := congrArg State.ports h1; simpa using this
  have hmo : t.modules = s.modules := by have := congrArg State.modules h1; simpa using this
  refine ⟨?_, ?_, fun p a => by simp only [portByte, getPort, hp], fun w n a => by simp only [imageByte, getModule, hmo]⟩
  · intro n p
    cases hc : s.cur with
    | mgmt k => simp only [hc] at h3; simp only [storeByte, getSite, h3.1]
    | sup sid =>
      simp only [hc] at h3
      by_cases hn : n = sid
      · subst hn
        have := hm _ _ (congrArg Site.core h3.2.2)
        simp only [storeByte]; exact congrArg (fun m => mget m p) this
      · simp only [storeByte, h3.2.1 n hn]
    | strand sid k =>
      simp only [hc] at h3
      by_cases hn : n = sid
      · subst hn
        have := hm _ _ (congrArg Site.core h3.2.2.1)
        simp only [storeByte]; exact congrArg (fun m => mget m p) this
      · simp only [storeByte, h3.2.1 n hn]
  · intro k a
    cases hc : s.cur with
    | mgmt j =>
      simp only [hc] at h3
      by_cases hn : k = j
      · subst hn
        have := hs _ _ h3.2.2
        simp only [mgmtByte]; exact congrArg (fun m => mget m a) this
      · simp only [mgmtByte, h3.2.1 k hn]
    | sup sid => simp only [hc] at h3; simp only [mgmtByte, getMgmt, h3.1]
    | strand sid j => simp only [hc] at h3; simp only [mgmtByte, getMgmt, h3.1]

/-- The frame of an instruction that writes gd and goes on. -/
theorem writesOnly_retG (s : State) (d n : Nat) (v : Word) : writesOnly (some (.g d)) s (advance (writeG s d v) n) :=
  have h := changesOnly_ctx (changesOnly_writeG {} s d v) (fun x => { x with pc := x.pc + wordN n })
    (fun _ => ⟨rfl, rfl, rfl, rfl, rfl, rfl, rfl, rfl, rfl⟩)
  ⟨h, sameMemory_of h (fun _ _ e => congrArg Core.mem e) (fun _ _ e => congrArg Mgmt.store e)⟩
/-- The frame of an instruction that writes gd and jumps. -/
theorem writesOnly_jump (s : State) (d : Nat) (v t : Word) : writesOnly (some (.g d)) s (jumpTo (writeG s d v) t) :=
  have h := changesOnly_ctx (changesOnly_writeG {} s d v) (fun x => { x with pc := t, lines := [], abandoned := none })
    (fun _ => ⟨rfl, rfl, rfl, rfl, rfl, rfl, rfl, rfl, rfl⟩)
  ⟨h, sameMemory_of h (fun _ _ e => congrArg Core.mem e) (fun _ _ e => congrArg Mgmt.store e)⟩
/-- The frame of an instruction that only goes on, and of a jump. -/
theorem writesOnly_advance (s : State) (n : Nat) : writesOnly none s (advance s n) :=
  have h := changesOnly_ctx (changesOnly_refl {} s) (fun x => { x with pc := x.pc + wordN n })
    (fun _ => ⟨rfl, rfl, rfl, rfl, rfl, rfl, rfl, rfl, rfl⟩)
  ⟨h, sameMemory_of h (fun _ _ e => congrArg Core.mem e) (fun _ _ e => congrArg Mgmt.store e)⟩
theorem writesOnly_jumpTo (s : State) (t : Word) : writesOnly none s (jumpTo s t) :=
  have h := changesOnly_ctx (changesOnly_refl {} s) (fun x => { x with pc := t, lines := [], abandoned := none })
    (fun _ => ⟨rfl, rfl, rfl, rfl, rfl, rfl, rfl, rfl, rfl⟩)
  ⟨h, sameMemory_of h (fun _ _ e => congrArg Core.mem e) (fun _ _ e => congrArg Mgmt.store e)⟩

/-! ### The checks before an instruction's own -/

/-- An instruction whose checks pass acts. -/
theorem issue_acts {i : Instr} {s : State} (h : guardTrap i s = none) (body : State → Res) : issue i s body = body s := by
  simp [issue, h]
/-- An instruction whose checks fail takes their trap. -/
theorem issue_traps {i : Instr} {s : State} {v : TrapVal} (h : guardTrap i s = some v) (body : State → Res) :
    issue i s body = .next (takeTrap (spendParity s v) v) := by
  simp [issue, h]
/-- Every general register that an instruction whose checks pass names lies in a mapped bank. -/
theorem mapped_of_guard {i : Instr} {s : State} (h : guardTrap i s = none) {u : Use} (hu : u ∈ uses i) {n : Nat}
    (hn : u.gOf = some n) : gMapped (curCtx s) n = true := by
  unfold guardTrap at h
  split at h
  · cases h
  · split at h
    · cases h
    · split at h
      · cases h
      · cases h
      · split at h
        · cases h
        · split at h
          · cases h
          · rename_i hm
            simp only [unmappedOf, List.findSome?_eq_none_iff] at hm
            have := hm u hu
            rw [hn] at this
            by_cases hg : gMapped (curCtx s) n = true
            · exact hg
            · simp [hg] at this

/-- A result written to gd by an instruction whose checks pass: its value, the program counter and the frame. -/
theorem retG_spec {i : Instr} {s : State} (h : guardTrap i s = none) (d : Nat) (v : Word) (hu : .wg d ∈ uses i) (hn : nameable s d) :
    ∃ t, retG d v s = .next t ∧ readG t d = (if d = 0 then 0 else v) ∧ curPc t = curPc s + 4 ∧ writesOnly (some (.g d)) s t := by
  refine ⟨_, rfl, ?_, ?_, writesOnly_retG s d 4 v⟩
  · rw [readG_advance, readG_writeG s d v hn (mapped_of_guard h hu rfl)]
  · rw [curPc_advance, curPc_writeG]; rfl

end Sys2Proof.Laws
end

