-- ==== Sys2Proof/Laws/PerInstr.lean ====
section
/-! SUPPORT. One lemma per instruction for the family RoundTrip: decoding the words that encode gives
for a well-formed instruction gives the instruction back (R79 to R84, and the encoding tables). An
event has no word and is not well-formed. -/

namespace Sys2Proof.Laws

open Sys2Proof Sys2Proof.Machine

/-- Decoding the words of a well-formed instruction gives it back. -/
def RoundTrip.Statement (i : Instr) : Prop :=
  i.WellFormed → decodeWords (encode i).1 (encode i).2 = .ok i

namespace RoundTrip

set_option Elab.async false

theorem decoded {w e : Nat} {i : Instr} (h : rawByMajor w e = some (some i)) (hl : i.WellFormed) :
    decodeWords w e = .ok i := by
  unfold decodeWords
  rw [h]
  exact if_pos hl

theorem statement_of {i : Instr} {w e : Nat} (he : encode i = (w, e))
    (h : i.WellFormed → rawByMajor w e = some (some i)) : Statement i := fun hl => by
  rw [he]
  exact decoded (h hl) hl

theorem statement_event {i : Instr} (h : legal i = false) : Statement i := fun hl =>
  absurd (h.symm.trans hl) Bool.false_ne_true

theorem fw_of {w hi lo : Nat} (y v x : Nat) (h : w = (y * 2 ^ (hi + 1 - lo) + v) * 2 ^ lo + x)
    (hx : x < 2 ^ lo) (hv : v < 2 ^ (hi + 1 - lo)) : fw w hi lo = v := by
  subst h
  unfold fw
  rw [Nat.add_comm, Nat.add_mul_div_right _ _ (Nat.two_pow_pos lo), Nat.div_eq_of_lt hx, Nat.zero_add,
    Nat.add_comm, Nat.add_mul_mod_self_right, Nat.mod_eq_of_lt hv]

theorem isG_lt {r : Nat} (h : isG r = true) : r < 64 := of_decide_eq_true h
theorem isV_lt {r : Nat} (h : isV r = true) : r < 16 := of_decide_eq_true h
theorem isQ_lt {r : Nat} (h : isQ r = true) : r < 8 := of_decide_eq_true h
theorem isA_lt {r : Nat} (h : isA r = true) : r < 8 := of_decide_eq_true h
theorem isH_lt {r : Nat} (h : isH r = true) : r < 32 := of_decide_eq_true h
theorem isS_lt {r : Nat} (h : isS r = true) : r < 16 := of_decide_eq_true h
theorem isScope_lt {r : Nat} (h : isScope r = true) : r < 6 := of_decide_eq_true h
theorem below_lt {n x : Nat} (h : below n x = true) : x < n := of_decide_eq_true h

theorem isQd_lt {r : Nat} (h : isQd r = true) : r < 8 := by
  simp only [isQd, Bool.and_eq_true, decide_eq_true_eq] at h
  exact h.2

theorem isD_lt {r : Nat} (h : isD r = true) : r < 64 := by
  simp only [isD, Bool.and_eq_true, decide_eq_true_eq] at h
  exact h.2

theorem isFloatT_lt {t : Nat} (h : isFloatT t = true) : t < 16 := by
  simp only [isFloatT, Bool.or_eq_true, beq_iff_eq] at h
  omega

theorem isSignedT_lt {t : Nat} (h : isSignedT t = true) : t < 16 := by
  simp only [isSignedT, Bool.or_eq_true, beq_iff_eq] at h
  omega

theorem isIntT_lt {t : Nat} (h : isIntT t = true) : t < 16 := by
  simp only [isIntT, isSignedT, isNatT, Bool.or_eq_true, beq_iff_eq] at h
  omega

theorem isT_lt {t : Nat} (h : isT t = true) : t < 16 := by
  simp only [isT, Bool.or_eq_true] at h
  exact h.elim isFloatT_lt isIntT_lt

theorem floatOrSigned_lt {t : Nat} (h : (isFloatT t || isSignedT t) = true) : t < 16 := by
  simp only [Bool.or_eq_true] at h
  exact h.elim isFloatT_lt isSignedT_lt

theorem cvtFmt_lt {f : Nat} (h : cvtFmt f = true) : f < 28 := by
  simp only [cvtFmt, Bool.or_eq_true, decide_eq_true_eq, beq_iff_eq] at h
  omega

theorem capacity_cases (f : Nat) : capacity f = 32 ∨ capacity f = 64 ∨ capacity f = 128 := by
  unfold capacity
  split
  · exact .inl rfl
  · split
    · exact .inr (.inl rfl)
    · exact .inr (.inr rfl)

theorem laneCount_cases (t : Nat) : laneCount t = 32 ∨ laneCount t = 64 ∨ laneCount t = 128 := by
  unfold laneCount laneBits
  split
  · exact .inl rfl
  · split
    · exact .inr (.inl rfl)
    · exact .inr (.inr rfl)

theorem part_lt {n m p : Nat} (hn : n = 32 ∨ n = 64 ∨ n = 128) (hm : m = 32 ∨ m = 64 ∨ m = 128)
    (h : partOk n m p = true) : p < 4 := by
  have h' : p < max n m / min n m := of_decide_eq_true h
  obtain rfl | rfl | rfl := hn <;> obtain rfl | rfl | rfl := hm <;> exact Nat.lt_of_lt_of_le h' (by decide)

theorem capacity_part_lt {f s p : Nat} (h : partOk (capacity f) (capacity s) p = true) : p < 4 :=
  part_lt (capacity_cases f) (capacity_cases s) h

theorem laneCount_part_lt {f s p : Nat} (h : partOk (laneCount f) (laneCount s) p = true) : p < 4 :=
  part_lt (laneCount_cases f) (laneCount_cases s) h

theorem qntOk_lt {b f p : Nat} (h : qntOk b f p = true) : b < 32 ∧ f < 32 ∧ p < 4 := by
  simp only [qntOk, isBlock, isFloatT, Bool.and_eq_true, Bool.or_eq_true, decide_eq_true_eq, beq_iff_eq] at h
  omega

theorem tcfgOk_lt {f g a : Nat} (h : tcfgOk f g a = true) : f < 28 ∧ g < 28 ∧ a < 2 := by
  simp only [tcfgOk, Bool.and_eq_true, Bool.or_eq_true, decide_eq_true_eq, beq_iff_eq] at h
  omega

theorem drainOk_lt {f r : Nat} (h : drainOk f r = true) : f < 28 ∧ r < 2 := by
  simp only [drainOk, Bool.and_eq_true, Bool.or_eq_true, decide_eq_true_eq, beq_iff_eq] at h
  omega

theorem invokeiOk_lt {h l p w x f : Nat} (hi : invokeiOk h l p w x f = true) :
    h < 1024 ∧ l < 3 ∧ p < 4 ∧ w < 8 ∧ x < 2 ∧ f < 28 := by
  simp only [invokeiOk, Bool.and_eq_true, Bool.or_eq_true, decide_eq_true_eq, beq_iff_eq] at hi
  omega

theorem major_01 {w e : Nat} (h : fw w 31 26 = 1) : rawByMajor w e = some (rawInt w) := by
  unfold rawByMajor
  rw [h]
  rfl

theorem major_02 {w e : Nat} (h : fw w 31 26 = 2) : rawByMajor w e = some (some (.addi (fw w 25 20) (fw w 19 14) (fw w 13 0))) := by
  unfold rawByMajor
  rw [h]
  rfl

theorem major_03 {w e : Nat} (h : fw w 31 26 = 3) : rawByMajor w e = some (some (.andi (fw w 25 20) (fw w 19 14) (fw w 13 0))) := by
  unfold rawByMajor
  rw [h]
  rfl

theorem major_04 {w e : Nat} (h : fw w 31 26 = 4) : rawByMajor w e = some (some (.ori (fw w 25 20) (fw w 19 14) (fw w 13 0))) := by
  unfold rawByMajor
  rw [h]
  rfl

theorem major_05 {w e : Nat} (h : fw w 31 26 = 5) : rawByMajor w e = some (some (.xori (fw w 25 20) (fw w 19 14) (fw w 13 0))) := by
  unfold rawByMajor
  rw [h]
  rfl

theorem major_06 {w e : Nat} (h : fw w 31 26 = 6) : rawByMajor w e = some (rawShiftImm w) := by
  unfold rawByMajor
  rw [h]
  rfl

theorem major_07 {w e : Nat} (h : fw w 31 26 = 7) : rawByMajor w e = some (some (.slti (fw w 25 20) (fw w 19 14) (fw w 13 0))) := by
  unfold rawByMajor
  rw [h]
  rfl

theorem major_08 {w e : Nat} (h : fw w 31 26 = 8) : rawByMajor w e = some (some (.sltin (fw w 25 20) (fw w 19 14) (fw w 13 0))) := by
  unfold rawByMajor
  rw [h]
  rfl

theorem major_09 {w e : Nat} (h : fw w 31 26 = 9) : rawByMajor w e = some (some (.lui (fw w 25 20) (fw w 19 0))) := by
  unfold rawByMajor
  rw [h]
  rfl

theorem major_0A {w e : Nat} (h : fw w 31 26 = 10) : rawByMajor w e = some (some (.adrp (fw w 25 20) (fw w 19 0))) := by
  unfold rawByMajor
  rw [h]
  rfl

theorem major_0B {w e : Nat} (h : fw w 31 26 = 11) : rawByMajor w e = some (some (.beq (fw w 25 20) (fw w 19 14) (fw w 13 0))) := by
  unfold rawByMajor
  rw [h]
  rfl

theorem major_0C {w e : Nat} (h : fw w 31 26 = 12) : rawByMajor w e = some (some (.bne (fw w 25 20) (fw w 19 14) (fw w 13 0))) := by
  unfold rawByMajor
  rw [h]
  rfl

theorem major_0D {w e : Nat} (h : fw w 31 26 = 13) : rawByMajor w e = some (some (.blt (fw w 25 20) (fw w 19 14) (fw w 13 0))) := by
  unfold rawByMajor
  rw [h]
  rfl

theorem major_0E {w e : Nat} (h : fw w 31 26 = 14) : rawByMajor w e = some (some (.bge (fw w 25 20) (fw w 19 14) (fw w 13 0))) := by
  unfold rawByMajor
  rw [h]
  rfl

theorem major_0F {w e : Nat} (h : fw w 31 26 = 15) : rawByMajor w e = some (some (.bltn (fw w 25 20) (fw w 19 14) (fw w 13 0))) := by
  unfold rawByMajor
  rw [h]
  rfl

theorem major_10 {w e : Nat} (h : fw w 31 26 = 16) : rawByMajor w e = some (some (.bgen (fw w 25 20) (fw w 19 14) (fw w 13 0))) := by
  unfold rawByMajor
  rw [h]
  rfl

theorem major_11 {w e : Nat} (h : fw w 31 26 = 17) : rawByMajor w e = some (some (.jal (fw w 25 20) (fw w 19 0))) := by
  unfold rawByMajor
  rw [h]
  rfl

theorem major_12 {w e : Nat} (h : fw w 31 26 = 18) : rawByMajor w e = some (some (.jalr (fw w 25 20) (fw w 19 14) (fw w 13 0))) := by
  unfold rawByMajor
  rw [h]
  rfl

theorem major_13 {w e : Nat} (h : fw w 31 26 = 19) : rawByMajor w e = some (rawCtl w) := by
  unfold rawByMajor
  rw [h]
  rfl

theorem major_14 {w e : Nat} (h : fw w 31 26 = 20) : rawByMajor w e = some (some (.ldb (fw w 25 20) (fw w 19 14) (fw w 13 10) (fw w 9 0))) := by
  unfold rawByMajor
  rw [h]
  rfl

theorem major_15 {w e : Nat} (h : fw w 31 26 = 21) : rawByMajor w e = some (some (.ldbn (fw w 25 20) (fw w 19 14) (fw w 13 10) (fw w 9 0))) := by
  unfold rawByMajor
  rw [h]
  rfl

theorem major_16 {w e : Nat} (h : fw w 31 26 = 22) : rawByMajor w e = some (some (.ldh (fw w 25 20) (fw w 19 14) (fw w 13 10) (fw w 9 0))) := by
  unfold rawByMajor
  rw [h]
  rfl

theorem major_17 {w e : Nat} (h : fw w 31 26 = 23) : rawByMajor w e = some (some (.ldhn (fw w 25 20) (fw w 19 14) (fw w 13 10) (fw w 9 0))) := by
  unfold rawByMajor
  rw [h]
  rfl

theorem major_18 {w e : Nat} (h : fw w 31 26 = 24) : rawByMajor w e = some (some (.ldw (fw w 25 20) (fw w 19 14) (fw w 13 10) (fw w 9 0))) := by
  unfold rawByMajor
  rw [h]
  rfl

theorem major_19 {w e : Nat} (h : fw w 31 26 = 25) : rawByMajor w e = some (some (.ldwn (fw w 25 20) (fw w 19 14) (fw w 13 10) (fw w 9 0))) := by
  unfold rawByMajor
  rw [h]
  rfl

theorem major_1A {w e : Nat} (h : fw w 31 26 = 26) : rawByMajor w e = some (some (.ldd (fw w 25 20) (fw w 19 14) (fw w 13 10) (fw w 9 0))) := by
  unfold rawByMajor
  rw [h]
  rfl

theorem major_1B {w e : Nat} (h : fw w 31 26 = 27) : rawByMajor w e = some (some (.stb (fw w 25 20) (fw w 19 14) (fw w 13 10) (fw w 9 0))) := by
  unfold rawByMajor
  rw [h]
  rfl

theorem major_1C {w e : Nat} (h : fw w 31 26 = 28) : rawByMajor w e = some (some (.sth (fw w 25 20) (fw w 19 14) (fw w 13 10) (fw w 9 0))) := by
  unfold rawByMajor
  rw [h]
  rfl

theorem major_1D {w e : Nat} (h : fw w 31 26 = 29) : rawByMajor w e = some (some (.stw (fw w 25 20) (fw w 19 14) (fw w 13 10) (fw w 9 0))) := by
  unfold rawByMajor
  rw [h]
  rfl

theorem major_1E {w e : Nat} (h : fw w 31 26 = 30) : rawByMajor w e = some (some (.std (fw w 25 20) (fw w 19 14) (fw w 13 10) (fw w 9 0))) := by
  unfold rawByMajor
  rw [h]
  rfl

theorem major_1F {w e : Nat} (h : fw w 31 26 = 31) : rawByMajor w e = some (rawLmem w) := by
  unfold rawByMajor
  rw [h]
  rfl

theorem major_20 {w e : Nat} (h : fw w 31 26 = 32) : rawByMajor w e = some (some (.vld (fw w 25 20) (fw w 19 14) (fw w 13 10) (fw w 9 0))) := by
  unfold rawByMajor
  rw [h]
  rfl

theorem major_21 {w e : Nat} (h : fw w 31 26 = 33) : rawByMajor w e = some (some (.vst (fw w 25 20) (fw w 19 14) (fw w 13 10) (fw w 9 0))) := by
  unfold rawByMajor
  rw [h]
  rfl

theorem major_22 {w e : Nat} (h : fw w 31 26 = 34) : rawByMajor w e = some (rawVmem w) := by
  unfold rawByMajor
  rw [h]
  rfl

theorem major_23 {w e : Nat} (h : fw w 31 26 = 35) : rawByMajor w e = some (rawVop w) := by
  unfold rawByMajor
  rw [h]
  rfl

theorem major_24 {w e : Nat} (h : fw w 31 26 = 36) : rawByMajor w e = some (rawVcv w) := by
  unfold rawByMajor
  rw [h]
  rfl

theorem major_25 {w e : Nat} (h : fw w 31 26 = 37) : rawByMajor w e = some (rawTen w) := by
  unfold rawByMajor
  rw [h]
  rfl

theorem major_26 {w e : Nat} (h : fw w 31 26 = 38) : rawByMajor w e = some (rawRes w) := by
  unfold rawByMajor
  rw [h]
  rfl

theorem major_27 {w e : Nat} (h : fw w 31 26 = 39) : rawByMajor w e = some (rawMsg w) := by
  unfold rawByMajor
  rw [h]
  rfl

theorem major_28 {w e : Nat} (h : fw w 31 26 = 40) : rawByMajor w e = some (rawCnt w) := by
  unfold rawByMajor
  rw [h]
  rfl

theorem major_29 {w e : Nat} (h : fw w 31 26 = 41) : rawByMajor w e = some (rawRmem w) := by
  unfold rawByMajor
  rw [h]
  rfl

theorem major_2A {w e : Nat} (h : fw w 31 26 = 42) : rawByMajor w e = some (rawRamo w) := by
  unfold rawByMajor
  rw [h]
  rfl

theorem major_2B {w e : Nat} (h : fw w 31 26 = 43) : rawByMajor w e = some (rawHasp w) := by
  unfold rawByMajor
  rw [h]
  rfl

theorem major_2C {w e : Nat} (h : fw w 31 26 = 44) : rawByMajor w e = some (rawFab w) := by
  unfold rawByMajor
  rw [h]
  rfl

theorem major_38 {w e : Nat} (h : fw w 31 26 = 56) : rawByMajor w e = some (rawSys w) := by
  unfold rawByMajor
  rw [h]
  rfl

theorem major_39 {w e : Nat} (h : fw w 31 26 = 57) : rawByMajor w e = some (rawPriv w) := by
  unfold rawByMajor
  rw [h]
  rfl

theorem major_3C {w e : Nat} (h : fw w 31 26 = 60) : rawByMajor w e = some (rawLten w e) := by
  unfold rawByMajor
  rw [h]
  rfl

theorem major_3D {w e : Nat} (h : fw w 31 26 = 61) : rawByMajor w e = some (rawLcpy w e) := by
  unfold rawByMajor
  rw [h]
  rfl

theorem major_3E {w e : Nat} (h : fw w 31 26 = 62) : rawByMajor w e = some (rawLmsg w e) := by
  unfold rawByMajor
  rw [h]
  rfl

theorem add (d a b : Nat) : Statement (.add d a b) := by
  refine statement_of rfl fun hl => ?_
  replace hl : (isG d && isG a && isG b) = true := hl
  simp only [Bool.and_eq_true] at hl
  obtain ⟨⟨h0, h1⟩, h2⟩ := hl
  have hd := isG_lt h0
  have ha := isG_lt h1
  have hb := isG_lt h2
  generalize hW : 0x04000000 + d * 0x100000 + a * 0x4000 + b * 0x100 = W
  have f0 : fw W 31 26 = 1 := fw_of 0 1 (d * 1048576 + a * 16384 + b * 256) (by omega) (by omega) (by omega)
  have f1 : fw W 25 20 = d := fw_of 1 d (a * 16384 + b * 256) (by omega) (by omega) (by omega)
  have f2 : fw W 19 14 = a := fw_of (d + 64) a (b * 256) (by omega) (by omega) (by omega)
  have f3 : fw W 13 8 = b := fw_of (d * 64 + a + 4096) b 0 (by omega) (by omega) (by omega)
  have f4 : fw W 7 0 = 0 := fw_of (d * 4096 + a * 64 + b + 262144) 0 0 (by omega) (by omega) (by omega)
  rw [major_01 f0]
  simp only [rawInt, rawInt1, f1, f2, f3, f4]
  rfl

theorem sub (d a b : Nat) : Statement (.sub d a b) := by
  refine statement_of rfl fun hl => ?_
  replace hl : (isG d && isG a && isG b) = true := hl
  simp only [Bool.and_eq_true] at hl
  obtain ⟨⟨h0, h1⟩, h2⟩ := hl
  have hd := isG_lt h0
  have ha := isG_lt h1
  have hb := isG_lt h2
  generalize hW : 0x04000001 + d * 0x100000 + a * 0x4000 + b * 0x100 = W
  have f0 : fw W 31 26 = 1 := fw_of 0 1 (d * 1048576 + a * 16384 + b * 256 + 1) (by omega) (by omega) (by omega)
  have f1 : fw W 25 20 = d := fw_of 1 d (a * 16384 + b * 256 + 1) (by omega) (by omega) (by omega)
  have f2 : fw W 19 14 = a := fw_of (d + 64) a (b * 256 + 1) (by omega) (by omega) (by omega)
  have f3 : fw W 13 8 = b := fw_of (d * 64 + a + 4096) b 1 (by omega) (by omega) (by omega)
  have f4 : fw W 7 0 = 1 := fw_of (d * 4096 + a * 64 + b + 262144) 1 0 (by omega) (by omega) (by omega)
  rw [major_01 f0]
  simp only [rawInt, rawInt1, f1, f2, f3, f4]
  rfl

theorem and (d a b : Nat) : Statement (.and d a b) := by
  refine statement_of rfl fun hl => ?_
  replace hl : (isG d && isG a && isG b) = true := hl
  simp only [Bool.and_eq_true] at hl
  obtain ⟨⟨h0, h1⟩, h2⟩ := hl
  have hd := isG_lt h0
  have ha := isG_lt h1
  have hb := isG_lt h2
  generalize hW : 0x04000002 + d * 0x100000 + a * 0x4000 + b * 0x100 = W
  have f0 : fw W 31 26 = 1 := fw_of 0 1 (d * 1048576 + a * 16384 + b * 256 + 2) (by omega) (by omega) (by omega)
  have f1 : fw W 25 20 = d := fw_of 1 d (a * 16384 + b * 256 + 2) (by omega) (by omega) (by omega)
  have f2 : fw W 19 14 = a := fw_of (d + 64) a (b * 256 + 2) (by omega) (by omega) (by omega)
  have f3 : fw W 13 8 = b := fw_of (d * 64 + a + 4096) b 2 (by omega) (by omega) (by omega)
  have f4 : fw W 7 0 = 2 := fw_of (d * 4096 + a * 64 + b + 262144) 2 0 (by omega) (by omega) (by omega)
  rw [major_01 f0]
  simp only [rawInt, rawInt1, f1, f2, f3, f4]
  rfl

theorem or (d a b : Nat) : Statement (.or d a b) := by
  refine statement_of rfl fun hl => ?_
  replace hl : (isG d && isG a && isG b) = true := hl
  simp only [Bool.and_eq_true] at hl
  obtain ⟨⟨h0, h1⟩, h2⟩ := hl
  have hd := isG_lt h0
  have ha := isG_lt h1
  have hb := isG_lt h2
  generalize hW : 0x04000003 + d * 0x100000 + a * 0x4000 + b * 0x100 = W
  have f0 : fw W 31 26 = 1 := fw_of 0 1 (d * 1048576 + a * 16384 + b * 256 + 3) (by omega) (by omega) (by omega)
  have f1 : fw W 25 20 = d := fw_of 1 d (a * 16384 + b * 256 + 3) (by omega) (by omega) (by omega)
  have f2 : fw W 19 14 = a := fw_of (d + 64) a (b * 256 + 3) (by omega) (by omega) (by omega)
  have f3 : fw W 13 8 = b := fw_of (d * 64 + a + 4096) b 3 (by omega) (by omega) (by omega)
  have f4 : fw W 7 0 = 3 := fw_of (d * 4096 + a * 64 + b + 262144) 3 0 (by omega) (by omega) (by omega)
  rw [major_01 f0]
  simp only [rawInt, rawInt1, f1, f2, f3, f4]
  rfl

theorem xor (d a b : Nat) : Statement (.xor d a b) := by
  refine statement_of rfl fun hl => ?_
  replace hl : (isG d && isG a && isG b) = true := hl
  simp only [Bool.and_eq_true] at hl
  obtain ⟨⟨h0, h1⟩, h2⟩ := hl
  have hd := isG_lt h0
  have ha := isG_lt h1
  have hb := isG_lt h2
  generalize hW : 0x04000004 + d * 0x100000 + a * 0x4000 + b * 0x100 = W
  have f0 : fw W 31 26 = 1 := fw_of 0 1 (d * 1048576 + a * 16384 + b * 256 + 4) (by omega) (by omega) (by omega)
  have f1 : fw W 25 20 = d := fw_of 1 d (a * 16384 + b * 256 + 4) (by omega) (by omega) (by omega)
  have f2 : fw W 19 14 = a := fw_of (d + 64) a (b * 256 + 4) (by omega) (by omega) (by omega)
  have f3 : fw W 13 8 = b := fw_of (d * 64 + a + 4096) b 4 (by omega) (by omega) (by omega)
  have f4 : fw W 7 0 = 4 := fw_of (d * 4096 + a * 64 + b + 262144) 4 0 (by omega) (by omega) (by omega)
  rw [major_01 f0]
  simp only [rawInt, rawInt1, f1, f2, f3, f4]
  rfl

theorem andn (d a b : Nat) : Statement (.andn d a b) := by
  refine statement_of rfl fun hl => ?_
  replace hl : (isG d && isG a && isG b) = true := hl
  simp only [Bool.and_eq_true] at hl
  obtain ⟨⟨h0, h1⟩, h2⟩ := hl
  have hd := isG_lt h0
  have ha := isG_lt h1
  have hb := isG_lt h2
  generalize hW : 0x04000005 + d * 0x100000 + a * 0x4000 + b * 0x100 = W
  have f0 : fw W 31 26 = 1 := fw_of 0 1 (d * 1048576 + a * 16384 + b * 256 + 5) (by omega) (by omega) (by omega)
  have f1 : fw W 25 20 = d := fw_of 1 d (a * 16384 + b * 256 + 5) (by omega) (by omega) (by omega)
  have f2 : fw W 19 14 = a := fw_of (d + 64) a (b * 256 + 5) (by omega) (by omega) (by omega)
  have f3 : fw W 13 8 = b := fw_of (d * 64 + a + 4096) b 5 (by omega) (by omega) (by omega)
  have f4 : fw W 7 0 = 5 := fw_of (d * 4096 + a * 64 + b + 262144) 5 0 (by omega) (by omega) (by omega)
  rw [major_01 f0]
  simp only [rawInt, rawInt1, f1, f2, f3, f4]
  rfl

theorem shl (d a b : Nat) : Statement (.shl d a b) := by
  refine statement_of rfl fun hl => ?_
  replace hl : (isG d && isG a && isG b) = true := hl
  simp only [Bool.and_eq_true] at hl
  obtain ⟨⟨h0, h1⟩, h2⟩ := hl
  have hd := isG_lt h0
  have ha := isG_lt h1
  have hb := isG_lt h2
  generalize hW : 0x04000008 + d * 0x100000 + a * 0x4000 + b * 0x100 = W
  have f0 : fw W 31 26 = 1 := fw_of 0 1 (d * 1048576 + a * 16384 + b * 256 + 8) (by omega) (by omega) (by omega)
  have f1 : fw W 25 20 = d := fw_of 1 d (a * 16384 + b * 256 + 8) (by omega) (by omega) (by omega)
  have f2 : fw W 19 14 = a := fw_of (d + 64) a (b * 256 + 8) (by omega) (by omega) (by omega)
  have f3 : fw W 13 8 = b := fw_of (d * 64 + a + 4096) b 8 (by omega) (by omega) (by omega)
  have f4 : fw W 7 0 = 8 := fw_of (d * 4096 + a * 64 + b + 262144) 8 0 (by omega) (by omega) (by omega)
  rw [major_01 f0]
  simp only [rawInt, rawInt1, f1, f2, f3, f4]
  rfl

theorem shr (d a b : Nat) : Statement (.shr d a b) := by
  refine statement_of rfl fun hl => ?_
  replace hl : (isG d && isG a && isG b) = true := hl
  simp only [Bool.and_eq_true] at hl
  obtain ⟨⟨h0, h1⟩, h2⟩ := hl
  have hd := isG_lt h0
  have ha := isG_lt h1
  have hb := isG_lt h2
  generalize hW : 0x04000009 + d * 0x100000 + a * 0x4000 + b * 0x100 = W
  have f0 : fw W 31 26 = 1 := fw_of 0 1 (d * 1048576 + a * 16384 + b * 256 + 9) (by omega) (by omega) (by omega)
  have f1 : fw W 25 20 = d := fw_of 1 d (a * 16384 + b * 256 + 9) (by omega) (by omega) (by omega)
  have f2 : fw W 19 14 = a := fw_of (d + 64) a (b * 256 + 9) (by omega) (by omega) (by omega)
  have f3 : fw W 13 8 = b := fw_of (d * 64 + a + 4096) b 9 (by omega) (by omega) (by omega)
  have f4 : fw W 7 0 = 9 := fw_of (d * 4096 + a * 64 + b + 262144) 9 0 (by omega) (by omega) (by omega)
  rw [major_01 f0]
  simp only [rawInt, rawInt1, f1, f2, f3, f4]
  rfl

theorem sar (d a b : Nat) : Statement (.sar d a b) := by
  refine statement_of rfl fun hl => ?_
  replace hl : (isG d && isG a && isG b) = true := hl
  simp only [Bool.and_eq_true] at hl
  obtain ⟨⟨h0, h1⟩, h2⟩ := hl
  have hd := isG_lt h0
  have ha := isG_lt h1
  have hb := isG_lt h2
  generalize hW : 0x0400000A + d * 0x100000 + a * 0x4000 + b * 0x100 = W
  have f0 : fw W 31 26 = 1 := fw_of 0 1 (d * 1048576 + a * 16384 + b * 256 + 10) (by omega) (by omega) (by omega)
  have f1 : fw W 25 20 = d := fw_of 1 d (a * 16384 + b * 256 + 10) (by omega) (by omega) (by omega)
  have f2 : fw W 19 14 = a := fw_of (d + 64) a (b * 256 + 10) (by omega) (by omega) (by omega)
  have f3 : fw W 13 8 = b := fw_of (d * 64 + a + 4096) b 10 (by omega) (by omega) (by omega)
  have f4 : fw W 7 0 = 10 := fw_of (d * 4096 + a * 64 + b + 262144) 10 0 (by omega) (by omega) (by omega)
  rw [major_01 f0]
  simp only [rawInt, rawInt1, f1, f2, f3, f4]
  rfl

theorem rol (d a b : Nat) : Statement (.rol d a b) := by
  refine statement_of rfl fun hl => ?_
  replace hl : (isG d && isG a && isG b) = true := hl
  simp only [Bool.and_eq_true] at hl
  obtain ⟨⟨h0, h1⟩, h2⟩ := hl
  have hd := isG_lt h0
  have ha := isG_lt h1
  have hb := isG_lt h2
  generalize hW : 0x0400000B + d * 0x100000 + a * 0x4000 + b * 0x100 = W
  have f0 : fw W 31 26 = 1 := fw_of 0 1 (d * 1048576 + a * 16384 + b * 256 + 11) (by omega) (by omega) (by omega)
  have f1 : fw W 25 20 = d := fw_of 1 d (a * 16384 + b * 256 + 11) (by omega) (by omega) (by omega)
  have f2 : fw W 19 14 = a := fw_of (d + 64) a (b * 256 + 11) (by omega) (by omega) (by omega)
  have f3 : fw W 13 8 = b := fw_of (d * 64 + a + 4096) b 11 (by omega) (by omega) (by omega)
  have f4 : fw W 7 0 = 11 := fw_of (d * 4096 + a * 64 + b + 262144) 11 0 (by omega) (by omega) (by omega)
  rw [major_01 f0]
  simp only [rawInt, rawInt1, f1, f2, f3, f4]
  rfl

theorem mul (d a b : Nat) : Statement (.mul d a b) := by
  refine statement_of rfl fun hl => ?_
  replace hl : (isG d && isG a && isG b) = true := hl
  simp only [Bool.and_eq_true] at hl
  obtain ⟨⟨h0, h1⟩, h2⟩ := hl
  have hd := isG_lt h0
  have ha := isG_lt h1
  have hb := isG_lt h2
  generalize hW : 0x04000010 + d * 0x100000 + a * 0x4000 + b * 0x100 = W
  have f0 : fw W 31 26 = 1 := fw_of 0 1 (d * 1048576 + a * 16384 + b * 256 + 16) (by omega) (by omega) (by omega)
  have f1 : fw W 25 20 = d := fw_of 1 d (a * 16384 + b * 256 + 16) (by omega) (by omega) (by omega)
  have f2 : fw W 19 14 = a := fw_of (d + 64) a (b * 256 + 16) (by omega) (by omega) (by omega)
  have f3 : fw W 13 8 = b := fw_of (d * 64 + a + 4096) b 16 (by omega) (by omega) (by omega)
  have f4 : fw W 7 0 = 16 := fw_of (d * 4096 + a * 64 + b + 262144) 16 0 (by omega) (by omega) (by omega)
  rw [major_01 f0]
  simp only [rawInt, rawInt1, f1, f2, f3, f4]
  rfl

theorem mulh (d a b : Nat) : Statement (.mulh d a b) := by
  refine statement_of rfl fun hl => ?_
  replace hl : (isG d && isG a && isG b) = true := hl
  simp only [Bool.and_eq_true] at hl
  obtain ⟨⟨h0, h1⟩, h2⟩ := hl
  have hd := isG_lt h0
  have ha := isG_lt h1
  have hb := isG_lt h2
  generalize hW : 0x04000011 + d * 0x100000 + a * 0x4000 + b * 0x100 = W
  have f0 : fw W 31 26 = 1 := fw_of 0 1 (d * 1048576 + a * 16384 + b * 256 + 17) (by omega) (by omega) (by omega)
  have f1 : fw W 25 20 = d := fw_of 1 d (a * 16384 + b * 256 + 17) (by omega) (by omega) (by omega)
  have f2 : fw W 19 14 = a := fw_of (d + 64) a (b * 256 + 17) (by omega) (by omega) (by omega)
  have f3 : fw W 13 8 = b := fw_of (d * 64 + a + 4096) b 17 (by omega) (by omega) (by omega)
  have f4 : fw W 7 0 = 17 := fw_of (d * 4096 + a * 64 + b + 262144) 17 0 (by omega) (by omega) (by omega)
  rw [major_01 f0]
  simp only [rawInt, rawInt1, f1, f2, f3, f4]
  rfl

theorem mulhn (d a b : Nat) : Statement (.mulhn d a b) := by
  refine statement_of rfl fun hl => ?_
  replace hl : (isG d && isG a && isG b) = true := hl
  simp only [Bool.and_eq_true] at hl
  obtain ⟨⟨h0, h1⟩, h2⟩ := hl
  have hd := isG_lt h0
  have ha := isG_lt h1
  have hb := isG_lt h2
  generalize hW : 0x04000012 + d * 0x100000 + a * 0x4000 + b * 0x100 = W
  have f0 : fw W 31 26 = 1 := fw_of 0 1 (d * 1048576 + a * 16384 + b * 256 + 18) (by omega) (by omega) (by omega)
  have f1 : fw W 25 20 = d := fw_of 1 d (a * 16384 + b * 256 + 18) (by omega) (by omega) (by omega)
  have f2 : fw W 19 14 = a := fw_of (d + 64) a (b * 256 + 18) (by omega) (by omega) (by omega)
  have f3 : fw W 13 8 = b := fw_of (d * 64 + a + 4096) b 18 (by omega) (by omega) (by omega)
  have f4 : fw W 7 0 = 18 := fw_of (d * 4096 + a * 64 + b + 262144) 18 0 (by omega) (by omega) (by omega)
  rw [major_01 f0]
  simp only [rawInt, rawInt1, f1, f2, f3, f4]
  rfl

theorem div (d a b : Nat) : Statement (.div d a b) := by
  refine statement_of rfl fun hl => ?_
  replace hl : (isG d && isG a && isG b) = true := hl
  simp only [Bool.and_eq_true] at hl
  obtain ⟨⟨h0, h1⟩, h2⟩ := hl
  have hd := isG_lt h0
  have ha := isG_lt h1
  have hb := isG_lt h2
  generalize hW : 0x04000014 + d * 0x100000 + a * 0x4000 + b * 0x100 = W
  have f0 : fw W 31 26 = 1 := fw_of 0 1 (d * 1048576 + a * 16384 + b * 256 + 20) (by omega) (by omega) (by omega)
  have f1 : fw W 25 20 = d := fw_of 1 d (a * 16384 + b * 256 + 20) (by omega) (by omega) (by omega)
  have f2 : fw W 19 14 = a := fw_of (d + 64) a (b * 256 + 20) (by omega) (by omega) (by omega)
  have f3 : fw W 13 8 = b := fw_of (d * 64 + a + 4096) b 20 (by omega) (by omega) (by omega)
  have f4 : fw W 7 0 = 20 := fw_of (d * 4096 + a * 64 + b + 262144) 20 0 (by omega) (by omega) (by omega)
  rw [major_01 f0]
  simp only [rawInt, rawInt1, f1, f2, f3, f4]
  rfl

theorem divn (d a b : Nat) : Statement (.divn d a b) := by
  refine statement_of rfl fun hl => ?_
  replace hl : (isG d && isG a && isG b) = true := hl
  simp only [Bool.and_eq_true] at hl
  obtain ⟨⟨h0, h1⟩, h2⟩ := hl
  have hd := isG_lt h0
  have ha := isG_lt h1
  have hb := isG_lt h2
  generalize hW : 0x04000015 + d * 0x100000 + a * 0x4000 + b * 0x100 = W
  have f0 : fw W 31 26 = 1 := fw_of 0 1 (d * 1048576 + a * 16384 + b * 256 + 21) (by omega) (by omega) (by omega)
  have f1 : fw W 25 20 = d := fw_of 1 d (a * 16384 + b * 256 + 21) (by omega) (by omega) (by omega)
  have f2 : fw W 19 14 = a := fw_of (d + 64) a (b * 256 + 21) (by omega) (by omega) (by omega)
  have f3 : fw W 13 8 = b := fw_of (d * 64 + a + 4096) b 21 (by omega) (by omega) (by omega)
  have f4 : fw W 7 0 = 21 := fw_of (d * 4096 + a * 64 + b + 262144) 21 0 (by omega) (by omega) (by omega)
  rw [major_01 f0]
  simp only [rawInt, rawInt1, f1, f2, f3, f4]
  rfl

theorem rem (d a b : Nat) : Statement (.rem d a b) := by
  refine statement_of rfl fun hl => ?_
  replace hl : (isG d && isG a && isG b) = true := hl
  simp only [Bool.and_eq_true] at hl
  obtain ⟨⟨h0, h1⟩, h2⟩ := hl
  have hd := isG_lt h0
  have ha := isG_lt h1
  have hb := isG_lt h2
  generalize hW : 0x04000016 + d * 0x100000 + a * 0x4000 + b * 0x100 = W
  have f0 : fw W 31 26 = 1 := fw_of 0 1 (d * 1048576 + a * 16384 + b * 256 + 22) (by omega) (by omega) (by omega)
  have f1 : fw W 25 20 = d := fw_of 1 d (a * 16384 + b * 256 + 22) (by omega) (by omega) (by omega)
  have f2 : fw W 19 14 = a := fw_of (d + 64) a (b * 256 + 22) (by omega) (by omega) (by omega)
  have f3 : fw W 13 8 = b := fw_of (d * 64 + a + 4096) b 22 (by omega) (by omega) (by omega)
  have f4 : fw W 7 0 = 22 := fw_of (d * 4096 + a * 64 + b + 262144) 22 0 (by omega) (by omega) (by omega)
  rw [major_01 f0]
  simp only [rawInt, rawInt1, f1, f2, f3, f4]
  rfl

theorem remn (d a b : Nat) : Statement (.remn d a b) := by
  refine statement_of rfl fun hl => ?_
  replace hl : (isG d && isG a && isG b) = true := hl
  simp only [Bool.and_eq_true] at hl
  obtain ⟨⟨h0, h1⟩, h2⟩ := hl
  have hd := isG_lt h0
  have ha := isG_lt h1
  have hb := isG_lt h2
  generalize hW : 0x04000017 + d * 0x100000 + a * 0x4000 + b * 0x100 = W
  have f0 : fw W 31 26 = 1 := fw_of 0 1 (d * 1048576 + a * 16384 + b * 256 + 23) (by omega) (by omega) (by omega)
  have f1 : fw W 25 20 = d := fw_of 1 d (a * 16384 + b * 256 + 23) (by omega) (by omega) (by omega)
  have f2 : fw W 19 14 = a := fw_of (d + 64) a (b * 256 + 23) (by omega) (by omega) (by omega)
  have f3 : fw W 13 8 = b := fw_of (d * 64 + a + 4096) b 23 (by omega) (by omega) (by omega)
  have f4 : fw W 7 0 = 23 := fw_of (d * 4096 + a * 64 + b + 262144) 23 0 (by omega) (by omega) (by omega)
  rw [major_01 f0]
  simp only [rawInt, rawInt1, rawInt2, f1, f2, f3, f4]
  rfl

theorem min (d a b : Nat) : Statement (.min d a b) := by
  refine statement_of rfl fun hl => ?_
  replace hl : (isG d && isG a && isG b) = true := hl
  simp only [Bool.and_eq_true] at hl
  obtain ⟨⟨h0, h1⟩, h2⟩ := hl
  have hd := isG_lt h0
  have ha := isG_lt h1
  have hb := isG_lt h2
  generalize hW : 0x04000018 + d * 0x100000 + a * 0x4000 + b * 0x100 = W
  have f0 : fw W 31 26 = 1 := fw_of 0 1 (d * 1048576 + a * 16384 + b * 256 + 24) (by omega) (by omega) (by omega)
  have f1 : fw W 25 20 = d := fw_of 1 d (a * 16384 + b * 256 + 24) (by omega) (by omega) (by omega)
  have f2 : fw W 19 14 = a := fw_of (d + 64) a (b * 256 + 24) (by omega) (by omega) (by omega)
  have f3 : fw W 13 8 = b := fw_of (d * 64 + a + 4096) b 24 (by omega) (by omega) (by omega)
  have f4 : fw W 7 0 = 24 := fw_of (d * 4096 + a * 64 + b + 262144) 24 0 (by omega) (by omega) (by omega)
  rw [major_01 f0]
  simp only [rawInt, rawInt1, rawInt2, f1, f2, f3, f4]
  rfl

theorem max (d a b : Nat) : Statement (.max d a b) := by
  refine statement_of rfl fun hl => ?_
  replace hl : (isG d && isG a && isG b) = true := hl
  simp only [Bool.and_eq_true] at hl
  obtain ⟨⟨h0, h1⟩, h2⟩ := hl
  have hd := isG_lt h0
  have ha := isG_lt h1
  have hb := isG_lt h2
  generalize hW : 0x04000019 + d * 0x100000 + a * 0x4000 + b * 0x100 = W
  have f0 : fw W 31 26 = 1 := fw_of 0 1 (d * 1048576 + a * 16384 + b * 256 + 25) (by omega) (by omega) (by omega)
  have f1 : fw W 25 20 = d := fw_of 1 d (a * 16384 + b * 256 + 25) (by omega) (by omega) (by omega)
  have f2 : fw W 19 14 = a := fw_of (d + 64) a (b * 256 + 25) (by omega) (by omega) (by omega)
  have f3 : fw W 13 8 = b := fw_of (d * 64 + a + 4096) b 25 (by omega) (by omega) (by omega)
  have f4 : fw W 7 0 = 25 := fw_of (d * 4096 + a * 64 + b + 262144) 25 0 (by omega) (by omega) (by omega)
  rw [major_01 f0]
  simp only [rawInt, rawInt1, rawInt2, f1, f2, f3, f4]
  rfl

theorem minn (d a b : Nat) : Statement (.minn d a b) := by
  refine statement_of rfl fun hl => ?_
  replace hl : (isG d && isG a && isG b) = true := hl
  simp only [Bool.and_eq_true] at hl
  obtain ⟨⟨h0, h1⟩, h2⟩ := hl
  have hd := isG_lt h0
  have ha := isG_lt h1
  have hb := isG_lt h2
  generalize hW : 0x0400001A + d * 0x100000 + a * 0x4000 + b * 0x100 = W
  have f0 : fw W 31 26 = 1 := fw_of 0 1 (d * 1048576 + a * 16384 + b * 256 + 26) (by omega) (by omega) (by omega)
  have f1 : fw W 25 20 = d := fw_of 1 d (a * 16384 + b * 256 + 26) (by omega) (by omega) (by omega)
  have f2 : fw W 19 14 = a := fw_of (d + 64) a (b * 256 + 26) (by omega) (by omega) (by omega)
  have f3 : fw W 13 8 = b := fw_of (d * 64 + a + 4096) b 26 (by omega) (by omega) (by omega)
  have f4 : fw W 7 0 = 26 := fw_of (d * 4096 + a * 64 + b + 262144) 26 0 (by omega) (by omega) (by omega)
  rw [major_01 f0]
  simp only [rawInt, rawInt1, rawInt2, f1, f2, f3, f4]
  rfl

theorem maxn (d a b : Nat) : Statement (.maxn d a b) := by
  refine statement_of rfl fun hl => ?_
  replace hl : (isG d && isG a && isG b) = true := hl
  simp only [Bool.and_eq_true] at hl
  obtain ⟨⟨h0, h1⟩, h2⟩ := hl
  have hd := isG_lt h0
  have ha := isG_lt h1
  have hb := isG_lt h2
  generalize hW : 0x0400001B + d * 0x100000 + a * 0x4000 + b * 0x100 = W
  have f0 : fw W 31 26 = 1 := fw_of 0 1 (d * 1048576 + a * 16384 + b * 256 + 27) (by omega) (by omega) (by omega)
  have f1 : fw W 25 20 = d := fw_of 1 d (a * 16384 + b * 256 + 27) (by omega) (by omega) (by omega)
  have f2 : fw W 19 14 = a := fw_of (d + 64) a (b * 256 + 27) (by omega) (by omega) (by omega)
  have f3 : fw W 13 8 = b := fw_of (d * 64 + a + 4096) b 27 (by omega) (by omega) (by omega)
  have f4 : fw W 7 0 = 27 := fw_of (d * 4096 + a * 64 + b + 262144) 27 0 (by omega) (by omega) (by omega)
  rw [major_01 f0]
  simp only [rawInt, rawInt1, rawInt2, f1, f2, f3, f4]
  rfl

theorem slt (d a b : Nat) : Statement (.slt d a b) := by
  refine statement_of rfl fun hl => ?_
  replace hl : (isG d && isG a && isG b) = true := hl
  simp only [Bool.and_eq_true] at hl
  obtain ⟨⟨h0, h1⟩, h2⟩ := hl
  have hd := isG_lt h0
  have ha := isG_lt h1
  have hb := isG_lt h2
  generalize hW : 0x04000020 + d * 0x100000 + a * 0x4000 + b * 0x100 = W
  have f0 : fw W 31 26 = 1 := fw_of 0 1 (d * 1048576 + a * 16384 + b * 256 + 32) (by omega) (by omega) (by omega)
  have f1 : fw W 25 20 = d := fw_of 1 d (a * 16384 + b * 256 + 32) (by omega) (by omega) (by omega)
  have f2 : fw W 19 14 = a := fw_of (d + 64) a (b * 256 + 32) (by omega) (by omega) (by omega)
  have f3 : fw W 13 8 = b := fw_of (d * 64 + a + 4096) b 32 (by omega) (by omega) (by omega)
  have f4 : fw W 7 0 = 32 := fw_of (d * 4096 + a * 64 + b + 262144) 32 0 (by omega) (by omega) (by omega)
  rw [major_01 f0]
  simp only [rawInt, rawInt1, rawInt2, f1, f2, f3, f4]
  rfl

theorem sltn (d a b : Nat) : Statement (.sltn d a b) := by
  refine statement_of rfl fun hl => ?_
  replace hl : (isG d && isG a && isG b) = true := hl
  simp only [Bool.and_eq_true] at hl
  obtain ⟨⟨h0, h1⟩, h2⟩ := hl
  have hd := isG_lt h0
  have ha := isG_lt h1
  have hb := isG_lt h2
  generalize hW : 0x04000021 + d * 0x100000 + a * 0x4000 + b * 0x100 = W
  have f0 : fw W 31 26 = 1 := fw_of 0 1 (d * 1048576 + a * 16384 + b * 256 + 33) (by omega) (by omega) (by omega)
  have f1 : fw W 25 20 = d := fw_of 1 d (a * 16384 + b * 256 + 33) (by omega) (by omega) (by omega)
  have f2 : fw W 19 14 = a := fw_of (d + 64) a (b * 256 + 33) (by omega) (by omega) (by omega)
  have f3 : fw W 13 8 = b := fw_of (d * 64 + a + 4096) b 33 (by omega) (by omega) (by omega)
  have f4 : fw W 7 0 = 33 := fw_of (d * 4096 + a * 64 + b + 262144) 33 0 (by omega) (by omega) (by omega)
  rw [major_01 f0]
  simp only [rawInt, rawInt1, rawInt2, f1, f2, f3, f4]
  rfl

theorem seq (d a b : Nat) : Statement (.seq d a b) := by
  refine statement_of rfl fun hl => ?_
  replace hl : (isG d && isG a && isG b) = true := hl
  simp only [Bool.and_eq_true] at hl
  obtain ⟨⟨h0, h1⟩, h2⟩ := hl
  have hd := isG_lt h0
  have ha := isG_lt h1
  have hb := isG_lt h2
  generalize hW : 0x04000022 + d * 0x100000 + a * 0x4000 + b * 0x100 = W
  have f0 : fw W 31 26 = 1 := fw_of 0 1 (d * 1048576 + a * 16384 + b * 256 + 34) (by omega) (by omega) (by omega)
  have f1 : fw W 25 20 = d := fw_of 1 d (a * 16384 + b * 256 + 34) (by omega) (by omega) (by omega)
  have f2 : fw W 19 14 = a := fw_of (d + 64) a (b * 256 + 34) (by omega) (by omega) (by omega)
  have f3 : fw W 13 8 = b := fw_of (d * 64 + a + 4096) b 34 (by omega) (by omega) (by omega)
  have f4 : fw W 7 0 = 34 := fw_of (d * 4096 + a * 64 + b + 262144) 34 0 (by omega) (by omega) (by omega)
  rw [major_01 f0]
  simp only [rawInt, rawInt1, rawInt2, f1, f2, f3, f4]
  rfl

theorem sel (d a b : Nat) : Statement (.sel d a b) := by
  refine statement_of rfl fun hl => ?_
  replace hl : (isG d && isG a && isG b) = true := hl
  simp only [Bool.and_eq_true] at hl
  obtain ⟨⟨h0, h1⟩, h2⟩ := hl
  have hd := isG_lt h0
  have ha := isG_lt h1
  have hb := isG_lt h2
  generalize hW : 0x04000023 + d * 0x100000 + a * 0x4000 + b * 0x100 = W
  have f0 : fw W 31 26 = 1 := fw_of 0 1 (d * 1048576 + a * 16384 + b * 256 + 35) (by omega) (by omega) (by omega)
  have f1 : fw W 25 20 = d := fw_of 1 d (a * 16384 + b * 256 + 35) (by omega) (by omega) (by omega)
  have f2 : fw W 19 14 = a := fw_of (d + 64) a (b * 256 + 35) (by omega) (by omega) (by omega)
  have f3 : fw W 13 8 = b := fw_of (d * 64 + a + 4096) b 35 (by omega) (by omega) (by omega)
  have f4 : fw W 7 0 = 35 := fw_of (d * 4096 + a * 64 + b + 262144) 35 0 (by omega) (by omega) (by omega)
  rw [major_01 f0]
  simp only [rawInt, rawInt1, rawInt2, f1, f2, f3, f4]
  rfl

theorem clz (d a : Nat) : Statement (.clz d a) := by
  refine statement_of rfl fun hl => ?_
  replace hl : (isG d && isG a) = true := hl
  simp only [Bool.and_eq_true] at hl
  obtain ⟨h0, h1⟩ := hl
  have hd := isG_lt h0
  have ha := isG_lt h1
  generalize hW : 0x04000028 + d * 0x100000 + a * 0x4000 = W
  have f0 : fw W 31 26 = 1 := fw_of 0 1 (d * 1048576 + a * 16384 + 40) (by omega) (by omega) (by omega)
  have f1 : fw W 25 20 = d := fw_of 1 d (a * 16384 + 40) (by omega) (by omega) (by omega)
  have f2 : fw W 19 14 = a := fw_of (d + 64) a 40 (by omega) (by omega) (by omega)
  have f3 : fw W 7 0 = 40 := fw_of (d * 4096 + a * 64 + 262144) 40 0 (by omega) (by omega) (by omega)
  have f4 : fw W 13 0 = 40 := fw_of (d * 64 + a + 4096) 40 0 (by omega) (by omega) (by omega)
  rw [major_01 f0]
  simp only [rawInt, rawInt1, rawInt2, f1, f2, f3, f4]
  rfl

theorem ctz (d a : Nat) : Statement (.ctz d a) := by
  refine statement_of rfl fun hl => ?_
  replace hl : (isG d && isG a) = true := hl
  simp only [Bool.and_eq_true] at hl
  obtain ⟨h0, h1⟩ := hl
  have hd := isG_lt h0
  have ha := isG_lt h1
  generalize hW : 0x04000029 + d * 0x100000 + a * 0x4000 = W
  have f0 : fw W 31 26 = 1 := fw_of 0 1 (d * 1048576 + a * 16384 + 41) (by omega) (by omega) (by omega)
  have f1 : fw W 25 20 = d := fw_of 1 d (a * 16384 + 41) (by omega) (by omega) (by omega)
  have f2 : fw W 19 14 = a := fw_of (d + 64) a 41 (by omega) (by omega) (by omega)
  have f3 : fw W 7 0 = 41 := fw_of (d * 4096 + a * 64 + 262144) 41 0 (by omega) (by omega) (by omega)
  have f4 : fw W 13 0 = 41 := fw_of (d * 64 + a + 4096) 41 0 (by omega) (by omega) (by omega)
  rw [major_01 f0]
  simp only [rawInt, rawInt1, rawInt2, f1, f2, f3, f4]
  rfl

theorem popc (d a : Nat) : Statement (.popc d a) := by
  refine statement_of rfl fun hl => ?_
  replace hl : (isG d && isG a) = true := hl
  simp only [Bool.and_eq_true] at hl
  obtain ⟨h0, h1⟩ := hl
  have hd := isG_lt h0
  have ha := isG_lt h1
  generalize hW : 0x0400002A + d * 0x100000 + a * 0x4000 = W
  have f0 : fw W 31 26 = 1 := fw_of 0 1 (d * 1048576 + a * 16384 + 42) (by omega) (by omega) (by omega)
  have f1 : fw W 25 20 = d := fw_of 1 d (a * 16384 + 42) (by omega) (by omega) (by omega)
  have f2 : fw W 19 14 = a := fw_of (d + 64) a 42 (by omega) (by omega) (by omega)
  have f3 : fw W 7 0 = 42 := fw_of (d * 4096 + a * 64 + 262144) 42 0 (by omega) (by omega) (by omega)
  have f4 : fw W 13 0 = 42 := fw_of (d * 64 + a + 4096) 42 0 (by omega) (by omega) (by omega)
  rw [major_01 f0]
  simp only [rawInt, rawInt1, rawInt2, f1, f2, f3, f4]
  rfl

theorem bfx (d a b : Nat) : Statement (.bfx d a b) := by
  refine statement_of rfl fun hl => ?_
  replace hl : (isG d && isG a && isG b) = true := hl
  simp only [Bool.and_eq_true] at hl
  obtain ⟨⟨h0, h1⟩, h2⟩ := hl
  have hd := isG_lt h0
  have ha := isG_lt h1
  have hb := isG_lt h2
  generalize hW : 0x04000030 + d * 0x100000 + a * 0x4000 + b * 0x100 = W
  have f0 : fw W 31 26 = 1 := fw_of 0 1 (d * 1048576 + a * 16384 + b * 256 + 48) (by omega) (by omega) (by omega)
  have f1 : fw W 25 20 = d := fw_of 1 d (a * 16384 + b * 256 + 48) (by omega) (by omega) (by omega)
  have f2 : fw W 19 14 = a := fw_of (d + 64) a (b * 256 + 48) (by omega) (by omega) (by omega)
  have f3 : fw W 13 8 = b := fw_of (d * 64 + a + 4096) b 48 (by omega) (by omega) (by omega)
  have f4 : fw W 7 0 = 48 := fw_of (d * 4096 + a * 64 + b + 262144) 48 0 (by omega) (by omega) (by omega)
  have f5 : ¬fw W 13 0 = 40 := by rw [fw_of (d * 64 + a + 4096) (b * 256 + 48) 0 (by omega) (by omega) (by omega)]; omega
  have f6 : ¬fw W 13 0 = 41 := by rw [fw_of (d * 64 + a + 4096) (b * 256 + 48) 0 (by omega) (by omega) (by omega)]; omega
  have f7 : ¬fw W 13 0 = 42 := by rw [fw_of (d * 64 + a + 4096) (b * 256 + 48) 0 (by omega) (by omega) (by omega)]; omega
  rw [major_01 f0]
  simp only [rawInt, rawInt1, rawInt2, f1, f2, f3, f4, f5, f6, f7]
  rfl

theorem bfi (d a b : Nat) : Statement (.bfi d a b) := by
  refine statement_of rfl fun hl => ?_
  replace hl : (isG d && isG a && isG b) = true := hl
  simp only [Bool.and_eq_true] at hl
  obtain ⟨⟨h0, h1⟩, h2⟩ := hl
  have hd := isG_lt h0
  have ha := isG_lt h1
  have hb := isG_lt h2
  generalize hW : 0x04000031 + d * 0x100000 + a * 0x4000 + b * 0x100 = W
  have f0 : fw W 31 26 = 1 := fw_of 0 1 (d * 1048576 + a * 16384 + b * 256 + 49) (by omega) (by omega) (by omega)
  have f1 : fw W 25 20 = d := fw_of 1 d (a * 16384 + b * 256 + 49) (by omega) (by omega) (by omega)
  have f2 : fw W 19 14 = a := fw_of (d + 64) a (b * 256 + 49) (by omega) (by omega) (by omega)
  have f3 : fw W 13 8 = b := fw_of (d * 64 + a + 4096) b 49 (by omega) (by omega) (by omega)
  have f4 : fw W 7 0 = 49 := fw_of (d * 4096 + a * 64 + b + 262144) 49 0 (by omega) (by omega) (by omega)
  have f5 : ¬fw W 13 0 = 40 := by rw [fw_of (d * 64 + a + 4096) (b * 256 + 49) 0 (by omega) (by omega) (by omega)]; omega
  have f6 : ¬fw W 13 0 = 41 := by rw [fw_of (d * 64 + a + 4096) (b * 256 + 49) 0 (by omega) (by omega) (by omega)]; omega
  have f7 : ¬fw W 13 0 = 42 := by rw [fw_of (d * 64 + a + 4096) (b * 256 + 49) 0 (by omega) (by omega) (by omega)]; omega
  rw [major_01 f0]
  simp only [rawInt, rawInt1, rawInt2, f1, f2, f3, f4, f5, f6, f7]
  rfl

theorem addi (d a i : Nat) : Statement (.addi d a i) := by
  refine statement_of rfl fun hl => ?_
  replace hl : (isG d && isG a && below 16384 i) = true := hl
  simp only [Bool.and_eq_true] at hl
  obtain ⟨⟨h0, h1⟩, h2⟩ := hl
  have hd := isG_lt h0
  have ha := isG_lt h1
  have hi := below_lt h2
  generalize hW : 0x08000000 + d * 0x100000 + a * 0x4000 + i = W
  have f0 : fw W 31 26 = 2 := fw_of 0 2 (d * 1048576 + a * 16384 + i) (by omega) (by omega) (by omega)
  have f1 : fw W 25 20 = d := fw_of 2 d (a * 16384 + i) (by omega) (by omega) (by omega)
  have f2 : fw W 19 14 = a := fw_of (d + 128) a i (by omega) (by omega) (by omega)
  have f3 : fw W 13 0 = i := fw_of (d * 64 + a + 8192) i 0 (by omega) (by omega) (by omega)
  rw [major_02 f0, f1, f2, f3]

theorem andi (d a i : Nat) : Statement (.andi d a i) := by
  refine statement_of rfl fun hl => ?_
  replace hl : (isG d && isG a && below 16384 i) = true := hl
  simp only [Bool.and_eq_true] at hl
  obtain ⟨⟨h0, h1⟩, h2⟩ := hl
  have hd := isG_lt h0
  have ha := isG_lt h1
  have hi := below_lt h2
  generalize hW : 0x0C000000 + d * 0x100000 + a * 0x4000 + i = W
  have f0 : fw W 31 26 = 3 := fw_of 0 3 (d * 1048576 + a * 16384 + i) (by omega) (by omega) (by omega)
  have f1 : fw W 25 20 = d := fw_of 3 d (a * 16384 + i) (by omega) (by omega) (by omega)
  have f2 : fw W 19 14 = a := fw_of (d + 192) a i (by omega) (by omega) (by omega)
  have f3 : fw W 13 0 = i := fw_of (d * 64 + a + 12288) i 0 (by omega) (by omega) (by omega)
  rw [major_03 f0, f1, f2, f3]

theorem ori (d a i : Nat) : Statement (.ori d a i) := by
  refine statement_of rfl fun hl => ?_
  replace hl : (isG d && isG a && below 16384 i) = true := hl
  simp only [Bool.and_eq_true] at hl
  obtain ⟨⟨h0, h1⟩, h2⟩ := hl
  have hd := isG_lt h0
  have ha := isG_lt h1
  have hi := below_lt h2
  generalize hW : 0x10000000 + d * 0x100000 + a * 0x4000 + i = W
  have f0 : fw W 31 26 = 4 := fw_of 0 4 (d * 1048576 + a * 16384 + i) (by omega) (by omega) (by omega)
  have f1 : fw W 25 20 = d := fw_of 4 d (a * 16384 + i) (by omega) (by omega) (by omega)
  have f2 : fw W 19 14 = a := fw_of (d + 256) a i (by omega) (by omega) (by omega)
  have f3 : fw W 13 0 = i := fw_of (d * 64 + a + 16384) i 0 (by omega) (by omega) (by omega)
  rw [major_04 f0, f1, f2, f3]

theorem xori (d a i : Nat) : Statement (.xori d a i) := by
  refine statement_of rfl fun hl => ?_
  replace hl : (isG d && isG a && below 16384 i) = true := hl
  simp only [Bool.and_eq_true] at hl
  obtain ⟨⟨h0, h1⟩, h2⟩ := hl
  have hd := isG_lt h0
  have ha := isG_lt h1
  have hi := below_lt h2
  generalize hW : 0x14000000 + d * 0x100000 + a * 0x4000 + i = W
  have f0 : fw W 31 26 = 5 := fw_of 0 5 (d * 1048576 + a * 16384 + i) (by omega) (by omega) (by omega)
  have f1 : fw W 25 20 = d := fw_of 5 d (a * 16384 + i) (by omega) (by omega) (by omega)
  have f2 : fw W 19 14 = a := fw_of (d + 320) a i (by omega) (by omega) (by omega)
  have f3 : fw W 13 0 = i := fw_of (d * 64 + a + 20480) i 0 (by omega) (by omega) (by omega)
  rw [major_05 f0, f1, f2, f3]

theorem shli (d a s : Nat) : Statement (.shli d a s) := by
  refine statement_of rfl fun hl => ?_
  replace hl : (isG d && isG a && below 64 s) = true := hl
  simp only [Bool.and_eq_true] at hl
  obtain ⟨⟨h0, h1⟩, h2⟩ := hl
  have hd := isG_lt h0
  have ha := isG_lt h1
  have hs := below_lt h2
  generalize hW : 0x18000000 + d * 0x100000 + a * 0x4000 + s = W
  have f0 : fw W 31 26 = 6 := fw_of 0 6 (d * 1048576 + a * 16384 + s) (by omega) (by omega) (by omega)
  have f1 : fw W 25 20 = d := fw_of 6 d (a * 16384 + s) (by omega) (by omega) (by omega)
  have f2 : fw W 19 14 = a := fw_of (d + 384) a s (by omega) (by omega) (by omega)
  have f3 : fw W 5 0 = s := fw_of (d * 16384 + a * 256 + 6291456) s 0 (by omega) (by omega) (by omega)
  have f4 : fw W 13 6 = 0 := fw_of (d * 64 + a + 24576) 0 s (by omega) (by omega) (by omega)
  rw [major_06 f0]
  simp only [rawShiftImm, f1, f2, f3, f4]
  rfl

theorem shri (d a s : Nat) : Statement (.shri d a s) := by
  refine statement_of rfl fun hl => ?_
  replace hl : (isG d && isG a && below 64 s) = true := hl
  simp only [Bool.and_eq_true] at hl
  obtain ⟨⟨h0, h1⟩, h2⟩ := hl
  have hd := isG_lt h0
  have ha := isG_lt h1
  have hs := below_lt h2
  generalize hW : 0x18001000 + d * 0x100000 + a * 0x4000 + s = W
  have f0 : fw W 31 26 = 6 := fw_of 0 6 (d * 1048576 + a * 16384 + s + 4096) (by omega) (by omega) (by omega)
  have f1 : fw W 25 20 = d := fw_of 6 d (a * 16384 + s + 4096) (by omega) (by omega) (by omega)
  have f2 : fw W 19 14 = a := fw_of (d + 384) a (s + 4096) (by omega) (by omega) (by omega)
  have f3 : fw W 5 0 = s := fw_of (d * 16384 + a * 256 + 6291520) s 0 (by omega) (by omega) (by omega)
  have f4 : fw W 13 6 = 64 := fw_of (d * 64 + a + 24576) 64 s (by omega) (by omega) (by omega)
  rw [major_06 f0]
  simp only [rawShiftImm, f1, f2, f3, f4]
  rfl

theorem sari (d a s : Nat) : Statement (.sari d a s) := by
  refine statement_of rfl fun hl => ?_
  replace hl : (isG d && isG a && below 64 s) = true := hl
  simp only [Bool.and_eq_true] at hl
  obtain ⟨⟨h0, h1⟩, h2⟩ := hl
  have hd := isG_lt h0
  have ha := isG_lt h1
  have hs := below_lt h2
  generalize hW : 0x18002000 + d * 0x100000 + a * 0x4000 + s = W
  have f0 : fw W 31 26 = 6 := fw_of 0 6 (d * 1048576 + a * 16384 + s + 8192) (by omega) (by omega) (by omega)
  have f1 : fw W 25 20 = d := fw_of 6 d (a * 16384 + s + 8192) (by omega) (by omega) (by omega)
  have f2 : fw W 19 14 = a := fw_of (d + 384) a (s + 8192) (by omega) (by omega) (by omega)
  have f3 : fw W 5 0 = s := fw_of (d * 16384 + a * 256 + 6291584) s 0 (by omega) (by omega) (by omega)
  have f4 : fw W 13 6 = 128 := fw_of (d * 64 + a + 24576) 128 s (by omega) (by omega) (by omega)
  rw [major_06 f0]
  simp only [rawShiftImm, f1, f2, f3, f4]
  rfl

theorem slti (d a i : Nat) : Statement (.slti d a i) := by
  refine statement_of rfl fun hl => ?_
  replace hl : (isG d && isG a && below 16384 i) = true := hl
  simp only [Bool.and_eq_true] at hl
  obtain ⟨⟨h0, h1⟩, h2⟩ := hl
  have hd := isG_lt h0
  have ha := isG_lt h1
  have hi := below_lt h2
  generalize hW : 0x1C000000 + d * 0x100000 + a * 0x4000 + i = W
  have f0 : fw W 31 26 = 7 := fw_of 0 7 (d * 1048576 + a * 16384 + i) (by omega) (by omega) (by omega)
  have f1 : fw W 25 20 = d := fw_of 7 d (a * 16384 + i) (by omega) (by omega) (by omega)
  have f2 : fw W 19 14 = a := fw_of (d + 448) a i (by omega) (by omega) (by omega)
  have f3 : fw W 13 0 = i := fw_of (d * 64 + a + 28672) i 0 (by omega) (by omega) (by omega)
  rw [major_07 f0, f1, f2, f3]

theorem sltin (d a i : Nat) : Statement (.sltin d a i) := by
  refine statement_of rfl fun hl => ?_
  replace hl : (isG d && isG a && below 16384 i) = true := hl
  simp only [Bool.and_eq_true] at hl
  obtain ⟨⟨h0, h1⟩, h2⟩ := hl
  have hd := isG_lt h0
  have ha := isG_lt h1
  have hi := below_lt h2
  generalize hW : 0x20000000 + d * 0x100000 + a * 0x4000 + i = W
  have f0 : fw W 31 26 = 8 := fw_of 0 8 (d * 1048576 + a * 16384 + i) (by omega) (by omega) (by omega)
  have f1 : fw W 25 20 = d := fw_of 8 d (a * 16384 + i) (by omega) (by omega) (by omega)
  have f2 : fw W 19 14 = a := fw_of (d + 512) a i (by omega) (by omega) (by omega)
  have f3 : fw W 13 0 = i := fw_of (d * 64 + a + 32768) i 0 (by omega) (by omega) (by omega)
  rw [major_08 f0, f1, f2, f3]

theorem lui (d i : Nat) : Statement (.lui d i) := by
  refine statement_of rfl fun hl => ?_
  replace hl : (isG d && below 1048576 i) = true := hl
  simp only [Bool.and_eq_true] at hl
  obtain ⟨h0, h1⟩ := hl
  have hd := isG_lt h0
  have hi := below_lt h1
  generalize hW : 0x24000000 + d * 0x100000 + i = W
  have f0 : fw W 31 26 = 9 := fw_of 0 9 (d * 1048576 + i) (by omega) (by omega) (by omega)
  have f1 : fw W 25 20 = d := fw_of 9 d i (by omega) (by omega) (by omega)
  have f2 : fw W 19 0 = i := fw_of (d + 576) i 0 (by omega) (by omega) (by omega)
  rw [major_09 f0, f1, f2]

theorem adrp (d i : Nat) : Statement (.adrp d i) := by
  refine statement_of rfl fun hl => ?_
  replace hl : (isG d && below 1048576 i) = true := hl
  simp only [Bool.and_eq_true] at hl
  obtain ⟨h0, h1⟩ := hl
  have hd := isG_lt h0
  have hi := below_lt h1
  generalize hW : 0x28000000 + d * 0x100000 + i = W
  have f0 : fw W 31 26 = 10 := fw_of 0 10 (d * 1048576 + i) (by omega) (by omega) (by omega)
  have f1 : fw W 25 20 = d := fw_of 10 d i (by omega) (by omega) (by omega)
  have f2 : fw W 19 0 = i := fw_of (d + 640) i 0 (by omega) (by omega) (by omega)
  rw [major_0A f0, f1, f2]

theorem beq (a b o : Nat) : Statement (.beq a b o) := by
  refine statement_of rfl fun hl => ?_
  replace hl : (isG a && isG b && below 16384 o) = true := hl
  simp only [Bool.and_eq_true] at hl
  obtain ⟨⟨h0, h1⟩, h2⟩ := hl
  have ha := isG_lt h0
  have hb := isG_lt h1
  have ho := below_lt h2
  generalize hW : 0x2C000000 + a * 0x100000 + b * 0x4000 + o = W
  have f0 : fw W 31 26 = 11 := fw_of 0 11 (a * 1048576 + b * 16384 + o) (by omega) (by omega) (by omega)
  have f1 : fw W 25 20 = a := fw_of 11 a (b * 16384 + o) (by omega) (by omega) (by omega)
  have f2 : fw W 19 14 = b := fw_of (a + 704) b o (by omega) (by omega) (by omega)
  have f3 : fw W 13 0 = o := fw_of (a * 64 + b + 45056) o 0 (by omega) (by omega) (by omega)
  rw [major_0B f0, f1, f2, f3]

theorem bne (a b o : Nat) : Statement (.bne a b o) := by
  refine statement_of rfl fun hl => ?_
  replace hl : (isG a && isG b && below 16384 o) = true := hl
  simp only [Bool.and_eq_true] at hl
  obtain ⟨⟨h0, h1⟩, h2⟩ := hl
  have ha := isG_lt h0
  have hb := isG_lt h1
  have ho := below_lt h2
  generalize hW : 0x30000000 + a * 0x100000 + b * 0x4000 + o = W
  have f0 : fw W 31 26 = 12 := fw_of 0 12 (a * 1048576 + b * 16384 + o) (by omega) (by omega) (by omega)
  have f1 : fw W 25 20 = a := fw_of 12 a (b * 16384 + o) (by omega) (by omega) (by omega)
  have f2 : fw W 19 14 = b := fw_of (a + 768) b o (by omega) (by omega) (by omega)
  have f3 : fw W 13 0 = o := fw_of (a * 64 + b + 49152) o 0 (by omega) (by omega) (by omega)
  rw [major_0C f0, f1, f2, f3]

theorem blt (a b o : Nat) : Statement (.blt a b o) := by
  refine statement_of rfl fun hl => ?_
  replace hl : (isG a && isG b && below 16384 o) = true := hl
  simp only [Bool.and_eq_true] at hl
  obtain ⟨⟨h0, h1⟩, h2⟩ := hl
  have ha := isG_lt h0
  have hb := isG_lt h1
  have ho := below_lt h2
  generalize hW : 0x34000000 + a * 0x100000 + b * 0x4000 + o = W
  have f0 : fw W 31 26 = 13 := fw_of 0 13 (a * 1048576 + b * 16384 + o) (by omega) (by omega) (by omega)
  have f1 : fw W 25 20 = a := fw_of 13 a (b * 16384 + o) (by omega) (by omega) (by omega)
  have f2 : fw W 19 14 = b := fw_of (a + 832) b o (by omega) (by omega) (by omega)
  have f3 : fw W 13 0 = o := fw_of (a * 64 + b + 53248) o 0 (by omega) (by omega) (by omega)
  rw [major_0D f0, f1, f2, f3]

theorem bge (a b o : Nat) : Statement (.bge a b o) := by
  refine statement_of rfl fun hl => ?_
  replace hl : (isG a && isG b && below 16384 o) = true := hl
  simp only [Bool.and_eq_true] at hl
  obtain ⟨⟨h0, h1⟩, h2⟩ := hl
  have ha := isG_lt h0
  have hb := isG_lt h1
  have ho := below_lt h2
  generalize hW : 0x38000000 + a * 0x100000 + b * 0x4000 + o = W
  have f0 : fw W 31 26 = 14 := fw_of 0 14 (a * 1048576 + b * 16384 + o) (by omega) (by omega) (by omega)
  have f1 : fw W 25 20 = a := fw_of 14 a (b * 16384 + o) (by omega) (by omega) (by omega)
  have f2 : fw W 19 14 = b := fw_of (a + 896) b o (by omega) (by omega) (by omega)
  have f3 : fw W 13 0 = o := fw_of (a * 64 + b + 57344) o 0 (by omega) (by omega) (by omega)
  rw [major_0E f0, f1, f2, f3]

theorem bltn (a b o : Nat) : Statement (.bltn a b o) := by
  refine statement_of rfl fun hl => ?_
  replace hl : (isG a && isG b && below 16384 o) = true := hl
  simp only [Bool.and_eq_true] at hl
  obtain ⟨⟨h0, h1⟩, h2⟩ := hl
  have ha := isG_lt h0
  have hb := isG_lt h1
  have ho := below_lt h2
  generalize hW : 0x3C000000 + a * 0x100000 + b * 0x4000 + o = W
  have f0 : fw W 31 26 = 15 := fw_of 0 15 (a * 1048576 + b * 16384 + o) (by omega) (by omega) (by omega)
  have f1 : fw W 25 20 = a := fw_of 15 a (b * 16384 + o) (by omega) (by omega) (by omega)
  have f2 : fw W 19 14 = b := fw_of (a + 960) b o (by omega) (by omega) (by omega)
  have f3 : fw W 13 0 = o := fw_of (a * 64 + b + 61440) o 0 (by omega) (by omega) (by omega)
  rw [major_0F f0, f1, f2, f3]

theorem bgen (a b o : Nat) : Statement (.bgen a b o) := by
  refine statement_of rfl fun hl => ?_
  replace hl : (isG a && isG b && below 16384 o) = true := hl
  simp only [Bool.and_eq_true] at hl
  obtain ⟨⟨h0, h1⟩, h2⟩ := hl
  have ha := isG_lt h0
  have hb := isG_lt h1
  have ho := below_lt h2
  generalize hW : 0x40000000 + a * 0x100000 + b * 0x4000 + o = W
  have f0 : fw W 31 26 = 16 := fw_of 0 16 (a * 1048576 + b * 16384 + o) (by omega) (by omega) (by omega)
  have f1 : fw W 25 20 = a := fw_of 16 a (b * 16384 + o) (by omega) (by omega) (by omega)
  have f2 : fw W 19 14 = b := fw_of (a + 1024) b o (by omega) (by omega) (by omega)
  have f3 : fw W 13 0 = o := fw_of (a * 64 + b + 65536) o 0 (by omega) (by omega) (by omega)
  rw [major_10 f0, f1, f2, f3]

theorem jal (d o : Nat) : Statement (.jal d o) := by
  refine statement_of rfl fun hl => ?_
  replace hl : (isG d && below 1048576 o) = true := hl
  simp only [Bool.and_eq_true] at hl
  obtain ⟨h0, h1⟩ := hl
  have hd := isG_lt h0
  have ho := below_lt h1
  generalize hW : 0x44000000 + d * 0x100000 + o = W
  have f0 : fw W 31 26 = 17 := fw_of 0 17 (d * 1048576 + o) (by omega) (by omega) (by omega)
  have f1 : fw W 25 20 = d := fw_of 17 d o (by omega) (by omega) (by omega)
  have f2 : fw W 19 0 = o := fw_of (d + 1088) o 0 (by omega) (by omega) (by omega)
  rw [major_11 f0, f1, f2]

theorem jalr (d a i : Nat) : Statement (.jalr d a i) := by
  refine statement_of rfl fun hl => ?_
  replace hl : (isG d && isG a && below 16384 i) = true := hl
  simp only [Bool.and_eq_true] at hl
  obtain ⟨⟨h0, h1⟩, h2⟩ := hl
  have hd := isG_lt h0
  have ha := isG_lt h1
  have hi := below_lt h2
  generalize hW : 0x48000000 + d * 0x100000 + a * 0x4000 + i = W
  have f0 : fw W 31 26 = 18 := fw_of 0 18 (d * 1048576 + a * 16384 + i) (by omega) (by omega) (by omega)
  have f1 : fw W 25 20 = d := fw_of 18 d (a * 16384 + i) (by omega) (by omega) (by omega)
  have f2 : fw W 19 14 = a := fw_of (d + 1152) a i (by omega) (by omega) (by omega)
  have f3 : fw W 13 0 = i := fw_of (d * 64 + a + 73728) i 0 (by omega) (by omega) (by omega)
  rw [major_12 f0, f1, f2, f3]

theorem nop : Statement .nop := fun _ => rfl

theorem yield : Statement .yield := fun _ => rfl

theorem exit : Statement .exit := fun _ => rfl

theorem wid (d b : Nat) : Statement (.wid d b) := by
  refine statement_of rfl fun hl => ?_
  replace hl : (isG d && below 7 b) = true := hl
  simp only [Bool.and_eq_true] at hl
  obtain ⟨h0, h1⟩ := hl
  have hd := isG_lt h0
  have hb := below_lt h1
  generalize hW : 0x4C000008 + d * 0x100000 + b * 0x100 = W
  have f0 : fw W 31 26 = 19 := fw_of 0 19 (d * 1048576 + b * 256 + 8) (by omega) (by omega) (by omega)
  have f1 : fw W 25 20 = d := fw_of 19 d (b * 256 + 8) (by omega) (by omega) (by omega)
  have f2 : fw W 13 8 = b := fw_of (d * 64 + 77824) b 8 (by omega) (by omega) (by omega)
  have f3 : ¬fw W 25 0 = 0 := by rw [fw_of 19 (d * 1048576 + b * 256 + 8) 0 (by omega) (by omega) (by omega)]; omega
  have f4 : ¬fw W 25 0 = 1 := by rw [fw_of 19 (d * 1048576 + b * 256 + 8) 0 (by omega) (by omega) (by omega)]; omega
  have f5 : ¬fw W 25 0 = 2 := by rw [fw_of 19 (d * 1048576 + b * 256 + 8) 0 (by omega) (by omega) (by omega)]; omega
  have f6 : fw W 7 0 = 8 := fw_of (d * 4096 + b + 4980736) 8 0 (by omega) (by omega) (by omega)
  have f7 : fw W 19 14 = 0 := fw_of (d + 1216) 0 (b * 256 + 8) (by omega) (by omega) (by omega)
  rw [major_13 f0]
  simp only [rawCtl, f1, f2, f3, f4, f5, f6, f7]
  rfl

theorem time (d : Nat) : Statement (.time d) := by
  refine statement_of rfl fun hl => ?_
  replace hl : (isG d) = true := hl
  have h0 := hl
  have hd := isG_lt h0
  generalize hW : 0x4C000009 + d * 0x100000 = W
  have f0 : fw W 31 26 = 19 := fw_of 0 19 (d * 1048576 + 9) (by omega) (by omega) (by omega)
  have f1 : fw W 25 20 = d := fw_of 19 d 9 (by omega) (by omega) (by omega)
  have f2 : ¬fw W 25 0 = 0 := by rw [fw_of 19 (d * 1048576 + 9) 0 (by omega) (by omega) (by omega)]; omega
  have f3 : ¬fw W 25 0 = 1 := by rw [fw_of 19 (d * 1048576 + 9) 0 (by omega) (by omega) (by omega)]; omega
  have f4 : ¬fw W 25 0 = 2 := by rw [fw_of 19 (d * 1048576 + 9) 0 (by omega) (by omega) (by omega)]; omega
  have f5 : fw W 7 0 = 9 := fw_of (d * 4096 + 4980736) 9 0 (by omega) (by omega) (by omega)
  have f6 : fw W 19 0 = 9 := fw_of (d + 1216) 9 0 (by omega) (by omega) (by omega)
  rw [major_13 f0]
  simp only [rawCtl, f1, f2, f3, f4, f5, f6]
  rfl

theorem ldb (d a s o : Nat) : Statement (.ldb d a s o) := by
  refine statement_of rfl fun hl => ?_
  replace hl : (isG d && isG a && isS s && below 1024 o) = true := hl
  simp only [Bool.and_eq_true] at hl
  obtain ⟨⟨⟨h0, h1⟩, h2⟩, h3⟩ := hl
  have hd := isG_lt h0
  have ha := isG_lt h1
  have hs := isS_lt h2
  have ho := below_lt h3
  generalize hW : 0x50000000 + d * 0x100000 + a * 0x4000 + s * 0x400 + o = W
  have f0 : fw W 31 26 = 20 := fw_of 0 20 (d * 1048576 + a * 16384 + s * 1024 + o) (by omega) (by omega) (by omega)
  have f1 : fw W 25 20 = d := fw_of 20 d (a * 16384 + s * 1024 + o) (by omega) (by omega) (by omega)
  have f2 : fw W 19 14 = a := fw_of (d + 1280) a (s * 1024 + o) (by omega) (by omega) (by omega)
  have f3 : fw W 13 10 = s := fw_of (d * 64 + a + 81920) s o (by omega) (by omega) (by omega)
  have f4 : fw W 9 0 = o := fw_of (d * 1024 + a * 16 + s + 1310720) o 0 (by omega) (by omega) (by omega)
  rw [major_14 f0, f1, f2, f3, f4]

theorem ldbn (d a s o : Nat) : Statement (.ldbn d a s o) := by
  refine statement_of rfl fun hl => ?_
  replace hl : (isG d && isG a && isS s && below 1024 o) = true := hl
  simp only [Bool.and_eq_true] at hl
  obtain ⟨⟨⟨h0, h1⟩, h2⟩, h3⟩ := hl
  have hd := isG_lt h0
  have ha := isG_lt h1
  have hs := isS_lt h2
  have ho := below_lt h3
  generalize hW : 0x54000000 + d * 0x100000 + a * 0x4000 + s * 0x400 + o = W
  have f0 : fw W 31 26 = 21 := fw_of 0 21 (d * 1048576 + a * 16384 + s * 1024 + o) (by omega) (by omega) (by omega)
  have f1 : fw W 25 20 = d := fw_of 21 d (a * 16384 + s * 1024 + o) (by omega) (by omega) (by omega)
  have f2 : fw W 19 14 = a := fw_of (d + 1344) a (s * 1024 + o) (by omega) (by omega) (by omega)
  have f3 : fw W 13 10 = s := fw_of (d * 64 + a + 86016) s o (by omega) (by omega) (by omega)
  have f4 : fw W 9 0 = o := fw_of (d * 1024 + a * 16 + s + 1376256) o 0 (by omega) (by omega) (by omega)
  rw [major_15 f0, f1, f2, f3, f4]

theorem ldh (d a s o : Nat) : Statement (.ldh d a s o) := by
  refine statement_of rfl fun hl => ?_
  replace hl : (isG d && isG a && isS s && below 1024 o) = true := hl
  simp only [Bool.and_eq_true] at hl
  obtain ⟨⟨⟨h0, h1⟩, h2⟩, h3⟩ := hl
  have hd := isG_lt h0
  have ha := isG_lt h1
  have hs := isS_lt h2
  have ho := below_lt h3
  generalize hW : 0x58000000 + d * 0x100000 + a * 0x4000 + s * 0x400 + o = W
  have f0 : fw W 31 26 = 22 := fw_of 0 22 (d * 1048576 + a * 16384 + s * 1024 + o) (by omega) (by omega) (by omega)
  have f1 : fw W 25 20 = d := fw_of 22 d (a * 16384 + s * 1024 + o) (by omega) (by omega) (by omega)
  have f2 : fw W 19 14 = a := fw_of (d + 1408) a (s * 1024 + o) (by omega) (by omega) (by omega)
  have f3 : fw W 13 10 = s := fw_of (d * 64 + a + 90112) s o (by omega) (by omega) (by omega)
  have f4 : fw W 9 0 = o := fw_of (d * 1024 + a * 16 + s + 1441792) o 0 (by omega) (by omega) (by omega)
  rw [major_16 f0, f1, f2, f3, f4]

theorem ldhn (d a s o : Nat) : Statement (.ldhn d a s o) := by
  refine statement_of rfl fun hl => ?_
  replace hl : (isG d && isG a && isS s && below 1024 o) = true := hl
  simp only [Bool.and_eq_true] at hl
  obtain ⟨⟨⟨h0, h1⟩, h2⟩, h3⟩ := hl
  have hd := isG_lt h0
  have ha := isG_lt h1
  have hs := isS_lt h2
  have ho := below_lt h3
  generalize hW : 0x5C000000 + d * 0x100000 + a * 0x4000 + s * 0x400 + o = W
  have f0 : fw W 31 26 = 23 := fw_of 0 23 (d * 1048576 + a * 16384 + s * 1024 + o) (by omega) (by omega) (by omega)
  have f1 : fw W 25 20 = d := fw_of 23 d (a * 16384 + s * 1024 + o) (by omega) (by omega) (by omega)
  have f2 : fw W 19 14 = a := fw_of (d + 1472) a (s * 1024 + o) (by omega) (by omega) (by omega)
  have f3 : fw W 13 10 = s := fw_of (d * 64 + a + 94208) s o (by omega) (by omega) (by omega)
  have f4 : fw W 9 0 = o := fw_of (d * 1024 + a * 16 + s + 1507328) o 0 (by omega) (by omega) (by omega)
  rw [major_17 f0, f1, f2, f3, f4]

theorem ldw (d a s o : Nat) : Statement (.ldw d a s o) := by
  refine statement_of rfl fun hl => ?_
  replace hl : (isG d && isG a && isS s && below 1024 o) = true := hl
  simp only [Bool.and_eq_true] at hl
  obtain ⟨⟨⟨h0, h1⟩, h2⟩, h3⟩ := hl
  have hd := isG_lt h0
  have ha := isG_lt h1
  have hs := isS_lt h2
  have ho := below_lt h3
  generalize hW : 0x60000000 + d * 0x100000 + a * 0x4000 + s * 0x400 + o = W
  have f0 : fw W 31 26 = 24 := fw_of 0 24 (d * 1048576 + a * 16384 + s * 1024 + o) (by omega) (by omega) (by omega)
  have f1 : fw W 25 20 = d := fw_of 24 d (a * 16384 + s * 1024 + o) (by omega) (by omega) (by omega)
  have f2 : fw W 19 14 = a := fw_of (d + 1536) a (s * 1024 + o) (by omega) (by omega) (by omega)
  have f3 : fw W 13 10 = s := fw_of (d * 64 + a + 98304) s o (by omega) (by omega) (by omega)
  have f4 : fw W 9 0 = o := fw_of (d * 1024 + a * 16 + s + 1572864) o 0 (by omega) (by omega) (by omega)
  rw [major_18 f0, f1, f2, f3, f4]

theorem ldwn (d a s o : Nat) : Statement (.ldwn d a s o) := by
  refine statement_of rfl fun hl => ?_
  replace hl : (isG d && isG a && isS s && below 1024 o) = true := hl
  simp only [Bool.and_eq_true] at hl
  obtain ⟨⟨⟨h0, h1⟩, h2⟩, h3⟩ := hl
  have hd := isG_lt h0
  have ha := isG_lt h1
  have hs := isS_lt h2
  have ho := below_lt h3
  generalize hW : 0x64000000 + d * 0x100000 + a * 0x4000 + s * 0x400 + o = W
  have f0 : fw W 31 26 = 25 := fw_of 0 25 (d * 1048576 + a * 16384 + s * 1024 + o) (by omega) (by omega) (by omega)
  have f1 : fw W 25 20 = d := fw_of 25 d (a * 16384 + s * 1024 + o) (by omega) (by omega) (by omega)
  have f2 : fw W 19 14 = a := fw_of (d + 1600) a (s * 1024 + o) (by omega) (by omega) (by omega)
  have f3 : fw W 13 10 = s := fw_of (d * 64 + a + 102400) s o (by omega) (by omega) (by omega)
  have f4 : fw W 9 0 = o := fw_of (d * 1024 + a * 16 + s + 1638400) o 0 (by omega) (by omega) (by omega)
  rw [major_19 f0, f1, f2, f3, f4]

theorem ldd (d a s o : Nat) : Statement (.ldd d a s o) := by
  refine statement_of rfl fun hl => ?_
  replace hl : (isG d && isG a && isS s && below 1024 o) = true := hl
  simp only [Bool.and_eq_true] at hl
  obtain ⟨⟨⟨h0, h1⟩, h2⟩, h3⟩ := hl
  have hd := isG_lt h0
  have ha := isG_lt h1
  have hs := isS_lt h2
  have ho := below_lt h3
  generalize hW : 0x68000000 + d * 0x100000 + a * 0x4000 + s * 0x400 + o = W
  have f0 : fw W 31 26 = 26 := fw_of 0 26 (d * 1048576 + a * 16384 + s * 1024 + o) (by omega) (by omega) (by omega)
  have f1 : fw W 25 20 = d := fw_of 26 d (a * 16384 + s * 1024 + o) (by omega) (by omega) (by omega)
  have f2 : fw W 19 14 = a := fw_of (d + 1664) a (s * 1024 + o) (by omega) (by omega) (by omega)
  have f3 : fw W 13 10 = s := fw_of (d * 64 + a + 106496) s o (by omega) (by omega) (by omega)
  have f4 : fw W 9 0 = o := fw_of (d * 1024 + a * 16 + s + 1703936) o 0 (by omega) (by omega) (by omega)
  rw [major_1A f0, f1, f2, f3, f4]

theorem stb (d a s o : Nat) : Statement (.stb d a s o) := by
  refine statement_of rfl fun hl => ?_
  replace hl : (isG d && isG a && isS s && below 1024 o) = true := hl
  simp only [Bool.and_eq_true] at hl
  obtain ⟨⟨⟨h0, h1⟩, h2⟩, h3⟩ := hl
  have hd := isG_lt h0
  have ha := isG_lt h1
  have hs := isS_lt h2
  have ho := below_lt h3
  generalize hW : 0x6C000000 + d * 0x100000 + a * 0x4000 + s * 0x400 + o = W
  have f0 : fw W 31 26 = 27 := fw_of 0 27 (d * 1048576 + a * 16384 + s * 1024 + o) (by omega) (by omega) (by omega)
  have f1 : fw W 25 20 = d := fw_of 27 d (a * 16384 + s * 1024 + o) (by omega) (by omega) (by omega)
  have f2 : fw W 19 14 = a := fw_of (d + 1728) a (s * 1024 + o) (by omega) (by omega) (by omega)
  have f3 : fw W 13 10 = s := fw_of (d * 64 + a + 110592) s o (by omega) (by omega) (by omega)
  have f4 : fw W 9 0 = o := fw_of (d * 1024 + a * 16 + s + 1769472) o 0 (by omega) (by omega) (by omega)
  rw [major_1B f0, f1, f2, f3, f4]

theorem sth (d a s o : Nat) : Statement (.sth d a s o) := by
  refine statement_of rfl fun hl => ?_
  replace hl : (isG d && isG a && isS s && below 1024 o) = true := hl
  simp only [Bool.and_eq_true] at hl
  obtain ⟨⟨⟨h0, h1⟩, h2⟩, h3⟩ := hl
  have hd := isG_lt h0
  have ha := isG_lt h1
  have hs := isS_lt h2
  have ho := below_lt h3
  generalize hW : 0x70000000 + d * 0x100000 + a * 0x4000 + s * 0x400 + o = W
  have f0 : fw W 31 26 = 28 := fw_of 0 28 (d * 1048576 + a * 16384 + s * 1024 + o) (by omega) (by omega) (by omega)
  have f1 : fw W 25 20 = d := fw_of 28 d (a * 16384 + s * 1024 + o) (by omega) (by omega) (by omega)
  have f2 : fw W 19 14 = a := fw_of (d + 1792) a (s * 1024 + o) (by omega) (by omega) (by omega)
  have f3 : fw W 13 10 = s := fw_of (d * 64 + a + 114688) s o (by omega) (by omega) (by omega)
  have f4 : fw W 9 0 = o := fw_of (d * 1024 + a * 16 + s + 1835008) o 0 (by omega) (by omega) (by omega)
  rw [major_1C f0, f1, f2, f3, f4]

theorem stw (d a s o : Nat) : Statement (.stw d a s o) := by
  refine statement_of rfl fun hl => ?_
  replace hl : (isG d && isG a && isS s && below 1024 o) = true := hl
  simp only [Bool.and_eq_true] at hl
  obtain ⟨⟨⟨h0, h1⟩, h2⟩, h3⟩ := hl
  have hd := isG_lt h0
  have ha := isG_lt h1
  have hs := isS_lt h2
  have ho := below_lt h3
  generalize hW : 0x74000000 + d * 0x100000 + a * 0x4000 + s * 0x400 + o = W
  have f0 : fw W 31 26 = 29 := fw_of 0 29 (d * 1048576 + a * 16384 + s * 1024 + o) (by omega) (by omega) (by omega)
  have f1 : fw W 25 20 = d := fw_of 29 d (a * 16384 + s * 1024 + o) (by omega) (by omega) (by omega)
  have f2 : fw W 19 14 = a := fw_of (d + 1856) a (s * 1024 + o) (by omega) (by omega) (by omega)
  have f3 : fw W 13 10 = s := fw_of (d * 64 + a + 118784) s o (by omega) (by omega) (by omega)
  have f4 : fw W 9 0 = o := fw_of (d * 1024 + a * 16 + s + 1900544) o 0 (by omega) (by omega) (by omega)
  rw [major_1D f0, f1, f2, f3, f4]

theorem std (d a s o : Nat) : Statement (.std d a s o) := by
  refine statement_of rfl fun hl => ?_
  replace hl : (isG d && isG a && isS s && below 1024 o) = true := hl
  simp only [Bool.and_eq_true] at hl
  obtain ⟨⟨⟨h0, h1⟩, h2⟩, h3⟩ := hl
  have hd := isG_lt h0
  have ha := isG_lt h1
  have hs := isS_lt h2
  have ho := below_lt h3
  generalize hW : 0x78000000 + d * 0x100000 + a * 0x4000 + s * 0x400 + o = W
  have f0 : fw W 31 26 = 30 := fw_of 0 30 (d * 1048576 + a * 16384 + s * 1024 + o) (by omega) (by omega) (by omega)
  have f1 : fw W 25 20 = d := fw_of 30 d (a * 16384 + s * 1024 + o) (by omega) (by omega) (by omega)
  have f2 : fw W 19 14 = a := fw_of (d + 1920) a (s * 1024 + o) (by omega) (by omega) (by omega)
  have f3 : fw W 13 10 = s := fw_of (d * 64 + a + 122880) s o (by omega) (by omega) (by omega)
  have f4 : fw W 9 0 = o := fw_of (d * 1024 + a * 16 + s + 1966080) o 0 (by omega) (by omega) (by omega)
  rw [major_1E f0, f1, f2, f3, f4]

theorem ladd (d a b s : Nat) : Statement (.ladd d a b s) := by
  refine statement_of rfl fun hl => ?_
  replace hl : (isG d && isG a && isG b && isS s) = true := hl
  simp only [Bool.and_eq_true] at hl
  obtain ⟨⟨⟨h0, h1⟩, h2⟩, h3⟩ := hl
  have hd := isG_lt h0
  have ha := isG_lt h1
  have hb := isG_lt h2
  have hs := isS_lt h3
  generalize hW : 0x7C000000 + d * 0x100000 + a * 0x4000 + b * 0x100 + s * 0x8 = W
  have f0 : fw W 31 26 = 31 := fw_of 0 31 (d * 1048576 + a * 16384 + b * 256 + s * 8) (by omega) (by omega) (by omega)
  have f1 : fw W 25 20 = d := fw_of 31 d (a * 16384 + b * 256 + s * 8) (by omega) (by omega) (by omega)
  have f2 : fw W 19 14 = a := fw_of (d + 1984) a (b * 256 + s * 8) (by omega) (by omega) (by omega)
  have f3 : fw W 13 8 = b := fw_of (d * 64 + a + 126976) b (s * 8) (by omega) (by omega) (by omega)
  have f4 : fw W 6 3 = s := fw_of (d * 8192 + a * 128 + b * 2 + 16252928) s 0 (by omega) (by omega) (by omega)
  have f5 : fw W 2 0 = 0 := fw_of (d * 131072 + a * 2048 + b * 32 + s + 260046848) 0 0 (by omega) (by omega) (by omega)
  have f6 : fw W 7 7 = 0 := fw_of (d * 4096 + a * 64 + b + 8126464) 0 (s * 8) (by omega) (by omega) (by omega)
  rw [major_1F f0]
  simp only [rawLmem, f1, f2, f3, f4, f5, f6]
  rfl

theorem lmin (d a b s : Nat) : Statement (.lmin d a b s) := by
  refine statement_of rfl fun hl => ?_
  replace hl : (isG d && isG a && isG b && isS s) = true := hl
  simp only [Bool.and_eq_true] at hl
  obtain ⟨⟨⟨h0, h1⟩, h2⟩, h3⟩ := hl
  have hd := isG_lt h0
  have ha := isG_lt h1
  have hb := isG_lt h2
  have hs := isS_lt h3
  generalize hW : 0x7C000001 + d * 0x100000 + a * 0x4000 + b * 0x100 + s * 0x8 = W
  have f0 : fw W 31 26 = 31 := fw_of 0 31 (d * 1048576 + a * 16384 + b * 256 + s * 8 + 1) (by omega) (by omega) (by omega)
  have f1 : fw W 25 20 = d := fw_of 31 d (a * 16384 + b * 256 + s * 8 + 1) (by omega) (by omega) (by omega)
  have f2 : fw W 19 14 = a := fw_of (d + 1984) a (b * 256 + s * 8 + 1) (by omega) (by omega) (by omega)
  have f3 : fw W 13 8 = b := fw_of (d * 64 + a + 126976) b (s * 8 + 1) (by omega) (by omega) (by omega)
  have f4 : fw W 6 3 = s := fw_of (d * 8192 + a * 128 + b * 2 + 16252928) s 1 (by omega) (by omega) (by omega)
  have f5 : fw W 2 0 = 1 := fw_of (d * 131072 + a * 2048 + b * 32 + s + 260046848) 1 0 (by omega) (by omega) (by omega)
  have f6 : fw W 7 7 = 0 := fw_of (d * 4096 + a * 64 + b + 8126464) 0 (s * 8 + 1) (by omega) (by omega) (by omega)
  rw [major_1F f0]
  simp only [rawLmem, f1, f2, f3, f4, f5, f6]
  rfl

theorem lmax (d a b s : Nat) : Statement (.lmax d a b s) := by
  refine statement_of rfl fun hl => ?_
  replace hl : (isG d && isG a && isG b && isS s) = true := hl
  simp only [Bool.and_eq_true] at hl
  obtain ⟨⟨⟨h0, h1⟩, h2⟩, h3⟩ := hl
  have hd := isG_lt h0
  have ha := isG_lt h1
  have hb := isG_lt h2
  have hs := isS_lt h3
  generalize hW : 0x7C000002 + d * 0x100000 + a * 0x4000 + b * 0x100 + s * 0x8 = W
  have f0 : fw W 31 26 = 31 := fw_of 0 31 (d * 1048576 + a * 16384 + b * 256 + s * 8 + 2) (by omega) (by omega) (by omega)
  have f1 : fw W 25 20 = d := fw_of 31 d (a * 16384 + b * 256 + s * 8 + 2) (by omega) (by omega) (by omega)
  have f2 : fw W 19 14 = a := fw_of (d + 1984) a (b * 256 + s * 8 + 2) (by omega) (by omega) (by omega)
  have f3 : fw W 13 8 = b := fw_of (d * 64 + a + 126976) b (s * 8 + 2) (by omega) (by omega) (by omega)
  have f4 : fw W 6 3 = s := fw_of (d * 8192 + a * 128 + b * 2 + 16252928) s 2 (by omega) (by omega) (by omega)
  have f5 : fw W 2 0 = 2 := fw_of (d * 131072 + a * 2048 + b * 32 + s + 260046848) 2 0 (by omega) (by omega) (by omega)
  have f6 : fw W 7 7 = 0 := fw_of (d * 4096 + a * 64 + b + 8126464) 0 (s * 8 + 2) (by omega) (by omega) (by omega)
  rw [major_1F f0]
  simp only [rawLmem, f1, f2, f3, f4, f5, f6]
  rfl

theorem land (d a b s : Nat) : Statement (.land d a b s) := by
  refine statement_of rfl fun hl => ?_
  replace hl : (isG d && isG a && isG b && isS s) = true := hl
  simp only [Bool.and_eq_true] at hl
  obtain ⟨⟨⟨h0, h1⟩, h2⟩, h3⟩ := hl
  have hd := isG_lt h0
  have ha := isG_lt h1
  have hb := isG_lt h2
  have hs := isS_lt h3
  generalize hW : 0x7C000003 + d * 0x100000 + a * 0x4000 + b * 0x100 + s * 0x8 = W
  have f0 : fw W 31 26 = 31 := fw_of 0 31 (d * 1048576 + a * 16384 + b * 256 + s * 8 + 3) (by omega) (by omega) (by omega)
  have f1 : fw W 25 20 = d := fw_of 31 d (a * 16384 + b * 256 + s * 8 + 3) (by omega) (by omega) (by omega)
  have f2 : fw W 19 14 = a := fw_of (d + 1984) a (b * 256 + s * 8 + 3) (by omega) (by omega) (by omega)
  have f3 : fw W 13 8 = b := fw_of (d * 64 + a + 126976) b (s * 8 + 3) (by omega) (by omega) (by omega)
  have f4 : fw W 6 3 = s := fw_of (d * 8192 + a * 128 + b * 2 + 16252928) s 3 (by omega) (by omega) (by omega)
  have f5 : fw W 2 0 = 3 := fw_of (d * 131072 + a * 2048 + b * 32 + s + 260046848) 3 0 (by omega) (by omega) (by omega)
  have f6 : fw W 7 7 = 0 := fw_of (d * 4096 + a * 64 + b + 8126464) 0 (s * 8 + 3) (by omega) (by omega) (by omega)
  rw [major_1F f0]
  simp only [rawLmem, f1, f2, f3, f4, f5, f6]
  rfl

theorem lor (d a b s : Nat) : Statement (.lor d a b s) := by
  refine statement_of rfl fun hl => ?_
  replace hl : (isG d && isG a && isG b && isS s) = true := hl
  simp only [Bool.and_eq_true] at hl
  obtain ⟨⟨⟨h0, h1⟩, h2⟩, h3⟩ := hl
  have hd := isG_lt h0
  have ha := isG_lt h1
  have hb := isG_lt h2
  have hs := isS_lt h3
  generalize hW : 0x7C000004 + d * 0x100000 + a * 0x4000 + b * 0x100 + s * 0x8 = W
  have f0 : fw W 31 26 = 31 := fw_of 0 31 (d * 1048576 + a * 16384 + b * 256 + s * 8 + 4) (by omega) (by omega) (by omega)
  have f1 : fw W 25 20 = d := fw_of 31 d (a * 16384 + b * 256 + s * 8 + 4) (by omega) (by omega) (by omega)
  have f2 : fw W 19 14 = a := fw_of (d + 1984) a (b * 256 + s * 8 + 4) (by omega) (by omega) (by omega)
  have f3 : fw W 13 8 = b := fw_of (d * 64 + a + 126976) b (s * 8 + 4) (by omega) (by omega) (by omega)
  have f4 : fw W 6 3 = s := fw_of (d * 8192 + a * 128 + b * 2 + 16252928) s 4 (by omega) (by omega) (by omega)
  have f5 : fw W 2 0 = 4 := fw_of (d * 131072 + a * 2048 + b * 32 + s + 260046848) 4 0 (by omega) (by omega) (by omega)
  have f6 : fw W 7 7 = 0 := fw_of (d * 4096 + a * 64 + b + 8126464) 0 (s * 8 + 4) (by omega) (by omega) (by omega)
  rw [major_1F f0]
  simp only [rawLmem, f1, f2, f3, f4, f5, f6]
  rfl

theorem lxor (d a b s : Nat) : Statement (.lxor d a b s) := by
  refine statement_of rfl fun hl => ?_
  replace hl : (isG d && isG a && isG b && isS s) = true := hl
  simp only [Bool.and_eq_true] at hl
  obtain ⟨⟨⟨h0, h1⟩, h2⟩, h3⟩ := hl
  have hd := isG_lt h0
  have ha := isG_lt h1
  have hb := isG_lt h2
  have hs := isS_lt h3
  generalize hW : 0x7C000005 + d * 0x100000 + a * 0x4000 + b * 0x100 + s * 0x8 = W
  have f0 : fw W 31 26 = 31 := fw_of 0 31 (d * 1048576 + a * 16384 + b * 256 + s * 8 + 5) (by omega) (by omega) (by omega)
  have f1 : fw W 25 20 = d := fw_of 31 d (a * 16384 + b * 256 + s * 8 + 5) (by omega) (by omega) (by omega)
  have f2 : fw W 19 14 = a := fw_of (d + 1984) a (b * 256 + s * 8 + 5) (by omega) (by omega) (by omega)
  have f3 : fw W 13 8 = b := fw_of (d * 64 + a + 126976) b (s * 8 + 5) (by omega) (by omega) (by omega)
  have f4 : fw W 6 3 = s := fw_of (d * 8192 + a * 128 + b * 2 + 16252928) s 5 (by omega) (by omega) (by omega)
  have f5 : fw W 2 0 = 5 := fw_of (d * 131072 + a * 2048 + b * 32 + s + 260046848) 5 0 (by omega) (by omega) (by omega)
  have f6 : fw W 7 7 = 0 := fw_of (d * 4096 + a * 64 + b + 8126464) 0 (s * 8 + 5) (by omega) (by omega) (by omega)
  rw [major_1F f0]
  simp only [rawLmem, f1, f2, f3, f4, f5, f6]
  rfl

theorem lswp (d a b s : Nat) : Statement (.lswp d a b s) := by
  refine statement_of rfl fun hl => ?_
  replace hl : (isG d && isG a && isG b && isS s) = true := hl
  simp only [Bool.and_eq_true] at hl
  obtain ⟨⟨⟨h0, h1⟩, h2⟩, h3⟩ := hl
  have hd := isG_lt h0
  have ha := isG_lt h1
  have hb := isG_lt h2
  have hs := isS_lt h3
  generalize hW : 0x7C000006 + d * 0x100000 + a * 0x4000 + b * 0x100 + s * 0x8 = W
  have f0 : fw W 31 26 = 31 := fw_of 0 31 (d * 1048576 + a * 16384 + b * 256 + s * 8 + 6) (by omega) (by omega) (by omega)
  have f1 : fw W 25 20 = d := fw_of 31 d (a * 16384 + b * 256 + s * 8 + 6) (by omega) (by omega) (by omega)
  have f2 : fw W 19 14 = a := fw_of (d + 1984) a (b * 256 + s * 8 + 6) (by omega) (by omega) (by omega)
  have f3 : fw W 13 8 = b := fw_of (d * 64 + a + 126976) b (s * 8 + 6) (by omega) (by omega) (by omega)
  have f4 : fw W 6 3 = s := fw_of (d * 8192 + a * 128 + b * 2 + 16252928) s 6 (by omega) (by omega) (by omega)
  have f5 : fw W 2 0 = 6 := fw_of (d * 131072 + a * 2048 + b * 32 + s + 260046848) 6 0 (by omega) (by omega) (by omega)
  have f6 : fw W 7 7 = 0 := fw_of (d * 4096 + a * 64 + b + 8126464) 0 (s * 8 + 6) (by omega) (by omega) (by omega)
  rw [major_1F f0]
  simp only [rawLmem, f1, f2, f3, f4, f5, f6]
  rfl

theorem lcas (d a b s : Nat) : Statement (.lcas d a b s) := by
  refine statement_of rfl fun hl => ?_
  replace hl : (isG d && isG a && isG b && isS s) = true := hl
  simp only [Bool.and_eq_true] at hl
  obtain ⟨⟨⟨h0, h1⟩, h2⟩, h3⟩ := hl
  have hd := isG_lt h0
  have ha := isG_lt h1
  have hb := isG_lt h2
  have hs := isS_lt h3
  generalize hW : 0x7C000007 + d * 0x100000 + a * 0x4000 + b * 0x100 + s * 0x8 = W
  have f0 : fw W 31 26 = 31 := fw_of 0 31 (d * 1048576 + a * 16384 + b * 256 + s * 8 + 7) (by omega) (by omega) (by omega)
  have f1 : fw W 25 20 = d := fw_of 31 d (a * 16384 + b * 256 + s * 8 + 7) (by omega) (by omega) (by omega)
  have f2 : fw W 19 14 = a := fw_of (d + 1984) a (b * 256 + s * 8 + 7) (by omega) (by omega) (by omega)
  have f3 : fw W 13 8 = b := fw_of (d * 64 + a + 126976) b (s * 8 + 7) (by omega) (by omega) (by omega)
  have f4 : fw W 6 3 = s := fw_of (d * 8192 + a * 128 + b * 2 + 16252928) s 7 (by omega) (by omega) (by omega)
  have f5 : fw W 2 0 = 7 := fw_of (d * 131072 + a * 2048 + b * 32 + s + 260046848) 7 0 (by omega) (by omega) (by omega)
  have f6 : fw W 7 7 = 0 := fw_of (d * 4096 + a * 64 + b + 8126464) 0 (s * 8 + 7) (by omega) (by omega) (by omega)
  rw [major_1F f0]
  simp only [rawLmem, f1, f2, f3, f4, f5, f6]
  rfl

theorem fence (m k : Nat) : Statement (.fence m k) := by
  refine statement_of rfl fun hl => ?_
  replace hl : (below 65536 m && below 8 k) = true := hl
  simp only [Bool.and_eq_true] at hl
  obtain ⟨h0, h1⟩ := hl
  have hm := below_lt h0
  have hk := below_lt h1
  generalize hW : 0x7C000080 + m * 0x400 + k = W
  have f0 : fw W 31 26 = 31 := fw_of 0 31 (m * 1024 + k + 128) (by omega) (by omega) (by omega)
  have f1 : fw W 25 10 = m := fw_of 31 m (k + 128) (by omega) (by omega) (by omega)
  have f2 : fw W 2 0 = k := fw_of (m * 128 + 260046864) k 0 (by omega) (by omega) (by omega)
  have f3 : fw W 7 7 = 1 := fw_of (m * 4 + 8126464) 1 k (by omega) (by omega) (by omega)
  have f4 : fw W 9 3 = 16 := fw_of (m + 2031616) 16 k (by omega) (by omega) (by omega)
  rw [major_1F f0]
  simp only [rawLmem, f1, f2, f3, f4]
  first | rfl | simp

theorem fpop (d a : Nat) : Statement (.fpop d a) := by
  refine statement_of rfl fun hl => ?_
  replace hl : (isG d && isA a) = true := hl
  simp only [Bool.and_eq_true] at hl
  obtain ⟨h0, h1⟩ := hl
  have hd := isG_lt h0
  have ha := isA_lt h1
  generalize hW : 0x7C000088 + d * 0x100000 + a * 0x4000 = W
  have f0 : fw W 31 26 = 31 := fw_of 0 31 (d * 1048576 + a * 16384 + 136) (by omega) (by omega) (by omega)
  have f1 : fw W 25 20 = d := fw_of 31 d (a * 16384 + 136) (by omega) (by omega) (by omega)
  have f2 : fw W 19 14 = a := fw_of (d + 1984) a 136 (by omega) (by omega) (by omega)
  have f3 : fw W 7 7 = 1 := fw_of (d * 4096 + a * 64 + 8126464) 1 8 (by omega) (by omega) (by omega)
  have f4 : fw W 2 0 = 0 := fw_of (d * 131072 + a * 2048 + 260046865) 0 0 (by omega) (by omega) (by omega)
  have f5 : fw W 9 3 = 17 := fw_of (d * 1024 + a * 16 + 2031616) 17 0 (by omega) (by omega) (by omega)
  have f6 : fw W 13 0 = 136 := fw_of (d * 64 + a + 126976) 136 0 (by omega) (by omega) (by omega)
  rw [major_1F f0]
  simp only [rawLmem, f1, f2, f3, f4, f5, f6]
  rfl

theorem vld (d a s o : Nat) : Statement (.vld d a s o) := by
  refine statement_of rfl fun hl => ?_
  replace hl : (isV d && isG a && isS s && below 1024 o) = true := hl
  simp only [Bool.and_eq_true] at hl
  obtain ⟨⟨⟨h0, h1⟩, h2⟩, h3⟩ := hl
  have hd := isV_lt h0
  have ha := isG_lt h1
  have hs := isS_lt h2
  have ho := below_lt h3
  generalize hW : 0x80000000 + d * 0x100000 + a * 0x4000 + s * 0x400 + o = W
  have f0 : fw W 31 26 = 32 := fw_of 0 32 (d * 1048576 + a * 16384 + s * 1024 + o) (by omega) (by omega) (by omega)
  have f1 : fw W 25 20 = d := fw_of 32 d (a * 16384 + s * 1024 + o) (by omega) (by omega) (by omega)
  have f2 : fw W 19 14 = a := fw_of (d + 2048) a (s * 1024 + o) (by omega) (by omega) (by omega)
  have f3 : fw W 13 10 = s := fw_of (d * 64 + a + 131072) s o (by omega) (by omega) (by omega)
  have f4 : fw W 9 0 = o := fw_of (d * 1024 + a * 16 + s + 2097152) o 0 (by omega) (by omega) (by omega)
  rw [major_20 f0, f1, f2, f3, f4]

theorem vst (d a s o : Nat) : Statement (.vst d a s o) := by
  refine statement_of rfl fun hl => ?_
  replace hl : (isV d && isG a && isS s && below 1024 o) = true := hl
  simp only [Bool.and_eq_true] at hl
  obtain ⟨⟨⟨h0, h1⟩, h2⟩, h3⟩ := hl
  have hd := isV_lt h0
  have ha := isG_lt h1
  have hs := isS_lt h2
  have ho := below_lt h3
  generalize hW : 0x84000000 + d * 0x100000 + a * 0x4000 + s * 0x400 + o = W
  have f0 : fw W 31 26 = 33 := fw_of 0 33 (d * 1048576 + a * 16384 + s * 1024 + o) (by omega) (by omega) (by omega)
  have f1 : fw W 25 20 = d := fw_of 33 d (a * 16384 + s * 1024 + o) (by omega) (by omega) (by omega)
  have f2 : fw W 19 14 = a := fw_of (d + 2112) a (s * 1024 + o) (by omega) (by omega) (by omega)
  have f3 : fw W 13 10 = s := fw_of (d * 64 + a + 135168) s o (by omega) (by omega) (by omega)
  have f4 : fw W 9 0 = o := fw_of (d * 1024 + a * 16 + s + 2162688) o 0 (by omega) (by omega) (by omega)
  rw [major_21 f0, f1, f2, f3, f4]

theorem fpopv (d a : Nat) : Statement (.fpopv d a) := by
  refine statement_of rfl fun hl => ?_
  replace hl : (isV d && isA a) = true := hl
  simp only [Bool.and_eq_true] at hl
  obtain ⟨h0, h1⟩ := hl
  have hd := isV_lt h0
  have ha := isA_lt h1
  generalize hW : 0x88000000 + d * 0x100000 + a * 0x4000 = W
  have f0 : fw W 31 26 = 34 := fw_of 0 34 (d * 1048576 + a * 16384) (by omega) (by omega) (by omega)
  have f1 : fw W 25 20 = d := fw_of 34 d (a * 16384) (by omega) (by omega) (by omega)
  have f2 : fw W 19 14 = a := fw_of (d + 2176) a 0 (by omega) (by omega) (by omega)
  have f3 : fw W 13 0 = 0 := fw_of (d * 64 + a + 139264) 0 0 (by omega) (by omega) (by omega)
  rw [major_22 f0]
  simp only [rawVmem, f1, f2, f3]
  rfl

theorem vgath (d a b w s : Nat) : Statement (.vgath d a b w s) := by
  refine statement_of rfl fun hl => ?_
  replace hl : (isV d && isQ a && isV b && below 3 w && isS s) = true := hl
  simp only [Bool.and_eq_true] at hl
  obtain ⟨⟨⟨⟨h0, h1⟩, h2⟩, h3⟩, h4⟩ := hl
  have hd := isV_lt h0
  have ha := isQ_lt h1
  have hb := isV_lt h2
  have hw := below_lt h3
  have hs := isS_lt h4
  generalize hW : 0x88000040 + d * 0x100000 + a * 0x4000 + b * 0x100 + w * 0x10 + s = W
  have f0 : fw W 31 26 = 34 := fw_of 0 34 (d * 1048576 + a * 16384 + b * 256 + w * 16 + s + 64) (by omega) (by omega) (by omega)
  have f1 : fw W 25 20 = d := fw_of 34 d (a * 16384 + b * 256 + w * 16 + s + 64) (by omega) (by omega) (by omega)
  have f2 : fw W 19 14 = a := fw_of (d + 2176) a (b * 256 + w * 16 + s + 64) (by omega) (by omega) (by omega)
  have f3 : fw W 13 8 = b := fw_of (d * 64 + a + 139264) b (w * 16 + s + 64) (by omega) (by omega) (by omega)
  have f4 : fw W 5 4 = w := fw_of (d * 16384 + a * 256 + b * 4 + 35651585) w s (by omega) (by omega) (by omega)
  have f5 : fw W 3 0 = s := fw_of (d * 65536 + a * 1024 + b * 16 + w + 142606340) s 0 (by omega) (by omega) (by omega)
  have f6 : ¬fw W 13 0 = 0 := by rw [fw_of (d * 64 + a + 139264) (b * 256 + w * 16 + s + 64) 0 (by omega) (by omega) (by omega)]; omega
  have f7 : fw W 7 6 = 1 := fw_of (d * 4096 + a * 64 + b + 8912896) 1 (w * 16 + s) (by omega) (by omega) (by omega)
  rw [major_22 f0]
  simp only [rawVmem, f1, f2, f3, f4, f5, f6, f7]
  rfl

theorem vscat (d a b w s : Nat) : Statement (.vscat d a b w s) := by
  refine statement_of rfl fun hl => ?_
  replace hl : (isV d && isQ a && isV b && below 3 w && isS s) = true := hl
  simp only [Bool.and_eq_true] at hl
  obtain ⟨⟨⟨⟨h0, h1⟩, h2⟩, h3⟩, h4⟩ := hl
  have hd := isV_lt h0
  have ha := isQ_lt h1
  have hb := isV_lt h2
  have hw := below_lt h3
  have hs := isS_lt h4
  generalize hW : 0x88000080 + d * 0x100000 + a * 0x4000 + b * 0x100 + w * 0x10 + s = W
  have f0 : fw W 31 26 = 34 := fw_of 0 34 (d * 1048576 + a * 16384 + b * 256 + w * 16 + s + 128) (by omega) (by omega) (by omega)
  have f1 : fw W 25 20 = d := fw_of 34 d (a * 16384 + b * 256 + w * 16 + s + 128) (by omega) (by omega) (by omega)
  have f2 : fw W 19 14 = a := fw_of (d + 2176) a (b * 256 + w * 16 + s + 128) (by omega) (by omega) (by omega)
  have f3 : fw W 13 8 = b := fw_of (d * 64 + a + 139264) b (w * 16 + s + 128) (by omega) (by omega) (by omega)
  have f4 : fw W 5 4 = w := fw_of (d * 16384 + a * 256 + b * 4 + 35651586) w s (by omega) (by omega) (by omega)
  have f5 : fw W 3 0 = s := fw_of (d * 65536 + a * 1024 + b * 16 + w + 142606344) s 0 (by omega) (by omega) (by omega)
  have f6 : ¬fw W 13 0 = 0 := by rw [fw_of (d * 64 + a + 139264) (b * 256 + w * 16 + s + 128) 0 (by omega) (by omega) (by omega)]; omega
  have f7 : fw W 7 6 = 2 := fw_of (d * 4096 + a * 64 + b + 8912896) 2 (w * 16 + s) (by omega) (by omega) (by omega)
  rw [major_22 f0]
  simp only [rawVmem, f1, f2, f3, f4, f5, f6, f7]
  rfl

theorem vadd (d a b t : Nat) : Statement (.vadd d a b t) := by
  refine statement_of rfl fun hl => ?_
  replace hl : (isV d && isV a && isV b && isT t) = true := hl
  simp only [Bool.and_eq_true] at hl
  obtain ⟨⟨⟨h0, h1⟩, h2⟩, h3⟩ := hl
  have hd := isV_lt h0
  have ha := isV_lt h1
  have hb := isV_lt h2
  have ht := isT_lt h3
  generalize hW : 0x8C000000 + d * 0x100000 + a * 0x4000 + b * 0x100 + t = W
  have f0 : fw W 31 26 = 35 := fw_of 0 35 (d * 1048576 + a * 16384 + b * 256 + t) (by omega) (by omega) (by omega)
  have f1 : fw W 25 20 = d := fw_of 35 d (a * 16384 + b * 256 + t) (by omega) (by omega) (by omega)
  have f2 : fw W 19 14 = a := fw_of (d + 2240) a (b * 256 + t) (by omega) (by omega) (by omega)
  have f3 : fw W 13 8 = b := fw_of (d * 64 + a + 143360) b t (by omega) (by omega) (by omega)
  have f4 : fw W 3 0 = t := fw_of (d * 65536 + a * 1024 + b * 16 + 146800640) t 0 (by omega) (by omega) (by omega)
  have f5 : fw W 7 4 = 0 := fw_of (d * 4096 + a * 64 + b + 9175040) 0 t (by omega) (by omega) (by omega)
  rw [major_23 f0]
  simp only [rawVop, rawVop1, f1, f2, f3, f4, f5]
  rfl

theorem vsub (d a b t : Nat) : Statement (.vsub d a b t) := by
  refine statement_of rfl fun hl => ?_
  replace hl : (isV d && isV a && isV b && isT t) = true := hl
  simp only [Bool.and_eq_true] at hl
  obtain ⟨⟨⟨h0, h1⟩, h2⟩, h3⟩ := hl
  have hd := isV_lt h0
  have ha := isV_lt h1
  have hb := isV_lt h2
  have ht := isT_lt h3
  generalize hW : 0x8C000010 + d * 0x100000 + a * 0x4000 + b * 0x100 + t = W
  have f0 : fw W 31 26 = 35 := fw_of 0 35 (d * 1048576 + a * 16384 + b * 256 + t + 16) (by omega) (by omega) (by omega)
  have f1 : fw W 25 20 = d := fw_of 35 d (a * 16384 + b * 256 + t + 16) (by omega) (by omega) (by omega)
  have f2 : fw W 19 14 = a := fw_of (d + 2240) a (b * 256 + t + 16) (by omega) (by omega) (by omega)
  have f3 : fw W 13 8 = b := fw_of (d * 64 + a + 143360) b (t + 16) (by omega) (by omega) (by omega)
  have f4 : fw W 3 0 = t := fw_of (d * 65536 + a * 1024 + b * 16 + 146800641) t 0 (by omega) (by omega) (by omega)
  have f5 : fw W 7 4 = 1 := fw_of (d * 4096 + a * 64 + b + 9175040) 1 t (by omega) (by omega) (by omega)
  rw [major_23 f0]
  simp only [rawVop, rawVop1, f1, f2, f3, f4, f5]
  rfl

theorem vmul (d a b t : Nat) : Statement (.vmul d a b t) := by
  refine statement_of rfl fun hl => ?_
  replace hl : (isV d && isV a && isV b && isT t) = true := hl
  simp only [Bool.and_eq_true] at hl
  obtain ⟨⟨⟨h0, h1⟩, h2⟩, h3⟩ := hl
  have hd := isV_lt h0
  have ha := isV_lt h1
  have hb := isV_lt h2
  have ht := isT_lt h3
  generalize hW : 0x8C000020 + d * 0x100000 + a * 0x4000 + b * 0x100 + t = W
  have f0 : fw W 31 26 = 35 := fw_of 0 35 (d * 1048576 + a * 16384 + b * 256 + t + 32) (by omega) (by omega) (by omega)
  have f1 : fw W 25 20 = d := fw_of 35 d (a * 16384 + b * 256 + t + 32) (by omega) (by omega) (by omega)
  have f2 : fw W 19 14 = a := fw_of (d + 2240) a (b * 256 + t + 32) (by omega) (by omega) (by omega)
  have f3 : fw W 13 8 = b := fw_of (d * 64 + a + 143360) b (t + 32) (by omega) (by omega) (by omega)
  have f4 : fw W 3 0 = t := fw_of (d * 65536 + a * 1024 + b * 16 + 146800642) t 0 (by omega) (by omega) (by omega)
  have f5 : fw W 7 4 = 2 := fw_of (d * 4096 + a * 64 + b + 9175040) 2 t (by omega) (by omega) (by omega)
  rw [major_23 f0]
  simp only [rawVop, rawVop1, f1, f2, f3, f4, f5]
  rfl

theorem vmin (d a b t : Nat) : Statement (.vmin d a b t) := by
  refine statement_of rfl fun hl => ?_
  replace hl : (isV d && isV a && isV b && isT t) = true := hl
  simp only [Bool.and_eq_true] at hl
  obtain ⟨⟨⟨h0, h1⟩, h2⟩, h3⟩ := hl
  have hd := isV_lt h0
  have ha := isV_lt h1
  have hb := isV_lt h2
  have ht := isT_lt h3
  generalize hW : 0x8C000030 + d * 0x100000 + a * 0x4000 + b * 0x100 + t = W
  have f0 : fw W 31 26 = 35 := fw_of 0 35 (d * 1048576 + a * 16384 + b * 256 + t + 48) (by omega) (by omega) (by omega)
  have f1 : fw W 25 20 = d := fw_of 35 d (a * 16384 + b * 256 + t + 48) (by omega) (by omega) (by omega)
  have f2 : fw W 19 14 = a := fw_of (d + 2240) a (b * 256 + t + 48) (by omega) (by omega) (by omega)
  have f3 : fw W 13 8 = b := fw_of (d * 64 + a + 143360) b (t + 48) (by omega) (by omega) (by omega)
  have f4 : fw W 3 0 = t := fw_of (d * 65536 + a * 1024 + b * 16 + 146800643) t 0 (by omega) (by omega) (by omega)
  have f5 : fw W 7 4 = 3 := fw_of (d * 4096 + a * 64 + b + 9175040) 3 t (by omega) (by omega) (by omega)
  rw [major_23 f0]
  simp only [rawVop, rawVop1, f1, f2, f3, f4, f5]
  rfl

theorem vmax (d a b t : Nat) : Statement (.vmax d a b t) := by
  refine statement_of rfl fun hl => ?_
  replace hl : (isV d && isV a && isV b && isT t) = true := hl
  simp only [Bool.and_eq_true] at hl
  obtain ⟨⟨⟨h0, h1⟩, h2⟩, h3⟩ := hl
  have hd := isV_lt h0
  have ha := isV_lt h1
  have hb := isV_lt h2
  have ht := isT_lt h3
  generalize hW : 0x8C000040 + d * 0x100000 + a * 0x4000 + b * 0x100 + t = W
  have f0 : fw W 31 26 = 35 := fw_of 0 35 (d * 1048576 + a * 16384 + b * 256 + t + 64) (by omega) (by omega) (by omega)
  have f1 : fw W 25 20 = d := fw_of 35 d (a * 16384 + b * 256 + t + 64) (by omega) (by omega) (by omega)
  have f2 : fw W 19 14 = a := fw_of (d + 2240) a (b * 256 + t + 64) (by omega) (by omega) (by omega)
  have f3 : fw W 13 8 = b := fw_of (d * 64 + a + 143360) b (t + 64) (by omega) (by omega) (by omega)
  have f4 : fw W 3 0 = t := fw_of (d * 65536 + a * 1024 + b * 16 + 146800644) t 0 (by omega) (by omega) (by omega)
  have f5 : fw W 7 4 = 4 := fw_of (d * 4096 + a * 64 + b + 9175040) 4 t (by omega) (by omega) (by omega)
  rw [major_23 f0]
  simp only [rawVop, rawVop1, f1, f2, f3, f4, f5]
  rfl

theorem vfma (d a b t : Nat) : Statement (.vfma d a b t) := by
  refine statement_of rfl fun hl => ?_
  replace hl : (isV d && isV a && isV b && isFloatT t) = true := hl
  simp only [Bool.and_eq_true] at hl
  obtain ⟨⟨⟨h0, h1⟩, h2⟩, h3⟩ := hl
  have hd := isV_lt h0
  have ha := isV_lt h1
  have hb := isV_lt h2
  have ht := isFloatT_lt h3
  generalize hW : 0x8C000050 + d * 0x100000 + a * 0x4000 + b * 0x100 + t = W
  have f0 : fw W 31 26 = 35 := fw_of 0 35 (d * 1048576 + a * 16384 + b * 256 + t + 80) (by omega) (by omega) (by omega)
  have f1 : fw W 25 20 = d := fw_of 35 d (a * 16384 + b * 256 + t + 80) (by omega) (by omega) (by omega)
  have f2 : fw W 19 14 = a := fw_of (d + 2240) a (b * 256 + t + 80) (by omega) (by omega) (by omega)
  have f3 : fw W 13 8 = b := fw_of (d * 64 + a + 143360) b (t + 80) (by omega) (by omega) (by omega)
  have f4 : fw W 3 0 = t := fw_of (d * 65536 + a * 1024 + b * 16 + 146800645) t 0 (by omega) (by omega) (by omega)
  have f5 : fw W 7 4 = 5 := fw_of (d * 4096 + a * 64 + b + 9175040) 5 t (by omega) (by omega) (by omega)
  rw [major_23 f0]
  simp only [rawVop, rawVop1, f1, f2, f3, f4, f5]
  rfl

theorem vshl (d a b t : Nat) : Statement (.vshl d a b t) := by
  refine statement_of rfl fun hl => ?_
  replace hl : (isV d && isV a && isV b && isIntT t) = true := hl
  simp only [Bool.and_eq_true] at hl
  obtain ⟨⟨⟨h0, h1⟩, h2⟩, h3⟩ := hl
  have hd := isV_lt h0
  have ha := isV_lt h1
  have hb := isV_lt h2
  have ht := isIntT_lt h3
  generalize hW : 0x8C000060 + d * 0x100000 + a * 0x4000 + b * 0x100 + t = W
  have f0 : fw W 31 26 = 35 := fw_of 0 35 (d * 1048576 + a * 16384 + b * 256 + t + 96) (by omega) (by omega) (by omega)
  have f1 : fw W 25 20 = d := fw_of 35 d (a * 16384 + b * 256 + t + 96) (by omega) (by omega) (by omega)
  have f2 : fw W 19 14 = a := fw_of (d + 2240) a (b * 256 + t + 96) (by omega) (by omega) (by omega)
  have f3 : fw W 13 8 = b := fw_of (d * 64 + a + 143360) b (t + 96) (by omega) (by omega) (by omega)
  have f4 : fw W 3 0 = t := fw_of (d * 65536 + a * 1024 + b * 16 + 146800646) t 0 (by omega) (by omega) (by omega)
  have f5 : fw W 7 4 = 6 := fw_of (d * 4096 + a * 64 + b + 9175040) 6 t (by omega) (by omega) (by omega)
  rw [major_23 f0]
  simp only [rawVop, rawVop1, f1, f2, f3, f4, f5]
  rfl

theorem vshr (d a b t : Nat) : Statement (.vshr d a b t) := by
  refine statement_of rfl fun hl => ?_
  replace hl : (isV d && isV a && isV b && isIntT t) = true := hl
  simp only [Bool.and_eq_true] at hl
  obtain ⟨⟨⟨h0, h1⟩, h2⟩, h3⟩ := hl
  have hd := isV_lt h0
  have ha := isV_lt h1
  have hb := isV_lt h2
  have ht := isIntT_lt h3
  generalize hW : 0x8C000070 + d * 0x100000 + a * 0x4000 + b * 0x100 + t = W
  have f0 : fw W 31 26 = 35 := fw_of 0 35 (d * 1048576 + a * 16384 + b * 256 + t + 112) (by omega) (by omega) (by omega)
  have f1 : fw W 25 20 = d := fw_of 35 d (a * 16384 + b * 256 + t + 112) (by omega) (by omega) (by omega)
  have f2 : fw W 19 14 = a := fw_of (d + 2240) a (b * 256 + t + 112) (by omega) (by omega) (by omega)
  have f3 : fw W 13 8 = b := fw_of (d * 64 + a + 143360) b (t + 112) (by omega) (by omega) (by omega)
  have f4 : fw W 3 0 = t := fw_of (d * 65536 + a * 1024 + b * 16 + 146800647) t 0 (by omega) (by omega) (by omega)
  have f5 : fw W 7 4 = 7 := fw_of (d * 4096 + a * 64 + b + 9175040) 7 t (by omega) (by omega) (by omega)
  rw [major_23 f0]
  simp only [rawVop, rawVop1, f1, f2, f3, f4, f5]
  rfl

theorem vcmpEq (d a b t : Nat) : Statement (.vcmpEq d a b t) := by
  refine statement_of rfl fun hl => ?_
  replace hl : (isQd d && isV a && isV b && isT t) = true := hl
  simp only [Bool.and_eq_true] at hl
  obtain ⟨⟨⟨h0, h1⟩, h2⟩, h3⟩ := hl
  have hd := isQd_lt h0
  have ha := isV_lt h1
  have hb := isV_lt h2
  have ht := isT_lt h3
  generalize hW : 0x8C000080 + d * 0x100000 + a * 0x4000 + b * 0x100 + t = W
  have f0 : fw W 31 26 = 35 := fw_of 0 35 (d * 1048576 + a * 16384 + b * 256 + t + 128) (by omega) (by omega) (by omega)
  have f1 : fw W 25 20 = d := fw_of 35 d (a * 16384 + b * 256 + t + 128) (by omega) (by omega) (by omega)
  have f2 : fw W 19 14 = a := fw_of (d + 2240) a (b * 256 + t + 128) (by omega) (by omega) (by omega)
  have f3 : fw W 13 8 = b := fw_of (d * 64 + a + 143360) b (t + 128) (by omega) (by omega) (by omega)
  have f4 : fw W 3 0 = t := fw_of (d * 65536 + a * 1024 + b * 16 + 146800648) t 0 (by omega) (by omega) (by omega)
  have f5 : fw W 7 4 = 8 := fw_of (d * 4096 + a * 64 + b + 9175040) 8 t (by omega) (by omega) (by omega)
  rw [major_23 f0]
  simp only [rawVop, rawVop1, f1, f2, f3, f4, f5]
  rfl

theorem vcmpLt (d a b t : Nat) : Statement (.vcmpLt d a b t) := by
  refine statement_of rfl fun hl => ?_
  replace hl : (isQd d && isV a && isV b && isT t) = true := hl
  simp only [Bool.and_eq_true] at hl
  obtain ⟨⟨⟨h0, h1⟩, h2⟩, h3⟩ := hl
  have hd := isQd_lt h0
  have ha := isV_lt h1
  have hb := isV_lt h2
  have ht := isT_lt h3
  generalize hW : 0x8C000090 + d * 0x100000 + a * 0x4000 + b * 0x100 + t = W
  have f0 : fw W 31 26 = 35 := fw_of 0 35 (d * 1048576 + a * 16384 + b * 256 + t + 144) (by omega) (by omega) (by omega)
  have f1 : fw W 25 20 = d := fw_of 35 d (a * 16384 + b * 256 + t + 144) (by omega) (by omega) (by omega)
  have f2 : fw W 19 14 = a := fw_of (d + 2240) a (b * 256 + t + 144) (by omega) (by omega) (by omega)
  have f3 : fw W 13 8 = b := fw_of (d * 64 + a + 143360) b (t + 144) (by omega) (by omega) (by omega)
  have f4 : fw W 3 0 = t := fw_of (d * 65536 + a * 1024 + b * 16 + 146800649) t 0 (by omega) (by omega) (by omega)
  have f5 : fw W 7 4 = 9 := fw_of (d * 4096 + a * 64 + b + 9175040) 9 t (by omega) (by omega) (by omega)
  rw [major_23 f0]
  simp only [rawVop, rawVop1, f1, f2, f3, f4, f5]
  rfl

theorem vcmpLe (d a b t : Nat) : Statement (.vcmpLe d a b t) := by
  refine statement_of rfl fun hl => ?_
  replace hl : (isQd d && isV a && isV b && isT t) = true := hl
  simp only [Bool.and_eq_true] at hl
  obtain ⟨⟨⟨h0, h1⟩, h2⟩, h3⟩ := hl
  have hd := isQd_lt h0
  have ha := isV_lt h1
  have hb := isV_lt h2
  have ht := isT_lt h3
  generalize hW : 0x8C0000A0 + d * 0x100000 + a * 0x4000 + b * 0x100 + t = W
  have f0 : fw W 31 26 = 35 := fw_of 0 35 (d * 1048576 + a * 16384 + b * 256 + t + 160) (by omega) (by omega) (by omega)
  have f1 : fw W 25 20 = d := fw_of 35 d (a * 16384 + b * 256 + t + 160) (by omega) (by omega) (by omega)
  have f2 : fw W 19 14 = a := fw_of (d + 2240) a (b * 256 + t + 160) (by omega) (by omega) (by omega)
  have f3 : fw W 13 8 = b := fw_of (d * 64 + a + 143360) b (t + 160) (by omega) (by omega) (by omega)
  have f4 : fw W 3 0 = t := fw_of (d * 65536 + a * 1024 + b * 16 + 146800650) t 0 (by omega) (by omega) (by omega)
  have f5 : fw W 7 4 = 10 := fw_of (d * 4096 + a * 64 + b + 9175040) 10 t (by omega) (by omega) (by omega)
  rw [major_23 f0]
  simp only [rawVop, rawVop1, f1, f2, f3, f4, f5]
  rfl

theorem vabs (d a t : Nat) : Statement (.vabs d a t) := by
  refine statement_of rfl fun hl => ?_
  replace hl : (isV d && isV a && (isFloatT t || isSignedT t)) = true := hl
  simp only [Bool.and_eq_true] at hl
  obtain ⟨⟨h0, h1⟩, h2⟩ := hl
  have hd := isV_lt h0
  have ha := isV_lt h1
  have ht := floatOrSigned_lt h2
  generalize hW : 0x8C0000B0 + d * 0x100000 + a * 0x4000 + t = W
  have f0 : fw W 31 26 = 35 := fw_of 0 35 (d * 1048576 + a * 16384 + t + 176) (by omega) (by omega) (by omega)
  have f1 : fw W 25 20 = d := fw_of 35 d (a * 16384 + t + 176) (by omega) (by omega) (by omega)
  have f2 : fw W 19 14 = a := fw_of (d + 2240) a (t + 176) (by omega) (by omega) (by omega)
  have f3 : fw W 3 0 = t := fw_of (d * 65536 + a * 1024 + 146800651) t 0 (by omega) (by omega) (by omega)
  have f4 : fw W 7 4 = 11 := fw_of (d * 4096 + a * 64 + 9175040) 11 t (by omega) (by omega) (by omega)
  have f5 : fw W 13 4 = 11 := fw_of (d * 64 + a + 143360) 11 t (by omega) (by omega) (by omega)
  rw [major_23 f0]
  simp only [rawVop, rawVop1, f1, f2, f3, f4, f5]
  rfl

theorem vneg (d a t : Nat) : Statement (.vneg d a t) := by
  refine statement_of rfl fun hl => ?_
  replace hl : (isV d && isV a && (isFloatT t || isSignedT t)) = true := hl
  simp only [Bool.and_eq_true] at hl
  obtain ⟨⟨h0, h1⟩, h2⟩ := hl
  have hd := isV_lt h0
  have ha := isV_lt h1
  have ht := floatOrSigned_lt h2
  generalize hW : 0x8C0001B0 + d * 0x100000 + a * 0x4000 + t = W
  have f0 : fw W 31 26 = 35 := fw_of 0 35 (d * 1048576 + a * 16384 + t + 432) (by omega) (by omega) (by omega)
  have f1 : fw W 25 20 = d := fw_of 35 d (a * 16384 + t + 432) (by omega) (by omega) (by omega)
  have f2 : fw W 19 14 = a := fw_of (d + 2240) a (t + 432) (by omega) (by omega) (by omega)
  have f3 : fw W 3 0 = t := fw_of (d * 65536 + a * 1024 + 146800667) t 0 (by omega) (by omega) (by omega)
  have f4 : fw W 7 4 = 11 := fw_of (d * 4096 + a * 64 + 9175041) 11 t (by omega) (by omega) (by omega)
  have f5 : fw W 13 4 = 27 := fw_of (d * 64 + a + 143360) 27 t (by omega) (by omega) (by omega)
  rw [major_23 f0]
  simp only [rawVop, rawVop1, f1, f2, f3, f4, f5]
  rfl

theorem vrcp (d a t : Nat) : Statement (.vrcp d a t) := by
  refine statement_of rfl fun hl => ?_
  replace hl : (isV d && isV a && isFloatT t) = true := hl
  simp only [Bool.and_eq_true] at hl
  obtain ⟨⟨h0, h1⟩, h2⟩ := hl
  have hd := isV_lt h0
  have ha := isV_lt h1
  have ht := isFloatT_lt h2
  generalize hW : 0x8C0002B0 + d * 0x100000 + a * 0x4000 + t = W
  have f0 : fw W 31 26 = 35 := fw_of 0 35 (d * 1048576 + a * 16384 + t + 688) (by omega) (by omega) (by omega)
  have f1 : fw W 25 20 = d := fw_of 35 d (a * 16384 + t + 688) (by omega) (by omega) (by omega)
  have f2 : fw W 19 14 = a := fw_of (d + 2240) a (t + 688) (by omega) (by omega) (by omega)
  have f3 : fw W 3 0 = t := fw_of (d * 65536 + a * 1024 + 146800683) t 0 (by omega) (by omega) (by omega)
  have f4 : fw W 7 4 = 11 := fw_of (d * 4096 + a * 64 + 9175042) 11 t (by omega) (by omega) (by omega)
  have f5 : fw W 13 4 = 43 := fw_of (d * 64 + a + 143360) 43 t (by omega) (by omega) (by omega)
  rw [major_23 f0]
  simp only [rawVop, rawVop1, f1, f2, f3, f4, f5]
  rfl

theorem vrsq (d a t : Nat) : Statement (.vrsq d a t) := by
  refine statement_of rfl fun hl => ?_
  replace hl : (isV d && isV a && isFloatT t) = true := hl
  simp only [Bool.and_eq_true] at hl
  obtain ⟨⟨h0, h1⟩, h2⟩ := hl
  have hd := isV_lt h0
  have ha := isV_lt h1
  have ht := isFloatT_lt h2
  generalize hW : 0x8C0003B0 + d * 0x100000 + a * 0x4000 + t = W
  have f0 : fw W 31 26 = 35 := fw_of 0 35 (d * 1048576 + a * 16384 + t + 944) (by omega) (by omega) (by omega)
  have f1 : fw W 25 20 = d := fw_of 35 d (a * 16384 + t + 944) (by omega) (by omega) (by omega)
  have f2 : fw W 19 14 = a := fw_of (d + 2240) a (t + 944) (by omega) (by omega) (by omega)
  have f3 : fw W 3 0 = t := fw_of (d * 65536 + a * 1024 + 146800699) t 0 (by omega) (by omega) (by omega)
  have f4 : fw W 7 4 = 11 := fw_of (d * 4096 + a * 64 + 9175043) 11 t (by omega) (by omega) (by omega)
  have f5 : fw W 13 4 = 59 := fw_of (d * 64 + a + 143360) 59 t (by omega) (by omega) (by omega)
  rw [major_23 f0]
  simp only [rawVop, rawVop1, f1, f2, f3, f4, f5]
  rfl

theorem vexp2 (d a t : Nat) : Statement (.vexp2 d a t) := by
  refine statement_of rfl fun hl => ?_
  replace hl : (isV d && isV a && isFloatT t) = true := hl
  simp only [Bool.and_eq_true] at hl
  obtain ⟨⟨h0, h1⟩, h2⟩ := hl
  have hd := isV_lt h0
  have ha := isV_lt h1
  have ht := isFloatT_lt h2
  generalize hW : 0x8C0004B0 + d * 0x100000 + a * 0x4000 + t = W
  have f0 : fw W 31 26 = 35 := fw_of 0 35 (d * 1048576 + a * 16384 + t + 1200) (by omega) (by omega) (by omega)
  have f1 : fw W 25 20 = d := fw_of 35 d (a * 16384 + t + 1200) (by omega) (by omega) (by omega)
  have f2 : fw W 19 14 = a := fw_of (d + 2240) a (t + 1200) (by omega) (by omega) (by omega)
  have f3 : fw W 3 0 = t := fw_of (d * 65536 + a * 1024 + 146800715) t 0 (by omega) (by omega) (by omega)
  have f4 : fw W 7 4 = 11 := fw_of (d * 4096 + a * 64 + 9175044) 11 t (by omega) (by omega) (by omega)
  have f5 : fw W 13 4 = 75 := fw_of (d * 64 + a + 143360) 75 t (by omega) (by omega) (by omega)
  rw [major_23 f0]
  simp only [rawVop, rawVop1, f1, f2, f3, f4, f5]
  rfl

theorem vlog2 (d a t : Nat) : Statement (.vlog2 d a t) := by
  refine statement_of rfl fun hl => ?_
  replace hl : (isV d && isV a && isFloatT t) = true := hl
  simp only [Bool.and_eq_true] at hl
  obtain ⟨⟨h0, h1⟩, h2⟩ := hl
  have hd := isV_lt h0
  have ha := isV_lt h1
  have ht := isFloatT_lt h2
  generalize hW : 0x8C0005B0 + d * 0x100000 + a * 0x4000 + t = W
  have f0 : fw W 31 26 = 35 := fw_of 0 35 (d * 1048576 + a * 16384 + t + 1456) (by omega) (by omega) (by omega)
  have f1 : fw W 25 20 = d := fw_of 35 d (a * 16384 + t + 1456) (by omega) (by omega) (by omega)
  have f2 : fw W 19 14 = a := fw_of (d + 2240) a (t + 1456) (by omega) (by omega) (by omega)
  have f3 : fw W 3 0 = t := fw_of (d * 65536 + a * 1024 + 146800731) t 0 (by omega) (by omega) (by omega)
  have f4 : fw W 7 4 = 11 := fw_of (d * 4096 + a * 64 + 9175045) 11 t (by omega) (by omega) (by omega)
  have f5 : fw W 13 4 = 91 := fw_of (d * 64 + a + 143360) 91 t (by omega) (by omega) (by omega)
  rw [major_23 f0]
  simp only [rawVop, rawVop1, rawVop2, f1, f2, f3, f4, f5]
  rfl

theorem vtanh (d a t : Nat) : Statement (.vtanh d a t) := by
  refine statement_of rfl fun hl => ?_
  replace hl : (isV d && isV a && isFloatT t) = true := hl
  simp only [Bool.and_eq_true] at hl
  obtain ⟨⟨h0, h1⟩, h2⟩ := hl
  have hd := isV_lt h0
  have ha := isV_lt h1
  have ht := isFloatT_lt h2
  generalize hW : 0x8C0006B0 + d * 0x100000 + a * 0x4000 + t = W
  have f0 : fw W 31 26 = 35 := fw_of 0 35 (d * 1048576 + a * 16384 + t + 1712) (by omega) (by omega) (by omega)
  have f1 : fw W 25 20 = d := fw_of 35 d (a * 16384 + t + 1712) (by omega) (by omega) (by omega)
  have f2 : fw W 19 14 = a := fw_of (d + 2240) a (t + 1712) (by omega) (by omega) (by omega)
  have f3 : fw W 3 0 = t := fw_of (d * 65536 + a * 1024 + 146800747) t 0 (by omega) (by omega) (by omega)
  have f4 : fw W 7 4 = 11 := fw_of (d * 4096 + a * 64 + 9175046) 11 t (by omega) (by omega) (by omega)
  have f5 : fw W 13 4 = 107 := fw_of (d * 64 + a + 143360) 107 t (by omega) (by omega) (by omega)
  rw [major_23 f0]
  simp only [rawVop, rawVop1, rawVop2, f1, f2, f3, f4, f5]
  rfl

theorem vsum (d a t : Nat) : Statement (.vsum d a t) := by
  refine statement_of rfl fun hl => ?_
  replace hl : (isV d && isV a && isT t) = true := hl
  simp only [Bool.and_eq_true] at hl
  obtain ⟨⟨h0, h1⟩, h2⟩ := hl
  have hd := isV_lt h0
  have ha := isV_lt h1
  have ht := isT_lt h2
  generalize hW : 0x8C0000C0 + d * 0x100000 + a * 0x4000 + t = W
  have f0 : fw W 31 26 = 35 := fw_of 0 35 (d * 1048576 + a * 16384 + t + 192) (by omega) (by omega) (by omega)
  have f1 : fw W 25 20 = d := fw_of 35 d (a * 16384 + t + 192) (by omega) (by omega) (by omega)
  have f2 : fw W 19 14 = a := fw_of (d + 2240) a (t + 192) (by omega) (by omega) (by omega)
  have f3 : fw W 3 0 = t := fw_of (d * 65536 + a * 1024 + 146800652) t 0 (by omega) (by omega) (by omega)
  have f4 : fw W 7 4 = 12 := fw_of (d * 4096 + a * 64 + 9175040) 12 t (by omega) (by omega) (by omega)
  have f5 : fw W 13 4 = 12 := fw_of (d * 64 + a + 143360) 12 t (by omega) (by omega) (by omega)
  rw [major_23 f0]
  simp only [rawVop, rawVop1, rawVop2, f1, f2, f3, f4, f5]
  rfl

theorem vrmax (d a t : Nat) : Statement (.vrmax d a t) := by
  refine statement_of rfl fun hl => ?_
  replace hl : (isV d && isV a && isT t) = true := hl
  simp only [Bool.and_eq_true] at hl
  obtain ⟨⟨h0, h1⟩, h2⟩ := hl
  have hd := isV_lt h0
  have ha := isV_lt h1
  have ht := isT_lt h2
  generalize hW : 0x8C0001C0 + d * 0x100000 + a * 0x4000 + t = W
  have f0 : fw W 31 26 = 35 := fw_of 0 35 (d * 1048576 + a * 16384 + t + 448) (by omega) (by omega) (by omega)
  have f1 : fw W 25 20 = d := fw_of 35 d (a * 16384 + t + 448) (by omega) (by omega) (by omega)
  have f2 : fw W 19 14 = a := fw_of (d + 2240) a (t + 448) (by omega) (by omega) (by omega)
  have f3 : fw W 3 0 = t := fw_of (d * 65536 + a * 1024 + 146800668) t 0 (by omega) (by omega) (by omega)
  have f4 : fw W 7 4 = 12 := fw_of (d * 4096 + a * 64 + 9175041) 12 t (by omega) (by omega) (by omega)
  have f5 : fw W 13 4 = 28 := fw_of (d * 64 + a + 143360) 28 t (by omega) (by omega) (by omega)
  rw [major_23 f0]
  simp only [rawVop, rawVop1, rawVop2, f1, f2, f3, f4, f5]
  rfl

theorem vand (d a b : Nat) : Statement (.vand d a b) := by
  refine statement_of rfl fun hl => ?_
  replace hl : (isV d && isV a && isV b) = true := hl
  simp only [Bool.and_eq_true] at hl
  obtain ⟨⟨h0, h1⟩, h2⟩ := hl
  have hd := isV_lt h0
  have ha := isV_lt h1
  have hb := isV_lt h2
  generalize hW : 0x8C0000D0 + d * 0x100000 + a * 0x4000 + b * 0x100 = W
  have f0 : fw W 31 26 = 35 := fw_of 0 35 (d * 1048576 + a * 16384 + b * 256 + 208) (by omega) (by omega) (by omega)
  have f1 : fw W 25 20 = d := fw_of 35 d (a * 16384 + b * 256 + 208) (by omega) (by omega) (by omega)
  have f2 : fw W 19 14 = a := fw_of (d + 2240) a (b * 256 + 208) (by omega) (by omega) (by omega)
  have f3 : fw W 13 8 = b := fw_of (d * 64 + a + 143360) b 208 (by omega) (by omega) (by omega)
  have f4 : fw W 7 4 = 13 := fw_of (d * 4096 + a * 64 + b + 9175040) 13 0 (by omega) (by omega) (by omega)
  have f5 : ¬fw W 13 4 = 11 := by rw [fw_of (d * 64 + a + 143360) (b * 16 + 13) 0 (by omega) (by omega) (by omega)]; omega
  have f6 : ¬fw W 13 4 = 27 := by rw [fw_of (d * 64 + a + 143360) (b * 16 + 13) 0 (by omega) (by omega) (by omega)]; omega
  have f7 : ¬fw W 13 4 = 43 := by rw [fw_of (d * 64 + a + 143360) (b * 16 + 13) 0 (by omega) (by omega) (by omega)]; omega
  have f8 : ¬fw W 13 4 = 59 := by rw [fw_of (d * 64 + a + 143360) (b * 16 + 13) 0 (by omega) (by omega) (by omega)]; omega
  have f9 : ¬fw W 13 4 = 75 := by rw [fw_of (d * 64 + a + 143360) (b * 16 + 13) 0 (by omega) (by omega) (by omega)]; omega
  have f10 : ¬fw W 13 4 = 91 := by rw [fw_of (d * 64 + a + 143360) (b * 16 + 13) 0 (by omega) (by omega) (by omega)]; omega
  have f11 : ¬fw W 13 4 = 107 := by rw [fw_of (d * 64 + a + 143360) (b * 16 + 13) 0 (by omega) (by omega) (by omega)]; omega
  have f12 : ¬fw W 13 4 = 12 := by rw [fw_of (d * 64 + a + 143360) (b * 16 + 13) 0 (by omega) (by omega) (by omega)]; omega
  have f13 : ¬fw W 13 4 = 28 := by rw [fw_of (d * 64 + a + 143360) (b * 16 + 13) 0 (by omega) (by omega) (by omega)]; omega
  have f14 : fw W 7 0 = 208 := fw_of (d * 4096 + a * 64 + b + 9175040) 208 0 (by omega) (by omega) (by omega)
  rw [major_23 f0]
  simp only [rawVop, rawVop1, rawVop2, f1, f2, f3, f4, f5, f6, f7, f8, f9, f10, f11, f12, f13, f14]
  rfl

theorem vor (d a b : Nat) : Statement (.vor d a b) := by
  refine statement_of rfl fun hl => ?_
  replace hl : (isV d && isV a && isV b) = true := hl
  simp only [Bool.and_eq_true] at hl
  obtain ⟨⟨h0, h1⟩, h2⟩ := hl
  have hd := isV_lt h0
  have ha := isV_lt h1
  have hb := isV_lt h2
  generalize hW : 0x8C0000D1 + d * 0x100000 + a * 0x4000 + b * 0x100 = W
  have f0 : fw W 31 26 = 35 := fw_of 0 35 (d * 1048576 + a * 16384 + b * 256 + 209) (by omega) (by omega) (by omega)
  have f1 : fw W 25 20 = d := fw_of 35 d (a * 16384 + b * 256 + 209) (by omega) (by omega) (by omega)
  have f2 : fw W 19 14 = a := fw_of (d + 2240) a (b * 256 + 209) (by omega) (by omega) (by omega)
  have f3 : fw W 13 8 = b := fw_of (d * 64 + a + 143360) b 209 (by omega) (by omega) (by omega)
  have f4 : fw W 7 4 = 13 := fw_of (d * 4096 + a * 64 + b + 9175040) 13 1 (by omega) (by omega) (by omega)
  have f5 : ¬fw W 13 4 = 11 := by rw [fw_of (d * 64 + a + 143360) (b * 16 + 13) 1 (by omega) (by omega) (by omega)]; omega
  have f6 : ¬fw W 13 4 = 27 := by rw [fw_of (d * 64 + a + 143360) (b * 16 + 13) 1 (by omega) (by omega) (by omega)]; omega
  have f7 : ¬fw W 13 4 = 43 := by rw [fw_of (d * 64 + a + 143360) (b * 16 + 13) 1 (by omega) (by omega) (by omega)]; omega
  have f8 : ¬fw W 13 4 = 59 := by rw [fw_of (d * 64 + a + 143360) (b * 16 + 13) 1 (by omega) (by omega) (by omega)]; omega
  have f9 : ¬fw W 13 4 = 75 := by rw [fw_of (d * 64 + a + 143360) (b * 16 + 13) 1 (by omega) (by omega) (by omega)]; omega
  have f10 : ¬fw W 13 4 = 91 := by rw [fw_of (d * 64 + a + 143360) (b * 16 + 13) 1 (by omega) (by omega) (by omega)]; omega
  have f11 : ¬fw W 13 4 = 107 := by rw [fw_of (d * 64 + a + 143360) (b * 16 + 13) 1 (by omega) (by omega) (by omega)]; omega
  have f12 : ¬fw W 13 4 = 12 := by rw [fw_of (d * 64 + a + 143360) (b * 16 + 13) 1 (by omega) (by omega) (by omega)]; omega
  have f13 : ¬fw W 13 4 = 28 := by rw [fw_of (d * 64 + a + 143360) (b * 16 + 13) 1 (by omega) (by omega) (by omega)]; omega
  have f14 : fw W 7 0 = 209 := fw_of (d * 4096 + a * 64 + b + 9175040) 209 0 (by omega) (by omega) (by omega)
  rw [major_23 f0]
  simp only [rawVop, rawVop1, rawVop2, f1, f2, f3, f4, f5, f6, f7, f8, f9, f10, f11, f12, f13, f14]
  rfl

theorem vxor (d a b : Nat) : Statement (.vxor d a b) := by
  refine statement_of rfl fun hl => ?_
  replace hl : (isV d && isV a && isV b) = true := hl
  simp only [Bool.and_eq_true] at hl
  obtain ⟨⟨h0, h1⟩, h2⟩ := hl
  have hd := isV_lt h0
  have ha := isV_lt h1
  have hb := isV_lt h2
  generalize hW : 0x8C0000D2 + d * 0x100000 + a * 0x4000 + b * 0x100 = W
  have f0 : fw W 31 26 = 35 := fw_of 0 35 (d * 1048576 + a * 16384 + b * 256 + 210) (by omega) (by omega) (by omega)
  have f1 : fw W 25 20 = d := fw_of 35 d (a * 16384 + b * 256 + 210) (by omega) (by omega) (by omega)
  have f2 : fw W 19 14 = a := fw_of (d + 2240) a (b * 256 + 210) (by omega) (by omega) (by omega)
  have f3 : fw W 13 8 = b := fw_of (d * 64 + a + 143360) b 210 (by omega) (by omega) (by omega)
  have f4 : fw W 7 4 = 13 := fw_of (d * 4096 + a * 64 + b + 9175040) 13 2 (by omega) (by omega) (by omega)
  have f5 : ¬fw W 13 4 = 11 := by rw [fw_of (d * 64 + a + 143360) (b * 16 + 13) 2 (by omega) (by omega) (by omega)]; omega
  have f6 : ¬fw W 13 4 = 27 := by rw [fw_of (d * 64 + a + 143360) (b * 16 + 13) 2 (by omega) (by omega) (by omega)]; omega
  have f7 : ¬fw W 13 4 = 43 := by rw [fw_of (d * 64 + a + 143360) (b * 16 + 13) 2 (by omega) (by omega) (by omega)]; omega
  have f8 : ¬fw W 13 4 = 59 := by rw [fw_of (d * 64 + a + 143360) (b * 16 + 13) 2 (by omega) (by omega) (by omega)]; omega
  have f9 : ¬fw W 13 4 = 75 := by rw [fw_of (d * 64 + a + 143360) (b * 16 + 13) 2 (by omega) (by omega) (by omega)]; omega
  have f10 : ¬fw W 13 4 = 91 := by rw [fw_of (d * 64 + a + 143360) (b * 16 + 13) 2 (by omega) (by omega) (by omega)]; omega
  have f11 : ¬fw W 13 4 = 107 := by rw [fw_of (d * 64 + a + 143360) (b * 16 + 13) 2 (by omega) (by omega) (by omega)]; omega
  have f12 : ¬fw W 13 4 = 12 := by rw [fw_of (d * 64 + a + 143360) (b * 16 + 13) 2 (by omega) (by omega) (by omega)]; omega
  have f13 : ¬fw W 13 4 = 28 := by rw [fw_of (d * 64 + a + 143360) (b * 16 + 13) 2 (by omega) (by omega) (by omega)]; omega
  have f14 : fw W 7 0 = 210 := fw_of (d * 4096 + a * 64 + b + 9175040) 210 0 (by omega) (by omega) (by omega)
  rw [major_23 f0]
  simp only [rawVop, rawVop1, rawVop2, f1, f2, f3, f4, f5, f6, f7, f8, f9, f10, f11, f12, f13, f14]
  rfl

theorem vsel (d a b w : Nat) : Statement (.vsel d a b w) := by
  refine statement_of rfl fun hl => ?_
  replace hl : (isV d && isV a && isQ b && below 3 w) = true := hl
  simp only [Bool.and_eq_true] at hl
  obtain ⟨⟨⟨h0, h1⟩, h2⟩, h3⟩ := hl
  have hd := isV_lt h0
  have ha := isV_lt h1
  have hb := isQ_lt h2
  have hw := below_lt h3
  generalize hW : 0x8C0000E0 + d * 0x100000 + a * 0x4000 + b * 0x100 + w * 0x4 = W
  have f0 : fw W 31 26 = 35 := fw_of 0 35 (d * 1048576 + a * 16384 + b * 256 + w * 4 + 224) (by omega) (by omega) (by omega)
  have f1 : fw W 25 20 = d := fw_of 35 d (a * 16384 + b * 256 + w * 4 + 224) (by omega) (by omega) (by omega)
  have f2 : fw W 19 14 = a := fw_of (d + 2240) a (b * 256 + w * 4 + 224) (by omega) (by omega) (by omega)
  have f3 : fw W 13 8 = b := fw_of (d * 64 + a + 143360) b (w * 4 + 224) (by omega) (by omega) (by omega)
  have f4 : fw W 3 2 = w := fw_of (d * 65536 + a * 1024 + b * 16 + 146800654) w 0 (by omega) (by omega) (by omega)
  have f5 : fw W 7 4 = 14 := fw_of (d * 4096 + a * 64 + b + 9175040) 14 (w * 4) (by omega) (by omega) (by omega)
  have f6 : ¬fw W 13 4 = 11 := by rw [fw_of (d * 64 + a + 143360) (b * 16 + 14) (w * 4) (by omega) (by omega) (by omega)]; omega
  have f7 : ¬fw W 13 4 = 27 := by rw [fw_of (d * 64 + a + 143360) (b * 16 + 14) (w * 4) (by omega) (by omega) (by omega)]; omega
  have f8 : ¬fw W 13 4 = 43 := by rw [fw_of (d * 64 + a + 143360) (b * 16 + 14) (w * 4) (by omega) (by omega) (by omega)]; omega
  have f9 : ¬fw W 13 4 = 59 := by rw [fw_of (d * 64 + a + 143360) (b * 16 + 14) (w * 4) (by omega) (by omega) (by omega)]; omega
  have f10 : ¬fw W 13 4 = 75 := by rw [fw_of (d * 64 + a + 143360) (b * 16 + 14) (w * 4) (by omega) (by omega) (by omega)]; omega
  have f11 : ¬fw W 13 4 = 91 := by rw [fw_of (d * 64 + a + 143360) (b * 16 + 14) (w * 4) (by omega) (by omega) (by omega)]; omega
  have f12 : ¬fw W 13 4 = 107 := by rw [fw_of (d * 64 + a + 143360) (b * 16 + 14) (w * 4) (by omega) (by omega) (by omega)]; omega
  have f13 : ¬fw W 13 4 = 12 := by rw [fw_of (d * 64 + a + 143360) (b * 16 + 14) (w * 4) (by omega) (by omega) (by omega)]; omega
  have f14 : ¬fw W 13 4 = 28 := by rw [fw_of (d * 64 + a + 143360) (b * 16 + 14) (w * 4) (by omega) (by omega) (by omega)]; omega
  have f15 : ¬fw W 7 0 = 208 := by rw [fw_of (d * 4096 + a * 64 + b + 9175040) (w * 4 + 224) 0 (by omega) (by omega) (by omega)]; omega
  have f16 : ¬fw W 7 0 = 209 := by rw [fw_of (d * 4096 + a * 64 + b + 9175040) (w * 4 + 224) 0 (by omega) (by omega) (by omega)]; omega
  have f17 : ¬fw W 7 0 = 210 := by rw [fw_of (d * 4096 + a * 64 + b + 9175040) (w * 4 + 224) 0 (by omega) (by omega) (by omega)]; omega
  have f18 : fw W 1 0 = 0 := fw_of (d * 262144 + a * 4096 + b * 64 + w + 587202616) 0 0 (by omega) (by omega) (by omega)
  rw [major_23 f0]
  simp only [rawVop, rawVop1, rawVop2, f1, f2, f3, f4, f5, f6, f7, f8, f9, f10, f11, f12, f13, f14, f15, f16, f17, f18]
  rfl

theorem vperm (d a b w : Nat) : Statement (.vperm d a b w) := by
  refine statement_of rfl fun hl => ?_
  replace hl : (isV d && isV a && isV b && below 3 w) = true := hl
  simp only [Bool.and_eq_true] at hl
  obtain ⟨⟨⟨h0, h1⟩, h2⟩, h3⟩ := hl
  have hd := isV_lt h0
  have ha := isV_lt h1
  have hb := isV_lt h2
  have hw := below_lt h3
  generalize hW : 0x8C0000E1 + d * 0x100000 + a * 0x4000 + b * 0x100 + w * 0x4 = W
  have f0 : fw W 31 26 = 35 := fw_of 0 35 (d * 1048576 + a * 16384 + b * 256 + w * 4 + 225) (by omega) (by omega) (by omega)
  have f1 : fw W 25 20 = d := fw_of 35 d (a * 16384 + b * 256 + w * 4 + 225) (by omega) (by omega) (by omega)
  have f2 : fw W 19 14 = a := fw_of (d + 2240) a (b * 256 + w * 4 + 225) (by omega) (by omega) (by omega)
  have f3 : fw W 13 8 = b := fw_of (d * 64 + a + 143360) b (w * 4 + 225) (by omega) (by omega) (by omega)
  have f4 : fw W 3 2 = w := fw_of (d * 65536 + a * 1024 + b * 16 + 146800654) w 1 (by omega) (by omega) (by omega)
  have f5 : fw W 7 4 = 14 := fw_of (d * 4096 + a * 64 + b + 9175040) 14 (w * 4 + 1) (by omega) (by omega) (by omega)
  have f6 : ¬fw W 13 4 = 11 := by rw [fw_of (d * 64 + a + 143360) (b * 16 + 14) (w * 4 + 1) (by omega) (by omega) (by omega)]; omega
  have f7 : ¬fw W 13 4 = 27 := by rw [fw_of (d * 64 + a + 143360) (b * 16 + 14) (w * 4 + 1) (by omega) (by omega) (by omega)]; omega
  have f8 : ¬fw W 13 4 = 43 := by rw [fw_of (d * 64 + a + 143360) (b * 16 + 14) (w * 4 + 1) (by omega) (by omega) (by omega)]; omega
  have f9 : ¬fw W 13 4 = 59 := by rw [fw_of (d * 64 + a + 143360) (b * 16 + 14) (w * 4 + 1) (by omega) (by omega) (by omega)]; omega
  have f10 : ¬fw W 13 4 = 75 := by rw [fw_of (d * 64 + a + 143360) (b * 16 + 14) (w * 4 + 1) (by omega) (by omega) (by omega)]; omega
  have f11 : ¬fw W 13 4 = 91 := by rw [fw_of (d * 64 + a + 143360) (b * 16 + 14) (w * 4 + 1) (by omega) (by omega) (by omega)]; omega
  have f12 : ¬fw W 13 4 = 107 := by rw [fw_of (d * 64 + a + 143360) (b * 16 + 14) (w * 4 + 1) (by omega) (by omega) (by omega)]; omega
  have f13 : ¬fw W 13 4 = 12 := by rw [fw_of (d * 64 + a + 143360) (b * 16 + 14) (w * 4 + 1) (by omega) (by omega) (by omega)]; omega
  have f14 : ¬fw W 13 4 = 28 := by rw [fw_of (d * 64 + a + 143360) (b * 16 + 14) (w * 4 + 1) (by omega) (by omega) (by omega)]; omega
  have f15 : ¬fw W 7 0 = 208 := by rw [fw_of (d * 4096 + a * 64 + b + 9175040) (w * 4 + 225) 0 (by omega) (by omega) (by omega)]; omega
  have f16 : ¬fw W 7 0 = 209 := by rw [fw_of (d * 4096 + a * 64 + b + 9175040) (w * 4 + 225) 0 (by omega) (by omega) (by omega)]; omega
  have f17 : ¬fw W 7 0 = 210 := by rw [fw_of (d * 4096 + a * 64 + b + 9175040) (w * 4 + 225) 0 (by omega) (by omega) (by omega)]; omega
  have f18 : fw W 1 0 = 1 := fw_of (d * 262144 + a * 4096 + b * 64 + w + 587202616) 1 0 (by omega) (by omega) (by omega)
  rw [major_23 f0]
  simp only [rawVop, rawVop1, rawVop2, f1, f2, f3, f4, f5, f6, f7, f8, f9, f10, f11, f12, f13, f14, f15, f16, f17, f18]
  rfl

theorem vext (d a b w : Nat) : Statement (.vext d a b w) := by
  refine statement_of rfl fun hl => ?_
  replace hl : (isG d && isV a && isG b && below 3 w) = true := hl
  simp only [Bool.and_eq_true] at hl
  obtain ⟨⟨⟨h0, h1⟩, h2⟩, h3⟩ := hl
  have hd := isG_lt h0
  have ha := isV_lt h1
  have hb := isG_lt h2
  have hw := below_lt h3
  generalize hW : 0x8C0000E2 + d * 0x100000 + a * 0x4000 + b * 0x100 + w * 0x4 = W
  have f0 : fw W 31 26 = 35 := fw_of 0 35 (d * 1048576 + a * 16384 + b * 256 + w * 4 + 226) (by omega) (by omega) (by omega)
  have f1 : fw W 25 20 = d := fw_of 35 d (a * 16384 + b * 256 + w * 4 + 226) (by omega) (by omega) (by omega)
  have f2 : fw W 19 14 = a := fw_of (d + 2240) a (b * 256 + w * 4 + 226) (by omega) (by omega) (by omega)
  have f3 : fw W 13 8 = b := fw_of (d * 64 + a + 143360) b (w * 4 + 226) (by omega) (by omega) (by omega)
  have f4 : fw W 3 2 = w := fw_of (d * 65536 + a * 1024 + b * 16 + 146800654) w 2 (by omega) (by omega) (by omega)
  have f5 : fw W 7 4 = 14 := fw_of (d * 4096 + a * 64 + b + 9175040) 14 (w * 4 + 2) (by omega) (by omega) (by omega)
  have f6 : ¬fw W 13 4 = 11 := by rw [fw_of (d * 64 + a + 143360) (b * 16 + 14) (w * 4 + 2) (by omega) (by omega) (by omega)]; omega
  have f7 : ¬fw W 13 4 = 27 := by rw [fw_of (d * 64 + a + 143360) (b * 16 + 14) (w * 4 + 2) (by omega) (by omega) (by omega)]; omega
  have f8 : ¬fw W 13 4 = 43 := by rw [fw_of (d * 64 + a + 143360) (b * 16 + 14) (w * 4 + 2) (by omega) (by omega) (by omega)]; omega
  have f9 : ¬fw W 13 4 = 59 := by rw [fw_of (d * 64 + a + 143360) (b * 16 + 14) (w * 4 + 2) (by omega) (by omega) (by omega)]; omega
  have f10 : ¬fw W 13 4 = 75 := by rw [fw_of (d * 64 + a + 143360) (b * 16 + 14) (w * 4 + 2) (by omega) (by omega) (by omega)]; omega
  have f11 : ¬fw W 13 4 = 91 := by rw [fw_of (d * 64 + a + 143360) (b * 16 + 14) (w * 4 + 2) (by omega) (by omega) (by omega)]; omega
  have f12 : ¬fw W 13 4 = 107 := by rw [fw_of (d * 64 + a + 143360) (b * 16 + 14) (w * 4 + 2) (by omega) (by omega) (by omega)]; omega
  have f13 : ¬fw W 13 4 = 12 := by rw [fw_of (d * 64 + a + 143360) (b * 16 + 14) (w * 4 + 2) (by omega) (by omega) (by omega)]; omega
  have f14 : ¬fw W 13 4 = 28 := by rw [fw_of (d * 64 + a + 143360) (b * 16 + 14) (w * 4 + 2) (by omega) (by omega) (by omega)]; omega
  have f15 : ¬fw W 7 0 = 208 := by rw [fw_of (d * 4096 + a * 64 + b + 9175040) (w * 4 + 226) 0 (by omega) (by omega) (by omega)]; omega
  have f16 : ¬fw W 7 0 = 209 := by rw [fw_of (d * 4096 + a * 64 + b + 9175040) (w * 4 + 226) 0 (by omega) (by omega) (by omega)]; omega
  have f17 : ¬fw W 7 0 = 210 := by rw [fw_of (d * 4096 + a * 64 + b + 9175040) (w * 4 + 226) 0 (by omega) (by omega) (by omega)]; omega
  have f18 : fw W 1 0 = 2 := fw_of (d * 262144 + a * 4096 + b * 64 + w + 587202616) 2 0 (by omega) (by omega) (by omega)
  rw [major_23 f0]
  simp only [rawVop, rawVop1, rawVop2, f1, f2, f3, f4, f5, f6, f7, f8, f9, f10, f11, f12, f13, f14, f15, f16, f17, f18]
  rfl

theorem vins (d a b w : Nat) : Statement (.vins d a b w) := by
  refine statement_of rfl fun hl => ?_
  replace hl : (isV d && isG a && isG b && below 3 w) = true := hl
  simp only [Bool.and_eq_true] at hl
  obtain ⟨⟨⟨h0, h1⟩, h2⟩, h3⟩ := hl
  have hd := isV_lt h0
  have ha := isG_lt h1
  have hb := isG_lt h2
  have hw := below_lt h3
  generalize hW : 0x8C0000E3 + d * 0x100000 + a * 0x4000 + b * 0x100 + w * 0x4 = W
  have f0 : fw W 31 26 = 35 := fw_of 0 35 (d * 1048576 + a * 16384 + b * 256 + w * 4 + 227) (by omega) (by omega) (by omega)
  have f1 : fw W 25 20 = d := fw_of 35 d (a * 16384 + b * 256 + w * 4 + 227) (by omega) (by omega) (by omega)
  have f2 : fw W 19 14 = a := fw_of (d + 2240) a (b * 256 + w * 4 + 227) (by omega) (by omega) (by omega)
  have f3 : fw W 13 8 = b := fw_of (d * 64 + a + 143360) b (w * 4 + 227) (by omega) (by omega) (by omega)
  have f4 : fw W 3 2 = w := fw_of (d * 65536 + a * 1024 + b * 16 + 146800654) w 3 (by omega) (by omega) (by omega)
  have f5 : fw W 7 4 = 14 := fw_of (d * 4096 + a * 64 + b + 9175040) 14 (w * 4 + 3) (by omega) (by omega) (by omega)
  have f6 : ¬fw W 13 4 = 11 := by rw [fw_of (d * 64 + a + 143360) (b * 16 + 14) (w * 4 + 3) (by omega) (by omega) (by omega)]; omega
  have f7 : ¬fw W 13 4 = 27 := by rw [fw_of (d * 64 + a + 143360) (b * 16 + 14) (w * 4 + 3) (by omega) (by omega) (by omega)]; omega
  have f8 : ¬fw W 13 4 = 43 := by rw [fw_of (d * 64 + a + 143360) (b * 16 + 14) (w * 4 + 3) (by omega) (by omega) (by omega)]; omega
  have f9 : ¬fw W 13 4 = 59 := by rw [fw_of (d * 64 + a + 143360) (b * 16 + 14) (w * 4 + 3) (by omega) (by omega) (by omega)]; omega
  have f10 : ¬fw W 13 4 = 75 := by rw [fw_of (d * 64 + a + 143360) (b * 16 + 14) (w * 4 + 3) (by omega) (by omega) (by omega)]; omega
  have f11 : ¬fw W 13 4 = 91 := by rw [fw_of (d * 64 + a + 143360) (b * 16 + 14) (w * 4 + 3) (by omega) (by omega) (by omega)]; omega
  have f12 : ¬fw W 13 4 = 107 := by rw [fw_of (d * 64 + a + 143360) (b * 16 + 14) (w * 4 + 3) (by omega) (by omega) (by omega)]; omega
  have f13 : ¬fw W 13 4 = 12 := by rw [fw_of (d * 64 + a + 143360) (b * 16 + 14) (w * 4 + 3) (by omega) (by omega) (by omega)]; omega
  have f14 : ¬fw W 13 4 = 28 := by rw [fw_of (d * 64 + a + 143360) (b * 16 + 14) (w * 4 + 3) (by omega) (by omega) (by omega)]; omega
  have f15 : ¬fw W 7 0 = 208 := by rw [fw_of (d * 4096 + a * 64 + b + 9175040) (w * 4 + 227) 0 (by omega) (by omega) (by omega)]; omega
  have f16 : ¬fw W 7 0 = 209 := by rw [fw_of (d * 4096 + a * 64 + b + 9175040) (w * 4 + 227) 0 (by omega) (by omega) (by omega)]; omega
  have f17 : ¬fw W 7 0 = 210 := by rw [fw_of (d * 4096 + a * 64 + b + 9175040) (w * 4 + 227) 0 (by omega) (by omega) (by omega)]; omega
  have f18 : fw W 1 0 = 3 := fw_of (d * 262144 + a * 4096 + b * 64 + w + 587202616) 3 0 (by omega) (by omega) (by omega)
  rw [major_23 f0]
  simp only [rawVop, rawVop1, rawVop2, f1, f2, f3, f4, f5, f6, f7, f8, f9, f10, f11, f12, f13, f14, f15, f16, f17, f18]
  rfl

theorem vbcast (d a w : Nat) : Statement (.vbcast d a w) := by
  refine statement_of rfl fun hl => ?_
  replace hl : (isV d && isG a && below 3 w) = true := hl
  simp only [Bool.and_eq_true] at hl
  obtain ⟨⟨h0, h1⟩, h2⟩ := hl
  have hd := isV_lt h0
  have ha := isG_lt h1
  have hw := below_lt h2
  generalize hW : 0x8C0000F0 + d * 0x100000 + a * 0x4000 + w * 0x4 = W
  have f0 : fw W 31 26 = 35 := fw_of 0 35 (d * 1048576 + a * 16384 + w * 4 + 240) (by omega) (by omega) (by omega)
  have f1 : fw W 25 20 = d := fw_of 35 d (a * 16384 + w * 4 + 240) (by omega) (by omega) (by omega)
  have f2 : fw W 19 14 = a := fw_of (d + 2240) a (w * 4 + 240) (by omega) (by omega) (by omega)
  have f3 : fw W 3 2 = w := fw_of (d * 65536 + a * 1024 + 146800655) w 0 (by omega) (by omega) (by omega)
  have f4 : fw W 7 4 = 15 := fw_of (d * 4096 + a * 64 + 9175040) 15 (w * 4) (by omega) (by omega) (by omega)
  have f5 : fw W 13 4 = 15 := fw_of (d * 64 + a + 143360) 15 (w * 4) (by omega) (by omega) (by omega)
  have f6 : ¬fw W 7 0 = 208 := by rw [fw_of (d * 4096 + a * 64 + 9175040) (w * 4 + 240) 0 (by omega) (by omega) (by omega)]; omega
  have f7 : ¬fw W 7 0 = 209 := by rw [fw_of (d * 4096 + a * 64 + 9175040) (w * 4 + 240) 0 (by omega) (by omega) (by omega)]; omega
  have f8 : ¬fw W 7 0 = 210 := by rw [fw_of (d * 4096 + a * 64 + 9175040) (w * 4 + 240) 0 (by omega) (by omega) (by omega)]; omega
  have f9 : fw W 1 0 = 0 := fw_of (d * 262144 + a * 4096 + w + 587202620) 0 0 (by omega) (by omega) (by omega)
  rw [major_23 f0]
  simp only [rawVop, rawVop1, rawVop2, f1, f2, f3, f4, f5, f6, f7, f8, f9]
  rfl

theorem vcvt (d a f s p : Nat) : Statement (.vcvt d a f s p) := by
  refine statement_of rfl fun hl => ?_
  replace hl : (isV d && isV a && cvtFmt f && cvtFmt s && partOk (capacity f) (capacity s) p) = true := hl
  simp only [Bool.and_eq_true] at hl
  obtain ⟨⟨⟨⟨h0, h1⟩, h2⟩, h3⟩, h4⟩ := hl
  have hd := isV_lt h0
  have ha := isV_lt h1
  have hf := cvtFmt_lt h2
  have hs := cvtFmt_lt h3
  have hp := capacity_part_lt h4
  generalize hW : 0x90000000 + d * 0x100000 + a * 0x4000 + f * 0x200 + s * 0x10 + p * 0x4 = W
  have f0 : fw W 31 26 = 36 := fw_of 0 36 (d * 1048576 + a * 16384 + f * 512 + s * 16 + p * 4) (by omega) (by omega) (by omega)
  have f1 : fw W 25 20 = d := fw_of 36 d (a * 16384 + f * 512 + s * 16 + p * 4) (by omega) (by omega) (by omega)
  have f2 : fw W 19 14 = a := fw_of (d + 2304) a (f * 512 + s * 16 + p * 4) (by omega) (by omega) (by omega)
  have f3 : fw W 13 9 = f := fw_of (d * 64 + a + 147456) f (s * 16 + p * 4) (by omega) (by omega) (by omega)
  have f4 : fw W 8 4 = s := fw_of (d * 2048 + a * 32 + f + 4718592) s (p * 4) (by omega) (by omega) (by omega)
  have f5 : fw W 3 2 = p := fw_of (d * 65536 + a * 1024 + f * 32 + s + 150994944) p 0 (by omega) (by omega) (by omega)
  have f6 : fw W 1 0 = 0 := fw_of (d * 262144 + a * 4096 + f * 128 + s * 4 + p + 603979776) 0 0 (by omega) (by omega) (by omega)
  rw [major_24 f0]
  simp only [rawVcv, f1, f2, f3, f4, f5, f6]
  rfl

theorem vqnt (d a f s p : Nat) : Statement (.vqnt d a f s p) := by
  refine statement_of rfl fun hl => ?_
  replace hl : (isV d && isV a && qntOk f s p) = true := hl
  simp only [Bool.and_eq_true] at hl
  obtain ⟨⟨h0, h1⟩, h2⟩ := hl
  have hd := isV_lt h0
  have ha := isV_lt h1
  obtain ⟨hf, hs, hp⟩ := qntOk_lt h2
  generalize hW : 0x90000001 + d * 0x100000 + a * 0x4000 + f * 0x200 + s * 0x10 + p * 0x4 = W
  have f0 : fw W 31 26 = 36 := fw_of 0 36 (d * 1048576 + a * 16384 + f * 512 + s * 16 + p * 4 + 1) (by omega) (by omega) (by omega)
  have f1 : fw W 25 20 = d := fw_of 36 d (a * 16384 + f * 512 + s * 16 + p * 4 + 1) (by omega) (by omega) (by omega)
  have f2 : fw W 19 14 = a := fw_of (d + 2304) a (f * 512 + s * 16 + p * 4 + 1) (by omega) (by omega) (by omega)
  have f3 : fw W 13 9 = f := fw_of (d * 64 + a + 147456) f (s * 16 + p * 4 + 1) (by omega) (by omega) (by omega)
  have f4 : fw W 8 4 = s := fw_of (d * 2048 + a * 32 + f + 4718592) s (p * 4 + 1) (by omega) (by omega) (by omega)
  have f5 : fw W 3 2 = p := fw_of (d * 65536 + a * 1024 + f * 32 + s + 150994944) p 1 (by omega) (by omega) (by omega)
  have f6 : fw W 1 0 = 1 := fw_of (d * 262144 + a * 4096 + f * 128 + s * 4 + p + 603979776) 1 0 (by omega) (by omega) (by omega)
  rw [major_24 f0]
  simp only [rawVcv, f1, f2, f3, f4, f5, f6]
  rfl

theorem vdqnt (d a f s p : Nat) : Statement (.vdqnt d a f s p) := by
  refine statement_of rfl fun hl => ?_
  replace hl : (isV d && isV a && qntOk s f p) = true := hl
  simp only [Bool.and_eq_true] at hl
  obtain ⟨⟨h0, h1⟩, h2⟩ := hl
  have hd := isV_lt h0
  have ha := isV_lt h1
  obtain ⟨hs, hf, hp⟩ := qntOk_lt h2
  generalize hW : 0x90000002 + d * 0x100000 + a * 0x4000 + f * 0x200 + s * 0x10 + p * 0x4 = W
  have f0 : fw W 31 26 = 36 := fw_of 0 36 (d * 1048576 + a * 16384 + f * 512 + s * 16 + p * 4 + 2) (by omega) (by omega) (by omega)
  have f1 : fw W 25 20 = d := fw_of 36 d (a * 16384 + f * 512 + s * 16 + p * 4 + 2) (by omega) (by omega) (by omega)
  have f2 : fw W 19 14 = a := fw_of (d + 2304) a (f * 512 + s * 16 + p * 4 + 2) (by omega) (by omega) (by omega)
  have f3 : fw W 13 9 = f := fw_of (d * 64 + a + 147456) f (s * 16 + p * 4 + 2) (by omega) (by omega) (by omega)
  have f4 : fw W 8 4 = s := fw_of (d * 2048 + a * 32 + f + 4718592) s (p * 4 + 2) (by omega) (by omega) (by omega)
  have f5 : fw W 3 2 = p := fw_of (d * 65536 + a * 1024 + f * 32 + s + 150994944) p 2 (by omega) (by omega) (by omega)
  have f6 : fw W 1 0 = 2 := fw_of (d * 262144 + a * 4096 + f * 128 + s * 4 + p + 603979776) 2 0 (by omega) (by omega) (by omega)
  rw [major_24 f0]
  simp only [rawVcv, f1, f2, f3, f4, f5, f6]
  rfl

theorem vcvtLane (d a f s p : Nat) : Statement (.vcvtLane d a f s p) := by
  refine statement_of rfl fun hl => ?_
  replace hl : (isV d && isV a && isT f && isT s && partOk (laneCount f) (laneCount s) p) = true := hl
  simp only [Bool.and_eq_true] at hl
  obtain ⟨⟨⟨⟨h0, h1⟩, h2⟩, h3⟩, h4⟩ := hl
  have hd := isV_lt h0
  have ha := isV_lt h1
  have hf := isT_lt h2
  have hs := isT_lt h3
  have hp := laneCount_part_lt h4
  generalize hW : 0x90000003 + d * 0x100000 + a * 0x4000 + f * 0x200 + s * 0x10 + p * 0x4 = W
  have f0 : fw W 31 26 = 36 := fw_of 0 36 (d * 1048576 + a * 16384 + f * 512 + s * 16 + p * 4 + 3) (by omega) (by omega) (by omega)
  have f1 : fw W 25 20 = d := fw_of 36 d (a * 16384 + f * 512 + s * 16 + p * 4 + 3) (by omega) (by omega) (by omega)
  have f2 : fw W 19 14 = a := fw_of (d + 2304) a (f * 512 + s * 16 + p * 4 + 3) (by omega) (by omega) (by omega)
  have f3 : fw W 12 9 = f := fw_of (d * 128 + a * 2 + 294912) f (s * 16 + p * 4 + 3) (by omega) (by omega) (by omega)
  have f4 : fw W 7 4 = s := fw_of (d * 4096 + a * 64 + f * 2 + 9437184) s (p * 4 + 3) (by omega) (by omega) (by omega)
  have f5 : fw W 3 2 = p := fw_of (d * 65536 + a * 1024 + f * 32 + s + 150994944) p 3 (by omega) (by omega) (by omega)
  have f6 : fw W 1 0 = 3 := fw_of (d * 262144 + a * 4096 + f * 128 + s * 4 + p + 603979776) 3 0 (by omega) (by omega) (by omega)
  have f7 : fw W 8 8 = 0 := fw_of (d * 2048 + a * 32 + f + 4718592) 0 (s * 16 + p * 4 + 3) (by omega) (by omega) (by omega)
  have f8 : fw W 13 13 = 0 := fw_of (d * 64 + a + 147456) 0 (f * 512 + s * 16 + p * 4 + 3) (by omega) (by omega) (by omega)
  rw [major_24 f0]
  simp only [rawVcv, f1, f2, f3, f4, f5, f6, f7, f8]
  rfl

theorem tmma (d a b s : Nat) : Statement (.tmma d a b s) := by
  refine statement_of rfl fun hl => ?_
  replace hl : (isA d && isG a && isG b && isS s) = true := hl
  simp only [Bool.and_eq_true] at hl
  obtain ⟨⟨⟨h0, h1⟩, h2⟩, h3⟩ := hl
  have hd := isA_lt h0
  have ha := isG_lt h1
  have hb := isG_lt h2
  have hs := isS_lt h3
  generalize hW : 0x94000000 + d * 0x100000 + a * 0x4000 + b * 0x100 + s = W
  have f0 : fw W 31 26 = 37 := fw_of 0 37 (d * 1048576 + a * 16384 + b * 256 + s) (by omega) (by omega) (by omega)
  have f1 : fw W 25 20 = d := fw_of 37 d (a * 16384 + b * 256 + s) (by omega) (by omega) (by omega)
  have f2 : fw W 19 14 = a := fw_of (d + 2368) a (b * 256 + s) (by omega) (by omega) (by omega)
  have f3 : fw W 13 8 = b := fw_of (d * 64 + a + 151552) b s (by omega) (by omega) (by omega)
  have f4 : fw W 3 0 = s := fw_of (d * 65536 + a * 1024 + b * 16 + 155189248) s 0 (by omega) (by omega) (by omega)
  have f5 : fw W 7 4 = 0 := fw_of (d * 4096 + a * 64 + b + 9699328) 0 s (by omega) (by omega) (by omega)
  rw [major_25 f0]
  simp only [rawTen, f1, f2, f3, f4, f5]
  rfl

theorem tzero (d : Nat) : Statement (.tzero d) := by
  refine statement_of rfl fun hl => ?_
  replace hl : (isA d) = true := hl
  have h0 := hl
  have hd := isA_lt h0
  generalize hW : 0x94000010 + d * 0x100000 = W
  have f0 : fw W 31 26 = 37 := fw_of 0 37 (d * 1048576 + 16) (by omega) (by omega) (by omega)
  have f1 : fw W 25 20 = d := fw_of 37 d 16 (by omega) (by omega) (by omega)
  have f2 : fw W 7 4 = 1 := fw_of (d * 4096 + 9699328) 1 0 (by omega) (by omega) (by omega)
  have f3 : fw W 19 0 = 16 := fw_of (d + 2368) 16 0 (by omega) (by omega) (by omega)
  rw [major_25 f0]
  simp only [rawTen, f1, f2, f3]
  rfl

theorem tstat (d a : Nat) : Statement (.tstat d a) := by
  refine statement_of rfl fun hl => ?_
  replace hl : (isG d && isA a) = true := hl
  simp only [Bool.and_eq_true] at hl
  obtain ⟨h0, h1⟩ := hl
  have hd := isG_lt h0
  have ha := isA_lt h1
  generalize hW : 0x94000020 + d * 0x100000 + a * 0x4000 = W
  have f0 : fw W 31 26 = 37 := fw_of 0 37 (d * 1048576 + a * 16384 + 32) (by omega) (by omega) (by omega)
  have f1 : fw W 25 20 = d := fw_of 37 d (a * 16384 + 32) (by omega) (by omega) (by omega)
  have f2 : fw W 19 14 = a := fw_of (d + 2368) a 32 (by omega) (by omega) (by omega)
  have f3 : fw W 7 4 = 2 := fw_of (d * 4096 + a * 64 + 9699328) 2 0 (by omega) (by omega) (by omega)
  have f4 : ¬fw W 19 0 = 16 := by rw [fw_of (d + 2368) (a * 16384 + 32) 0 (by omega) (by omega) (by omega)]; omega
  have f5 : fw W 13 0 = 32 := fw_of (d * 64 + a + 151552) 32 0 (by omega) (by omega) (by omega)
  rw [major_25 f0]
  simp only [rawTen, f1, f2, f3, f4, f5]
  rfl

theorem tcfg (d a b mm nn af bf acc : Nat) : Statement (.tcfg d a b mm nn af bf acc) := by
  refine statement_of rfl fun hl => ?_
  replace hl : (isA d && isG a && isG b && below 32 mm && below 32 nn && tcfgOk af bf acc) = true := hl
  simp only [Bool.and_eq_true] at hl
  obtain ⟨⟨⟨⟨⟨h0, h1⟩, h2⟩, h3⟩, h4⟩, h5⟩ := hl
  have hd := isA_lt h0
  have ha := isG_lt h1
  have hb := isG_lt h2
  have hmm := below_lt h3
  have hnn := below_lt h4
  obtain ⟨haf, hbf, hacc⟩ := tcfgOk_lt h5
  generalize hW : 0xF0000000 + d * 0x100000 + a * 0x4000 + b * 0x100 = W
  generalize hE : mm + nn * 32 + af * 1024 + bf * 32768 + acc * 1048576 = E
  have f0 : fw W 31 26 = 60 := fw_of 0 60 (d * 1048576 + a * 16384 + b * 256) (by omega) (by omega) (by omega)
  have f1 : fw W 25 20 = d := fw_of 60 d (a * 16384 + b * 256) (by omega) (by omega) (by omega)
  have f2 : fw W 19 14 = a := fw_of (d + 3840) a (b * 256) (by omega) (by omega) (by omega)
  have f3 : fw W 13 8 = b := fw_of (d * 64 + a + 245760) b 0 (by omega) (by omega) (by omega)
  have f4 : fw E 4 0 = mm := fw_of (nn + af * 32 + bf * 1024 + acc * 32768) mm 0 (by omega) (by omega) (by omega)
  have f5 : fw E 9 5 = nn := fw_of (af + bf * 32 + acc * 1024) nn mm (by omega) (by omega) (by omega)
  have f6 : fw E 14 10 = af := fw_of (bf + acc * 32) af (mm + nn * 32) (by omega) (by omega) (by omega)
  have f7 : fw E 19 15 = bf := fw_of acc bf (mm + nn * 32 + af * 1024) (by omega) (by omega) (by omega)
  have f8 : fw E 20 20 = acc := fw_of 0 acc (mm + nn * 32 + af * 1024 + bf * 32768) (by omega) (by omega) (by omega)
  have f9 : fw W 7 0 = 0 := fw_of (d * 4096 + a * 64 + b + 15728640) 0 0 (by omega) (by omega) (by omega)
  have f10 : fw E 31 21 = 0 := fw_of 0 0 (mm + nn * 32 + af * 1024 + bf * 32768 + acc * 1048576) (by omega) (by omega) (by omega)
  rw [major_3C f0]
  simp only [rawLten, f1, f2, f3, f4, f5, f6, f7, f8, f9, f10]
  rfl

theorem tcfgZ (d a b mm nn af bf acc : Nat) : Statement (.tcfgZ d a b mm nn af bf acc) := by
  refine statement_of rfl fun hl => ?_
  replace hl : (isA d && isG a && isG b && below 32 mm && below 32 nn && tcfgOk af bf acc) = true := hl
  simp only [Bool.and_eq_true] at hl
  obtain ⟨⟨⟨⟨⟨h0, h1⟩, h2⟩, h3⟩, h4⟩, h5⟩ := hl
  have hd := isA_lt h0
  have ha := isG_lt h1
  have hb := isG_lt h2
  have hmm := below_lt h3
  have hnn := below_lt h4
  obtain ⟨haf, hbf, hacc⟩ := tcfgOk_lt h5
  generalize hW : 0xF0000001 + d * 0x100000 + a * 0x4000 + b * 0x100 = W
  generalize hE : mm + nn * 32 + af * 1024 + bf * 32768 + acc * 1048576 = E
  have f0 : fw W 31 26 = 60 := fw_of 0 60 (d * 1048576 + a * 16384 + b * 256 + 1) (by omega) (by omega) (by omega)
  have f1 : fw W 25 20 = d := fw_of 60 d (a * 16384 + b * 256 + 1) (by omega) (by omega) (by omega)
  have f2 : fw W 19 14 = a := fw_of (d + 3840) a (b * 256 + 1) (by omega) (by omega) (by omega)
  have f3 : fw W 13 8 = b := fw_of (d * 64 + a + 245760) b 1 (by omega) (by omega) (by omega)
  have f4 : fw E 4 0 = mm := fw_of (nn + af * 32 + bf * 1024 + acc * 32768) mm 0 (by omega) (by omega) (by omega)
  have f5 : fw E 9 5 = nn := fw_of (af + bf * 32 + acc * 1024) nn mm (by omega) (by omega) (by omega)
  have f6 : fw E 14 10 = af := fw_of (bf + acc * 32) af (mm + nn * 32) (by omega) (by omega) (by omega)
  have f7 : fw E 19 15 = bf := fw_of acc bf (mm + nn * 32 + af * 1024) (by omega) (by omega) (by omega)
  have f8 : fw E 20 20 = acc := fw_of 0 acc (mm + nn * 32 + af * 1024 + bf * 32768) (by omega) (by omega) (by omega)
  have f9 : fw W 7 0 = 1 := fw_of (d * 4096 + a * 64 + b + 15728640) 1 0 (by omega) (by omega) (by omega)
  have f10 : fw E 31 21 = 0 := fw_of 0 0 (mm + nn * 32 + af * 1024 + bf * 32768 + acc * 1048576) (by omega) (by omega) (by omega)
  rw [major_3C f0]
  simp only [rawLten, f1, f2, f3, f4, f5, f6, f7, f8, f9, f10]
  rfl

theorem tdrain (d a b f raw s : Nat) : Statement (.tdrain d a b f raw s) := by
  refine statement_of rfl fun hl => ?_
  replace hl : (isA d && isG a && isG b && drainOk f raw && isS s) = true := hl
  simp only [Bool.and_eq_true] at hl
  obtain ⟨⟨⟨⟨h0, h1⟩, h2⟩, h3⟩, h4⟩ := hl
  have hd := isA_lt h0
  have ha := isG_lt h1
  have hb := isG_lt h2
  obtain ⟨hf, hraw⟩ := drainOk_lt h3
  have hs := isS_lt h4
  generalize hW : 0xF0000010 + d * 0x100000 + a * 0x4000 + b * 0x100 = W
  generalize hE : f + raw * 32 + s * 64 = E
  have f0 : fw W 31 26 = 60 := fw_of 0 60 (d * 1048576 + a * 16384 + b * 256 + 16) (by omega) (by omega) (by omega)
  have f1 : fw W 25 20 = d := fw_of 60 d (a * 16384 + b * 256 + 16) (by omega) (by omega) (by omega)
  have f2 : fw W 19 14 = a := fw_of (d + 3840) a (b * 256 + 16) (by omega) (by omega) (by omega)
  have f3 : fw W 13 8 = b := fw_of (d * 64 + a + 245760) b 16 (by omega) (by omega) (by omega)
  have f4 : fw E 4 0 = f := fw_of (raw + s * 2) f 0 (by omega) (by omega) (by omega)
  have f5 : fw E 5 5 = raw := fw_of s raw f (by omega) (by omega) (by omega)
  have f6 : fw E 9 6 = s := fw_of 0 s (f + raw * 32) (by omega) (by omega) (by omega)
  have f7 : fw W 7 0 = 16 := fw_of (d * 4096 + a * 64 + b + 15728640) 16 0 (by omega) (by omega) (by omega)
  have f8 : fw E 31 10 = 0 := fw_of 0 0 (f + raw * 32 + s * 64) (by omega) (by omega) (by omega)
  rw [major_3C f0]
  simp only [rawLten, f1, f2, f3, f4, f5, f6, f7, f8]
  rfl

theorem tldacc (d a b f raw s : Nat) : Statement (.tldacc d a b f raw s) := by
  refine statement_of rfl fun hl => ?_
  replace hl : (isA d && isG a && isG b && drainOk f raw && isS s) = true := hl
  simp only [Bool.and_eq_true] at hl
  obtain ⟨⟨⟨⟨h0, h1⟩, h2⟩, h3⟩, h4⟩ := hl
  have hd := isA_lt h0
  have ha := isG_lt h1
  have hb := isG_lt h2
  obtain ⟨hf, hraw⟩ := drainOk_lt h3
  have hs := isS_lt h4
  generalize hW : 0xF0000011 + d * 0x100000 + a * 0x4000 + b * 0x100 = W
  generalize hE : f + raw * 32 + s * 64 = E
  have f0 : fw W 31 26 = 60 := fw_of 0 60 (d * 1048576 + a * 16384 + b * 256 + 17) (by omega) (by omega) (by omega)
  have f1 : fw W 25 20 = d := fw_of 60 d (a * 16384 + b * 256 + 17) (by omega) (by omega) (by omega)
  have f2 : fw W 19 14 = a := fw_of (d + 3840) a (b * 256 + 17) (by omega) (by omega) (by omega)
  have f3 : fw W 13 8 = b := fw_of (d * 64 + a + 245760) b 17 (by omega) (by omega) (by omega)
  have f4 : fw E 4 0 = f := fw_of (raw + s * 2) f 0 (by omega) (by omega) (by omega)
  have f5 : fw E 5 5 = raw := fw_of s raw f (by omega) (by omega) (by omega)
  have f6 : fw E 9 6 = s := fw_of 0 s (f + raw * 32) (by omega) (by omega) (by omega)
  have f7 : fw W 7 0 = 17 := fw_of (d * 4096 + a * 64 + b + 15728640) 17 0 (by omega) (by omega) (by omega)
  have f8 : fw E 31 10 = 0 := fw_of 0 0 (f + raw * 32 + s * 64) (by omega) (by omega) (by omega)
  rw [major_3C f0]
  simp only [rawLten, f1, f2, f3, f4, f5, f6, f7, f8]
  rfl

theorem tdrainF (d a b f raw s : Nat) : Statement (.tdrainF d a b f raw s) := by
  refine statement_of rfl fun hl => ?_
  replace hl : (isA d && isG a && isG b && drainOk f raw && isS s) = true := hl
  simp only [Bool.and_eq_true] at hl
  obtain ⟨⟨⟨⟨h0, h1⟩, h2⟩, h3⟩, h4⟩ := hl
  have hd := isA_lt h0
  have ha := isG_lt h1
  have hb := isG_lt h2
  obtain ⟨hf, hraw⟩ := drainOk_lt h3
  have hs := isS_lt h4
  generalize hW : 0xF0000012 + d * 0x100000 + a * 0x4000 + b * 0x100 = W
  generalize hE : f + raw * 32 + s * 64 = E
  have f0 : fw W 31 26 = 60 := fw_of 0 60 (d * 1048576 + a * 16384 + b * 256 + 18) (by omega) (by omega) (by omega)
  have f1 : fw W 25 20 = d := fw_of 60 d (a * 16384 + b * 256 + 18) (by omega) (by omega) (by omega)
  have f2 : fw W 19 14 = a := fw_of (d + 3840) a (b * 256 + 18) (by omega) (by omega) (by omega)
  have f3 : fw W 13 8 = b := fw_of (d * 64 + a + 245760) b 18 (by omega) (by omega) (by omega)
  have f4 : fw E 4 0 = f := fw_of (raw + s * 2) f 0 (by omega) (by omega) (by omega)
  have f5 : fw E 5 5 = raw := fw_of s raw f (by omega) (by omega) (by omega)
  have f6 : fw E 9 6 = s := fw_of 0 s (f + raw * 32) (by omega) (by omega) (by omega)
  have f7 : fw W 7 0 = 18 := fw_of (d * 4096 + a * 64 + b + 15728640) 18 0 (by omega) (by omega) (by omega)
  have f8 : fw E 31 10 = 0 := fw_of 0 0 (f + raw * 32 + s * 64) (by omega) (by omega) (by omega)
  rw [major_3C f0]
  simp only [rawLten, f1, f2, f3, f4, f5, f6, f7, f8]
  rfl

theorem claim (a : Nat) : Statement (.claim a) := by
  refine statement_of rfl fun hl => ?_
  replace hl : (isG a) = true := hl
  have h0 := hl
  have ha := isG_lt h0
  generalize hW : 0x98000000 + a * 0x4000 = W
  have f0 : fw W 31 26 = 38 := fw_of 0 38 (a * 16384) (by omega) (by omega) (by omega)
  have f1 : fw W 19 14 = a := fw_of 2432 a 0 (by omega) (by omega) (by omega)
  have f2 : fw W 13 0 = 0 := fw_of (a + 155648) 0 0 (by omega) (by omega) (by omega)
  have f3 : fw W 25 20 = 0 := fw_of 38 0 (a * 16384) (by omega) (by omega) (by omega)
  rw [major_26 f0]
  simp only [rawRes, f1, f2, f3]
  rfl

theorem acqB (d a : Nat) : Statement (.acqB d a) := by
  refine statement_of rfl fun hl => ?_
  replace hl : (isG d && isG a) = true := hl
  simp only [Bool.and_eq_true] at hl
  obtain ⟨h0, h1⟩ := hl
  have hd := isG_lt h0
  have ha := isG_lt h1
  generalize hW : 0x98000010 + d * 0x100000 + a * 0x4000 = W
  have f0 : fw W 31 26 = 38 := fw_of 0 38 (d * 1048576 + a * 16384 + 16) (by omega) (by omega) (by omega)
  have f1 : fw W 25 20 = d := fw_of 38 d (a * 16384 + 16) (by omega) (by omega) (by omega)
  have f2 : fw W 19 14 = a := fw_of (d + 2432) a 16 (by omega) (by omega) (by omega)
  have f3 : fw W 13 0 = 16 := fw_of (d * 64 + a + 155648) 16 0 (by omega) (by omega) (by omega)
  rw [major_26 f0]
  simp only [rawRes, f1, f2, f3]
  rfl

theorem acqL (d a : Nat) : Statement (.acqL d a) := by
  refine statement_of rfl fun hl => ?_
  replace hl : (isG d && isG a) = true := hl
  simp only [Bool.and_eq_true] at hl
  obtain ⟨h0, h1⟩ := hl
  have hd := isG_lt h0
  have ha := isG_lt h1
  generalize hW : 0x98000011 + d * 0x100000 + a * 0x4000 = W
  have f0 : fw W 31 26 = 38 := fw_of 0 38 (d * 1048576 + a * 16384 + 17) (by omega) (by omega) (by omega)
  have f1 : fw W 25 20 = d := fw_of 38 d (a * 16384 + 17) (by omega) (by omega) (by omega)
  have f2 : fw W 19 14 = a := fw_of (d + 2432) a 17 (by omega) (by omega) (by omega)
  have f3 : fw W 13 0 = 17 := fw_of (d * 64 + a + 155648) 17 0 (by omega) (by omega) (by omega)
  rw [major_26 f0]
  simp only [rawRes, f1, f2, f3]
  rfl

theorem acqT (d a : Nat) : Statement (.acqT d a) := by
  refine statement_of rfl fun hl => ?_
  replace hl : (isG d && isG a) = true := hl
  simp only [Bool.and_eq_true] at hl
  obtain ⟨h0, h1⟩ := hl
  have hd := isG_lt h0
  have ha := isG_lt h1
  generalize hW : 0x98000012 + d * 0x100000 + a * 0x4000 = W
  have f0 : fw W 31 26 = 38 := fw_of 0 38 (d * 1048576 + a * 16384 + 18) (by omega) (by omega) (by omega)
  have f1 : fw W 25 20 = d := fw_of 38 d (a * 16384 + 18) (by omega) (by omega) (by omega)
  have f2 : fw W 19 14 = a := fw_of (d + 2432) a 18 (by omega) (by omega) (by omega)
  have f3 : fw W 13 0 = 18 := fw_of (d * 64 + a + 155648) 18 0 (by omega) (by omega) (by omega)
  rw [major_26 f0]
  simp only [rawRes, f1, f2, f3]
  rfl

theorem acqC (d a : Nat) : Statement (.acqC d a) := by
  refine statement_of rfl fun hl => ?_
  replace hl : (isG d && isG a) = true := hl
  simp only [Bool.and_eq_true] at hl
  obtain ⟨h0, h1⟩ := hl
  have hd := isG_lt h0
  have ha := isG_lt h1
  generalize hW : 0x98000013 + d * 0x100000 + a * 0x4000 = W
  have f0 : fw W 31 26 = 38 := fw_of 0 38 (d * 1048576 + a * 16384 + 19) (by omega) (by omega) (by omega)
  have f1 : fw W 25 20 = d := fw_of 38 d (a * 16384 + 19) (by omega) (by omega) (by omega)
  have f2 : fw W 19 14 = a := fw_of (d + 2432) a 19 (by omega) (by omega) (by omega)
  have f3 : fw W 13 0 = 19 := fw_of (d * 64 + a + 155648) 19 0 (by omega) (by omega) (by omega)
  rw [major_26 f0]
  simp only [rawRes, f1, f2, f3]
  rfl

theorem tacqB (d a : Nat) : Statement (.tacqB d a) := by
  refine statement_of rfl fun hl => ?_
  replace hl : (isG d && isG a) = true := hl
  simp only [Bool.and_eq_true] at hl
  obtain ⟨h0, h1⟩ := hl
  have hd := isG_lt h0
  have ha := isG_lt h1
  generalize hW : 0x98000020 + d * 0x100000 + a * 0x4000 = W
  have f0 : fw W 31 26 = 38 := fw_of 0 38 (d * 1048576 + a * 16384 + 32) (by omega) (by omega) (by omega)
  have f1 : fw W 25 20 = d := fw_of 38 d (a * 16384 + 32) (by omega) (by omega) (by omega)
  have f2 : fw W 19 14 = a := fw_of (d + 2432) a 32 (by omega) (by omega) (by omega)
  have f3 : fw W 13 0 = 32 := fw_of (d * 64 + a + 155648) 32 0 (by omega) (by omega) (by omega)
  rw [major_26 f0]
  simp only [rawRes, f1, f2, f3]
  rfl

theorem tacqL (d a : Nat) : Statement (.tacqL d a) := by
  refine statement_of rfl fun hl => ?_
  replace hl : (isG d && isG a) = true := hl
  simp only [Bool.and_eq_true] at hl
  obtain ⟨h0, h1⟩ := hl
  have hd := isG_lt h0
  have ha := isG_lt h1
  generalize hW : 0x98000021 + d * 0x100000 + a * 0x4000 = W
  have f0 : fw W 31 26 = 38 := fw_of 0 38 (d * 1048576 + a * 16384 + 33) (by omega) (by omega) (by omega)
  have f1 : fw W 25 20 = d := fw_of 38 d (a * 16384 + 33) (by omega) (by omega) (by omega)
  have f2 : fw W 19 14 = a := fw_of (d + 2432) a 33 (by omega) (by omega) (by omega)
  have f3 : fw W 13 0 = 33 := fw_of (d * 64 + a + 155648) 33 0 (by omega) (by omega) (by omega)
  rw [major_26 f0]
  simp only [rawRes, f1, f2, f3]
  rfl

theorem tacqT (d a : Nat) : Statement (.tacqT d a) := by
  refine statement_of rfl fun hl => ?_
  replace hl : (isG d && isG a) = true := hl
  simp only [Bool.and_eq_true] at hl
  obtain ⟨h0, h1⟩ := hl
  have hd := isG_lt h0
  have ha := isG_lt h1
  generalize hW : 0x98000022 + d * 0x100000 + a * 0x4000 = W
  have f0 : fw W 31 26 = 38 := fw_of 0 38 (d * 1048576 + a * 16384 + 34) (by omega) (by omega) (by omega)
  have f1 : fw W 25 20 = d := fw_of 38 d (a * 16384 + 34) (by omega) (by omega) (by omega)
  have f2 : fw W 19 14 = a := fw_of (d + 2432) a 34 (by omega) (by omega) (by omega)
  have f3 : fw W 13 0 = 34 := fw_of (d * 64 + a + 155648) 34 0 (by omega) (by omega) (by omega)
  rw [major_26 f0]
  simp only [rawRes, f1, f2, f3]
  rfl

theorem tacqC (d a : Nat) : Statement (.tacqC d a) := by
  refine statement_of rfl fun hl => ?_
  replace hl : (isG d && isG a) = true := hl
  simp only [Bool.and_eq_true] at hl
  obtain ⟨h0, h1⟩ := hl
  have hd := isG_lt h0
  have ha := isG_lt h1
  generalize hW : 0x98000023 + d * 0x100000 + a * 0x4000 = W
  have f0 : fw W 31 26 = 38 := fw_of 0 38 (d * 1048576 + a * 16384 + 35) (by omega) (by omega) (by omega)
  have f1 : fw W 25 20 = d := fw_of 38 d (a * 16384 + 35) (by omega) (by omega) (by omega)
  have f2 : fw W 19 14 = a := fw_of (d + 2432) a 35 (by omega) (by omega) (by omega)
  have f3 : fw W 13 0 = 35 := fw_of (d * 64 + a + 155648) 35 0 (by omega) (by omega) (by omega)
  rw [major_26 f0]
  simp only [rawRes, f1, f2, f3]
  rfl

theorem relB (a : Nat) : Statement (.relB a) := by
  refine statement_of rfl fun hl => ?_
  replace hl : (isG a) = true := hl
  have h0 := hl
  have ha := isG_lt h0
  generalize hW : 0x98000030 + a * 0x4000 = W
  have f0 : fw W 31 26 = 38 := fw_of 0 38 (a * 16384 + 48) (by omega) (by omega) (by omega)
  have f1 : fw W 19 14 = a := fw_of 2432 a 48 (by omega) (by omega) (by omega)
  have f2 : fw W 13 0 = 48 := fw_of (a + 155648) 48 0 (by omega) (by omega) (by omega)
  have f3 : fw W 25 20 = 0 := fw_of 38 0 (a * 16384 + 48) (by omega) (by omega) (by omega)
  rw [major_26 f0]
  simp only [rawRes, f1, f2, f3]
  rfl

theorem relL (a b : Nat) : Statement (.relL a b) := by
  refine statement_of rfl fun hl => ?_
  replace hl : (isG a && isG b) = true := hl
  simp only [Bool.and_eq_true] at hl
  obtain ⟨h0, h1⟩ := hl
  have ha := isG_lt h0
  have hb := isG_lt h1
  generalize hW : 0x98000031 + a * 0x4000 + b * 0x100 = W
  have f0 : fw W 31 26 = 38 := fw_of 0 38 (a * 16384 + b * 256 + 49) (by omega) (by omega) (by omega)
  have f1 : fw W 19 14 = a := fw_of 2432 a (b * 256 + 49) (by omega) (by omega) (by omega)
  have f2 : fw W 13 8 = b := fw_of (a + 155648) b 49 (by omega) (by omega) (by omega)
  have f3 : ¬fw W 13 0 = 0 := by rw [fw_of (a + 155648) (b * 256 + 49) 0 (by omega) (by omega) (by omega)]; omega
  have f4 : ¬fw W 13 0 = 16 := by rw [fw_of (a + 155648) (b * 256 + 49) 0 (by omega) (by omega) (by omega)]; omega
  have f5 : ¬fw W 13 0 = 17 := by rw [fw_of (a + 155648) (b * 256 + 49) 0 (by omega) (by omega) (by omega)]; omega
  have f6 : ¬fw W 13 0 = 18 := by rw [fw_of (a + 155648) (b * 256 + 49) 0 (by omega) (by omega) (by omega)]; omega
  have f7 : ¬fw W 13 0 = 19 := by rw [fw_of (a + 155648) (b * 256 + 49) 0 (by omega) (by omega) (by omega)]; omega
  have f8 : ¬fw W 13 0 = 32 := by rw [fw_of (a + 155648) (b * 256 + 49) 0 (by omega) (by omega) (by omega)]; omega
  have f9 : ¬fw W 13 0 = 33 := by rw [fw_of (a + 155648) (b * 256 + 49) 0 (by omega) (by omega) (by omega)]; omega
  have f10 : ¬fw W 13 0 = 34 := by rw [fw_of (a + 155648) (b * 256 + 49) 0 (by omega) (by omega) (by omega)]; omega
  have f11 : ¬fw W 13 0 = 35 := by rw [fw_of (a + 155648) (b * 256 + 49) 0 (by omega) (by omega) (by omega)]; omega
  have f12 : ¬fw W 13 0 = 48 := by rw [fw_of (a + 155648) (b * 256 + 49) 0 (by omega) (by omega) (by omega)]; omega
  have f13 : fw W 7 0 = 49 := fw_of (a * 64 + b + 9961472) 49 0 (by omega) (by omega) (by omega)
  have f14 : fw W 25 20 = 0 := fw_of 38 0 (a * 16384 + b * 256 + 49) (by omega) (by omega) (by omega)
  rw [major_26 f0]
  simp only [rawRes, f1, f2, f3, f4, f5, f6, f7, f8, f9, f10, f11, f12, f13, f14]
  rfl

theorem relT (a : Nat) : Statement (.relT a) := by
  refine statement_of rfl fun hl => ?_
  replace hl : (isG a) = true := hl
  have h0 := hl
  have ha := isG_lt h0
  generalize hW : 0x98000032 + a * 0x4000 = W
  have f0 : fw W 31 26 = 38 := fw_of 0 38 (a * 16384 + 50) (by omega) (by omega) (by omega)
  have f1 : fw W 19 14 = a := fw_of 2432 a 50 (by omega) (by omega) (by omega)
  have f2 : fw W 13 0 = 50 := fw_of (a + 155648) 50 0 (by omega) (by omega) (by omega)
  have f3 : fw W 7 0 = 50 := fw_of (a * 64 + 9961472) 50 0 (by omega) (by omega) (by omega)
  have f4 : fw W 25 20 = 0 := fw_of 38 0 (a * 16384 + 50) (by omega) (by omega) (by omega)
  rw [major_26 f0]
  simp only [rawRes, f1, f2, f3, f4]
  rfl

theorem relC (a : Nat) : Statement (.relC a) := by
  refine statement_of rfl fun hl => ?_
  replace hl : (isG a) = true := hl
  have h0 := hl
  have ha := isG_lt h0
  generalize hW : 0x98000033 + a * 0x4000 = W
  have f0 : fw W 31 26 = 38 := fw_of 0 38 (a * 16384 + 51) (by omega) (by omega) (by omega)
  have f1 : fw W 19 14 = a := fw_of 2432 a 51 (by omega) (by omega) (by omega)
  have f2 : fw W 13 0 = 51 := fw_of (a + 155648) 51 0 (by omega) (by omega) (by omega)
  have f3 : fw W 7 0 = 51 := fw_of (a * 64 + 9961472) 51 0 (by omega) (by omega) (by omega)
  have f4 : fw W 25 20 = 0 := fw_of 38 0 (a * 16384 + 51) (by omega) (by omega) (by omega)
  rw [major_26 f0]
  simp only [rawRes, f1, f2, f3, f4]
  rfl

theorem relall : Statement .relall := fun _ => rfl

theorem qres (d b : Nat) : Statement (.qres d b) := by
  refine statement_of rfl fun hl => ?_
  replace hl : (isG d && below 4 b) = true := hl
  simp only [Bool.and_eq_true] at hl
  obtain ⟨h0, h1⟩ := hl
  have hd := isG_lt h0
  have hb := below_lt h1
  generalize hW : 0x98000050 + d * 0x100000 + b * 0x100 = W
  have f0 : fw W 31 26 = 38 := fw_of 0 38 (d * 1048576 + b * 256 + 80) (by omega) (by omega) (by omega)
  have f1 : fw W 25 20 = d := fw_of 38 d (b * 256 + 80) (by omega) (by omega) (by omega)
  have f2 : fw W 13 8 = b := fw_of (d * 64 + 155648) b 80 (by omega) (by omega) (by omega)
  have f3 : ¬fw W 13 0 = 0 := by rw [fw_of (d * 64 + 155648) (b * 256 + 80) 0 (by omega) (by omega) (by omega)]; omega
  have f4 : ¬fw W 13 0 = 16 := by rw [fw_of (d * 64 + 155648) (b * 256 + 80) 0 (by omega) (by omega) (by omega)]; omega
  have f5 : ¬fw W 13 0 = 17 := by rw [fw_of (d * 64 + 155648) (b * 256 + 80) 0 (by omega) (by omega) (by omega)]; omega
  have f6 : ¬fw W 13 0 = 18 := by rw [fw_of (d * 64 + 155648) (b * 256 + 80) 0 (by omega) (by omega) (by omega)]; omega
  have f7 : ¬fw W 13 0 = 19 := by rw [fw_of (d * 64 + 155648) (b * 256 + 80) 0 (by omega) (by omega) (by omega)]; omega
  have f8 : ¬fw W 13 0 = 32 := by rw [fw_of (d * 64 + 155648) (b * 256 + 80) 0 (by omega) (by omega) (by omega)]; omega
  have f9 : ¬fw W 13 0 = 33 := by rw [fw_of (d * 64 + 155648) (b * 256 + 80) 0 (by omega) (by omega) (by omega)]; omega
  have f10 : ¬fw W 13 0 = 34 := by rw [fw_of (d * 64 + 155648) (b * 256 + 80) 0 (by omega) (by omega) (by omega)]; omega
  have f11 : ¬fw W 13 0 = 35 := by rw [fw_of (d * 64 + 155648) (b * 256 + 80) 0 (by omega) (by omega) (by omega)]; omega
  have f12 : ¬fw W 13 0 = 48 := by rw [fw_of (d * 64 + 155648) (b * 256 + 80) 0 (by omega) (by omega) (by omega)]; omega
  have f13 : fw W 7 0 = 80 := fw_of (d * 4096 + b + 9961472) 80 0 (by omega) (by omega) (by omega)
  have f14 : ¬fw W 13 0 = 50 := by rw [fw_of (d * 64 + 155648) (b * 256 + 80) 0 (by omega) (by omega) (by omega)]; omega
  have f15 : ¬fw W 13 0 = 51 := by rw [fw_of (d * 64 + 155648) (b * 256 + 80) 0 (by omega) (by omega) (by omega)]; omega
  have f16 : ¬fw W 25 0 = 64 := by rw [fw_of 38 (d * 1048576 + b * 256 + 80) 0 (by omega) (by omega) (by omega)]; omega
  have f17 : fw W 19 14 = 0 := fw_of (d + 2432) 0 (b * 256 + 80) (by omega) (by omega) (by omega)
  rw [major_26 f0]
  simp only [rawRes, f1, f2, f3, f4, f5, f6, f7, f8, f9, f10, f11, f12, f13, f14, f15, f16, f17]
  rfl

theorem send (a : Nat) : Statement (.send a) := by
  refine statement_of rfl fun hl => ?_
  replace hl : (isG a) = true := hl
  have h0 := hl
  have ha := isG_lt h0
  generalize hW : 0x9C000000 + a * 0x4000 = W
  have f0 : fw W 31 26 = 39 := fw_of 0 39 (a * 16384) (by omega) (by omega) (by omega)
  have f1 : fw W 19 14 = a := fw_of 2496 a 0 (by omega) (by omega) (by omega)
  have f2 : fw W 13 0 = 0 := fw_of (a + 159744) 0 0 (by omega) (by omega) (by omega)
  have f3 : fw W 25 20 = 0 := fw_of 39 0 (a * 16384) (by omega) (by omega) (by omega)
  rw [major_27 f0]
  simp only [rawMsg, f1, f2, f3]
  rfl

theorem sendt (d a : Nat) : Statement (.sendt d a) := by
  refine statement_of rfl fun hl => ?_
  replace hl : (isG d && isG a) = true := hl
  simp only [Bool.and_eq_true] at hl
  obtain ⟨h0, h1⟩ := hl
  have hd := isG_lt h0
  have ha := isG_lt h1
  generalize hW : 0x9C000001 + d * 0x100000 + a * 0x4000 = W
  have f0 : fw W 31 26 = 39 := fw_of 0 39 (d * 1048576 + a * 16384 + 1) (by omega) (by omega) (by omega)
  have f1 : fw W 25 20 = d := fw_of 39 d (a * 16384 + 1) (by omega) (by omega) (by omega)
  have f2 : fw W 19 14 = a := fw_of (d + 2496) a 1 (by omega) (by omega) (by omega)
  have f3 : fw W 13 0 = 1 := fw_of (d * 64 + a + 159744) 1 0 (by omega) (by omega) (by omega)
  rw [major_27 f0]
  simp only [rawMsg, f1, f2, f3]
  rfl

theorem sendl (a b s : Nat) : Statement (.sendl a b s) := by
  refine statement_of rfl fun hl => ?_
  replace hl : (isG a && isG b && isS s) = true := hl
  simp only [Bool.and_eq_true] at hl
  obtain ⟨⟨h0, h1⟩, h2⟩ := hl
  have ha := isG_lt h0
  have hb := isG_lt h1
  have hs := isS_lt h2
  generalize hW : 0x9C000010 + a * 0x4000 + b * 0x100 + s = W
  have f0 : fw W 31 26 = 39 := fw_of 0 39 (a * 16384 + b * 256 + s + 16) (by omega) (by omega) (by omega)
  have f1 : fw W 19 14 = a := fw_of 2496 a (b * 256 + s + 16) (by omega) (by omega) (by omega)
  have f2 : fw W 13 8 = b := fw_of (a + 159744) b (s + 16) (by omega) (by omega) (by omega)
  have f3 : fw W 3 0 = s := fw_of (a * 1024 + b * 16 + 163577857) s 0 (by omega) (by omega) (by omega)
  have f4 : ¬fw W 13 0 = 0 := by rw [fw_of (a + 159744) (b * 256 + s + 16) 0 (by omega) (by omega) (by omega)]; omega
  have f5 : ¬fw W 13 0 = 1 := by rw [fw_of (a + 159744) (b * 256 + s + 16) 0 (by omega) (by omega) (by omega)]; omega
  have f6 : fw W 7 4 = 1 := fw_of (a * 64 + b + 10223616) 1 s (by omega) (by omega) (by omega)
  have f7 : fw W 25 20 = 0 := fw_of 39 0 (a * 16384 + b * 256 + s + 16) (by omega) (by omega) (by omega)
  rw [major_27 f0]
  simp only [rawMsg, f1, f2, f3, f4, f5, f6, f7]
  rfl

theorem invoke (a b : Nat) : Statement (.invoke a b) := by
  refine statement_of rfl fun hl => ?_
  replace hl : (isG a && isG b) = true := hl
  simp only [Bool.and_eq_true] at hl
  obtain ⟨h0, h1⟩ := hl
  have ha := isG_lt h0
  have hb := isG_lt h1
  generalize hW : 0x9C000020 + a * 0x4000 + b * 0x100 = W
  have f0 : fw W 31 26 = 39 := fw_of 0 39 (a * 16384 + b * 256 + 32) (by omega) (by omega) (by omega)
  have f1 : fw W 19 14 = a := fw_of 2496 a (b * 256 + 32) (by omega) (by omega) (by omega)
  have f2 : fw W 13 8 = b := fw_of (a + 159744) b 32 (by omega) (by omega) (by omega)
  have f3 : ¬fw W 13 0 = 0 := by rw [fw_of (a + 159744) (b * 256 + 32) 0 (by omega) (by omega) (by omega)]; omega
  have f4 : ¬fw W 13 0 = 1 := by rw [fw_of (a + 159744) (b * 256 + 32) 0 (by omega) (by omega) (by omega)]; omega
  have f5 : fw W 7 4 = 2 := fw_of (a * 64 + b + 10223616) 2 0 (by omega) (by omega) (by omega)
  have f6 : fw W 7 0 = 32 := fw_of (a * 64 + b + 10223616) 32 0 (by omega) (by omega) (by omega)
  have f7 : fw W 25 20 = 0 := fw_of 39 0 (a * 16384 + b * 256 + 32) (by omega) (by omega) (by omega)
  rw [major_27 f0]
  simp only [rawMsg, f1, f2, f3, f4, f5, f6, f7]
  rfl

theorem invoket (d a b : Nat) : Statement (.invoket d a b) := by
  refine statement_of rfl fun hl => ?_
  replace hl : (isG d && isG a && isG b) = true := hl
  simp only [Bool.and_eq_true] at hl
  obtain ⟨⟨h0, h1⟩, h2⟩ := hl
  have hd := isG_lt h0
  have ha := isG_lt h1
  have hb := isG_lt h2
  generalize hW : 0x9C000021 + d * 0x100000 + a * 0x4000 + b * 0x100 = W
  have f0 : fw W 31 26 = 39 := fw_of 0 39 (d * 1048576 + a * 16384 + b * 256 + 33) (by omega) (by omega) (by omega)
  have f1 : fw W 25 20 = d := fw_of 39 d (a * 16384 + b * 256 + 33) (by omega) (by omega) (by omega)
  have f2 : fw W 19 14 = a := fw_of (d + 2496) a (b * 256 + 33) (by omega) (by omega) (by omega)
  have f3 : fw W 13 8 = b := fw_of (d * 64 + a + 159744) b 33 (by omega) (by omega) (by omega)
  have f4 : ¬fw W 13 0 = 0 := by rw [fw_of (d * 64 + a + 159744) (b * 256 + 33) 0 (by omega) (by omega) (by omega)]; omega
  have f5 : ¬fw W 13 0 = 1 := by rw [fw_of (d * 64 + a + 159744) (b * 256 + 33) 0 (by omega) (by omega) (by omega)]; omega
  have f6 : fw W 7 4 = 2 := fw_of (d * 4096 + a * 64 + b + 10223616) 2 1 (by omega) (by omega) (by omega)
  have f7 : fw W 7 0 = 33 := fw_of (d * 4096 + a * 64 + b + 10223616) 33 0 (by omega) (by omega) (by omega)
  rw [major_27 f0]
  simp only [rawMsg, f1, f2, f3, f4, f5, f6, f7]
  rfl

theorem invokep (a b : Nat) : Statement (.invokep a b) := by
  refine statement_of rfl fun hl => ?_
  replace hl : (isG a && isG b) = true := hl
  simp only [Bool.and_eq_true] at hl
  obtain ⟨h0, h1⟩ := hl
  have ha := isG_lt h0
  have hb := isG_lt h1
  generalize hW : 0x9C000022 + a * 0x4000 + b * 0x100 = W
  have f0 : fw W 31 26 = 39 := fw_of 0 39 (a * 16384 + b * 256 + 34) (by omega) (by omega) (by omega)
  have f1 : fw W 19 14 = a := fw_of 2496 a (b * 256 + 34) (by omega) (by omega) (by omega)
  have f2 : fw W 13 8 = b := fw_of (a + 159744) b 34 (by omega) (by omega) (by omega)
  have f3 : ¬fw W 13 0 = 0 := by rw [fw_of (a + 159744) (b * 256 + 34) 0 (by omega) (by omega) (by omega)]; omega
  have f4 : ¬fw W 13 0 = 1 := by rw [fw_of (a + 159744) (b * 256 + 34) 0 (by omega) (by omega) (by omega)]; omega
  have f5 : fw W 7 4 = 2 := fw_of (a * 64 + b + 10223616) 2 2 (by omega) (by omega) (by omega)
  have f6 : fw W 7 0 = 34 := fw_of (a * 64 + b + 10223616) 34 0 (by omega) (by omega) (by omega)
  have f7 : fw W 25 20 = 0 := fw_of 39 0 (a * 16384 + b * 256 + 34) (by omega) (by omega) (by omega)
  rw [major_27 f0]
  simp only [rawMsg, f1, f2, f3, f4, f5, f6, f7]
  rfl

theorem recv (d a : Nat) : Statement (.recv d a) := by
  refine statement_of rfl fun hl => ?_
  replace hl : (isG d && isG a) = true := hl
  simp only [Bool.and_eq_true] at hl
  obtain ⟨h0, h1⟩ := hl
  have hd := isG_lt h0
  have ha := isG_lt h1
  generalize hW : 0x9C000030 + d * 0x100000 + a * 0x4000 = W
  have f0 : fw W 31 26 = 39 := fw_of 0 39 (d * 1048576 + a * 16384 + 48) (by omega) (by omega) (by omega)
  have f1 : fw W 25 20 = d := fw_of 39 d (a * 16384 + 48) (by omega) (by omega) (by omega)
  have f2 : fw W 19 14 = a := fw_of (d + 2496) a 48 (by omega) (by omega) (by omega)
  have f3 : fw W 13 0 = 48 := fw_of (d * 64 + a + 159744) 48 0 (by omega) (by omega) (by omega)
  have f4 : fw W 7 4 = 3 := fw_of (d * 4096 + a * 64 + 10223616) 3 0 (by omega) (by omega) (by omega)
  have f5 : fw W 7 0 = 48 := fw_of (d * 4096 + a * 64 + 10223616) 48 0 (by omega) (by omega) (by omega)
  rw [major_27 f0]
  simp only [rawMsg, f1, f2, f3, f4, f5]
  rfl

theorem recvt (d a : Nat) : Statement (.recvt d a) := by
  refine statement_of rfl fun hl => ?_
  replace hl : (isG d && isG a) = true := hl
  simp only [Bool.and_eq_true] at hl
  obtain ⟨h0, h1⟩ := hl
  have hd := isG_lt h0
  have ha := isG_lt h1
  generalize hW : 0x9C000031 + d * 0x100000 + a * 0x4000 = W
  have f0 : fw W 31 26 = 39 := fw_of 0 39 (d * 1048576 + a * 16384 + 49) (by omega) (by omega) (by omega)
  have f1 : fw W 25 20 = d := fw_of 39 d (a * 16384 + 49) (by omega) (by omega) (by omega)
  have f2 : fw W 19 14 = a := fw_of (d + 2496) a 49 (by omega) (by omega) (by omega)
  have f3 : fw W 13 0 = 49 := fw_of (d * 64 + a + 159744) 49 0 (by omega) (by omega) (by omega)
  have f4 : fw W 7 4 = 3 := fw_of (d * 4096 + a * 64 + 10223616) 3 1 (by omega) (by omega) (by omega)
  have f5 : fw W 7 0 = 49 := fw_of (d * 4096 + a * 64 + 10223616) 49 0 (by omega) (by omega) (by omega)
  rw [major_27 f0]
  simp only [rawMsg, f1, f2, f3, f4, f5]
  rfl

theorem waitmsg (a : Nat) : Statement (.waitmsg a) := by
  refine statement_of rfl fun hl => ?_
  replace hl : (isG a) = true := hl
  have h0 := hl
  have ha := isG_lt h0
  generalize hW : 0x9C000032 + a * 0x4000 = W
  have f0 : fw W 31 26 = 39 := fw_of 0 39 (a * 16384 + 50) (by omega) (by omega) (by omega)
  have f1 : fw W 19 14 = a := fw_of 2496 a 50 (by omega) (by omega) (by omega)
  have f2 : fw W 13 0 = 50 := fw_of (a + 159744) 50 0 (by omega) (by omega) (by omega)
  have f3 : fw W 7 4 = 3 := fw_of (a * 64 + 10223616) 3 2 (by omega) (by omega) (by omega)
  have f4 : fw W 7 0 = 50 := fw_of (a * 64 + 10223616) 50 0 (by omega) (by omega) (by omega)
  have f5 : fw W 25 20 = 0 := fw_of 39 0 (a * 16384 + 50) (by omega) (by omega) (by omega)
  rw [major_27 f0]
  simp only [rawMsg, f1, f2, f3, f4, f5]
  rfl

theorem reply (a b : Nat) : Statement (.reply a b) := by
  refine statement_of rfl fun hl => ?_
  replace hl : (isG a && isG b) = true := hl
  simp only [Bool.and_eq_true] at hl
  obtain ⟨h0, h1⟩ := hl
  have ha := isG_lt h0
  have hb := isG_lt h1
  generalize hW : 0x9C000038 + a * 0x4000 + b * 0x100 = W
  have f0 : fw W 31 26 = 39 := fw_of 0 39 (a * 16384 + b * 256 + 56) (by omega) (by omega) (by omega)
  have f1 : fw W 19 14 = a := fw_of 2496 a (b * 256 + 56) (by omega) (by omega) (by omega)
  have f2 : fw W 13 8 = b := fw_of (a + 159744) b 56 (by omega) (by omega) (by omega)
  have f3 : ¬fw W 13 0 = 0 := by rw [fw_of (a + 159744) (b * 256 + 56) 0 (by omega) (by omega) (by omega)]; omega
  have f4 : ¬fw W 13 0 = 1 := by rw [fw_of (a + 159744) (b * 256 + 56) 0 (by omega) (by omega) (by omega)]; omega
  have f5 : fw W 7 4 = 3 := fw_of (a * 64 + b + 10223616) 3 8 (by omega) (by omega) (by omega)
  have f6 : fw W 7 0 = 56 := fw_of (a * 64 + b + 10223616) 56 0 (by omega) (by omega) (by omega)
  have f7 : ¬fw W 13 0 = 48 := by rw [fw_of (a + 159744) (b * 256 + 56) 0 (by omega) (by omega) (by omega)]; omega
  have f8 : ¬fw W 13 0 = 49 := by rw [fw_of (a + 159744) (b * 256 + 56) 0 (by omega) (by omega) (by omega)]; omega
  have f9 : ¬fw W 13 0 = 50 := by rw [fw_of (a + 159744) (b * 256 + 56) 0 (by omega) (by omega) (by omega)]; omega
  have f10 : fw W 25 20 = 0 := fw_of 39 0 (a * 16384 + b * 256 + 56) (by omega) (by omega) (by omega)
  rw [major_27 f0]
  simp only [rawMsg, f1, f2, f3, f4, f5, f6, f7, f8, f9, f10]
  rfl

theorem invokei (a b h len prio wsel wx f : Nat) : Statement (.invokei a b h len prio wsel wx f) := by
  refine statement_of rfl fun hl => ?_
  replace hl : (isG a && isG b && invokeiOk h len prio wsel wx f) = true := hl
  simp only [Bool.and_eq_true] at hl
  obtain ⟨⟨h0, h1⟩, h2⟩ := hl
  have ha := isG_lt h0
  have hb := isG_lt h1
  obtain ⟨hh, hlen, hprio, hwsel, hwx, hf⟩ := invokeiOk_lt h2
  generalize hW : 0xF8000000 + a * 0x4000 + b * 0x100 = W
  generalize hE : h + len * 1024 + prio * 4096 + wsel * 16384 + wx * 131072 + f * 262144 = E
  have f0 : fw W 31 26 = 62 := fw_of 0 62 (a * 16384 + b * 256) (by omega) (by omega) (by omega)
  have f1 : fw W 19 14 = a := fw_of 3968 a (b * 256) (by omega) (by omega) (by omega)
  have f2 : fw W 13 8 = b := fw_of (a + 253952) b 0 (by omega) (by omega) (by omega)
  have f3 : fw E 9 0 = h := fw_of (len + prio * 4 + wsel * 16 + wx * 128 + f * 256) h 0 (by omega) (by omega) (by omega)
  have f4 : fw E 11 10 = len := fw_of (prio + wsel * 4 + wx * 32 + f * 64) len h (by omega) (by omega) (by omega)
  have f5 : fw E 13 12 = prio := fw_of (wsel + wx * 8 + f * 16) prio (h + len * 1024) (by omega) (by omega) (by omega)
  have f6 : fw E 16 14 = wsel := fw_of (wx + f * 2) wsel (h + len * 1024 + prio * 4096) (by omega) (by omega) (by omega)
  have f7 : fw E 17 17 = wx := fw_of f wx (h + len * 1024 + prio * 4096 + wsel * 16384) (by omega) (by omega) (by omega)
  have f8 : fw E 22 18 = f := fw_of 0 f (h + len * 1024 + prio * 4096 + wsel * 16384 + wx * 131072) (by omega) (by omega) (by omega)
  have f9 : fw W 7 0 = 0 := fw_of (a * 64 + b + 16252928) 0 0 (by omega) (by omega) (by omega)
  have f10 : fw W 25 20 = 0 := fw_of 62 0 (a * 16384 + b * 256) (by omega) (by omega) (by omega)
  have f11 : fw E 31 23 = 0 := fw_of 0 0 (h + len * 1024 + prio * 4096 + wsel * 16384 + wx * 131072 + f * 262144) (by omega) (by omega) (by omega)
  rw [major_3E f0]
  simp only [rawLmsg, f1, f2, f3, f4, f5, f6, f7, f8, f9, f10, f11]
  rfl

theorem invokeiT (d a b h len prio wsel wx f : Nat) : Statement (.invokeiT d a b h len prio wsel wx f) := by
  refine statement_of rfl fun hl => ?_
  replace hl : (isG d && isG a && isG b && invokeiOk h len prio wsel wx f) = true := hl
  simp only [Bool.and_eq_true] at hl
  obtain ⟨⟨⟨h0, h1⟩, h2⟩, h3⟩ := hl
  have hd := isG_lt h0
  have ha := isG_lt h1
  have hb := isG_lt h2
  obtain ⟨hh, hlen, hprio, hwsel, hwx, hf⟩ := invokeiOk_lt h3
  generalize hW : 0xF8000001 + d * 0x100000 + a * 0x4000 + b * 0x100 = W
  generalize hE : h + len * 1024 + prio * 4096 + wsel * 16384 + wx * 131072 + f * 262144 = E
  have f0 : fw W 31 26 = 62 := fw_of 0 62 (d * 1048576 + a * 16384 + b * 256 + 1) (by omega) (by omega) (by omega)
  have f1 : fw W 25 20 = d := fw_of 62 d (a * 16384 + b * 256 + 1) (by omega) (by omega) (by omega)
  have f2 : fw W 19 14 = a := fw_of (d + 3968) a (b * 256 + 1) (by omega) (by omega) (by omega)
  have f3 : fw W 13 8 = b := fw_of (d * 64 + a + 253952) b 1 (by omega) (by omega) (by omega)
  have f4 : fw E 9 0 = h := fw_of (len + prio * 4 + wsel * 16 + wx * 128 + f * 256) h 0 (by omega) (by omega) (by omega)
  have f5 : fw E 11 10 = len := fw_of (prio + wsel * 4 + wx * 32 + f * 64) len h (by omega) (by omega) (by omega)
  have f6 : fw E 13 12 = prio := fw_of (wsel + wx * 8 + f * 16) prio (h + len * 1024) (by omega) (by omega) (by omega)
  have f7 : fw E 16 14 = wsel := fw_of (wx + f * 2) wsel (h + len * 1024 + prio * 4096) (by omega) (by omega) (by omega)
  have f8 : fw E 17 17 = wx := fw_of f wx (h + len * 1024 + prio * 4096 + wsel * 16384) (by omega) (by omega) (by omega)
  have f9 : fw E 22 18 = f := fw_of 0 f (h + len * 1024 + prio * 4096 + wsel * 16384 + wx * 131072) (by omega) (by omega) (by omega)
  have f10 : fw W 7 0 = 1 := fw_of (d * 4096 + a * 64 + b + 16252928) 1 0 (by omega) (by omega) (by omega)
  have f11 : fw E 31 23 = 0 := fw_of 0 0 (h + len * 1024 + prio * 4096 + wsel * 16384 + wx * 131072 + f * 262144) (by omega) (by omega) (by omega)
  rw [major_3E f0]
  simp only [rawLmsg, f1, f2, f3, f4, f5, f6, f7, f8, f9, f10, f11]
  rfl

theorem invokeiP (a b h len prio wsel wx f : Nat) : Statement (.invokeiP a b h len prio wsel wx f) := by
  refine statement_of rfl fun hl => ?_
  replace hl : (isG a && isG b && invokeiOk h len prio wsel wx f) = true := hl
  simp only [Bool.and_eq_true] at hl
  obtain ⟨⟨h0, h1⟩, h2⟩ := hl
  have ha := isG_lt h0
  have hb := isG_lt h1
  obtain ⟨hh, hlen, hprio, hwsel, hwx, hf⟩ := invokeiOk_lt h2
  generalize hW : 0xF8000002 + a * 0x4000 + b * 0x100 = W
  generalize hE : h + len * 1024 + prio * 4096 + wsel * 16384 + wx * 131072 + f * 262144 = E
  have f0 : fw W 31 26 = 62 := fw_of 0 62 (a * 16384 + b * 256 + 2) (by omega) (by omega) (by omega)
  have f1 : fw W 19 14 = a := fw_of 3968 a (b * 256 + 2) (by omega) (by omega) (by omega)
  have f2 : fw W 13 8 = b := fw_of (a + 253952) b 2 (by omega) (by omega) (by omega)
  have f3 : fw E 9 0 = h := fw_of (len + prio * 4 + wsel * 16 + wx * 128 + f * 256) h 0 (by omega) (by omega) (by omega)
  have f4 : fw E 11 10 = len := fw_of (prio + wsel * 4 + wx * 32 + f * 64) len h (by omega) (by omega) (by omega)
  have f5 : fw E 13 12 = prio := fw_of (wsel + wx * 8 + f * 16) prio (h + len * 1024) (by omega) (by omega) (by omega)
  have f6 : fw E 16 14 = wsel := fw_of (wx + f * 2) wsel (h + len * 1024 + prio * 4096) (by omega) (by omega) (by omega)
  have f7 : fw E 17 17 = wx := fw_of f wx (h + len * 1024 + prio * 4096 + wsel * 16384) (by omega) (by omega) (by omega)
  have f8 : fw E 22 18 = f := fw_of 0 f (h + len * 1024 + prio * 4096 + wsel * 16384 + wx * 131072) (by omega) (by omega) (by omega)
  have f9 : fw W 7 0 = 2 := fw_of (a * 64 + b + 16252928) 2 0 (by omega) (by omega) (by omega)
  have f10 : fw W 25 20 = 0 := fw_of 62 0 (a * 16384 + b * 256 + 2) (by omega) (by omega) (by omega)
  have f11 : fw E 31 23 = 0 := fw_of 0 0 (h + len * 1024 + prio * 4096 + wsel * 16384 + wx * 131072 + f * 262144) (by omega) (by omega) (by omega)
  rw [major_3E f0]
  simp only [rawLmsg, f1, f2, f3, f4, f5, f6, f7, f8, f9, f10, f11]
  rfl

theorem dset (d a b : Nat) : Statement (.dset d a b) := by
  refine statement_of rfl fun hl => ?_
  replace hl : (isD d && isG a && isG b) = true := hl
  simp only [Bool.and_eq_true] at hl
  obtain ⟨⟨h0, h1⟩, h2⟩ := hl
  have hd := isD_lt h0
  have ha := isG_lt h1
  have hb := isG_lt h2
  generalize hW : 0xA0000000 + d * 0x100000 + a * 0x4000 + b * 0x100 = W
  have f0 : fw W 31 26 = 40 := fw_of 0 40 (d * 1048576 + a * 16384 + b * 256) (by omega) (by omega) (by omega)
  have f1 : fw W 25 20 = d := fw_of 40 d (a * 16384 + b * 256) (by omega) (by omega) (by omega)
  have f2 : fw W 19 14 = a := fw_of (d + 2560) a (b * 256) (by omega) (by omega) (by omega)
  have f3 : fw W 13 8 = b := fw_of (d * 64 + a + 163840) b 0 (by omega) (by omega) (by omega)
  have f4 : fw W 7 0 = 0 := fw_of (d * 4096 + a * 64 + b + 10485760) 0 0 (by omega) (by omega) (by omega)
  rw [major_28 f0]
  simp only [rawCnt, f1, f2, f3, f4]
  rfl

theorem ddec (d a b : Nat) : Statement (.ddec d a b) := by
  refine statement_of rfl fun hl => ?_
  replace hl : (isD d && isG a && isG b) = true := hl
  simp only [Bool.and_eq_true] at hl
  obtain ⟨⟨h0, h1⟩, h2⟩ := hl
  have hd := isD_lt h0
  have ha := isG_lt h1
  have hb := isG_lt h2
  generalize hW : 0xA0000001 + d * 0x100000 + a * 0x4000 + b * 0x100 = W
  have f0 : fw W 31 26 = 40 := fw_of 0 40 (d * 1048576 + a * 16384 + b * 256 + 1) (by omega) (by omega) (by omega)
  have f1 : fw W 25 20 = d := fw_of 40 d (a * 16384 + b * 256 + 1) (by omega) (by omega) (by omega)
  have f2 : fw W 19 14 = a := fw_of (d + 2560) a (b * 256 + 1) (by omega) (by omega) (by omega)
  have f3 : fw W 13 8 = b := fw_of (d * 64 + a + 163840) b 1 (by omega) (by omega) (by omega)
  have f4 : fw W 7 0 = 1 := fw_of (d * 4096 + a * 64 + b + 10485760) 1 0 (by omega) (by omega) (by omega)
  rw [major_28 f0]
  simp only [rawCnt, f1, f2, f3, f4]
  rfl

theorem dwait (d : Nat) : Statement (.dwait d) := by
  refine statement_of rfl fun hl => ?_
  replace hl : (isD d) = true := hl
  have h0 := hl
  have hd := isD_lt h0
  generalize hW : 0xA0000002 + d * 0x100000 = W
  have f0 : fw W 31 26 = 40 := fw_of 0 40 (d * 1048576 + 2) (by omega) (by omega) (by omega)
  have f1 : fw W 25 20 = d := fw_of 40 d 2 (by omega) (by omega) (by omega)
  have f2 : fw W 7 0 = 2 := fw_of (d * 4096 + 10485760) 2 0 (by omega) (by omega) (by omega)
  have f3 : fw W 19 0 = 2 := fw_of (d + 2560) 2 0 (by omega) (by omega) (by omega)
  rw [major_28 f0]
  simp only [rawCnt, f1, f2, f3]
  rfl

theorem rld (d a s c o z : Nat) : Statement (.rld d a s c o z) := by
  refine statement_of rfl fun hl => ?_
  replace hl : (isG d && isG a && isS s && isScope c && below 4 o && below 4 z) = true := hl
  simp only [Bool.and_eq_true] at hl
  obtain ⟨⟨⟨⟨⟨h0, h1⟩, h2⟩, h3⟩, h4⟩, h5⟩ := hl
  have hd := isG_lt h0
  have ha := isG_lt h1
  have hs := isS_lt h2
  have hc := isScope_lt h3
  have ho := below_lt h4
  have hz := below_lt h5
  generalize hW : 0xA4000000 + d * 0x100000 + a * 0x4000 + s * 0x400 + c * 0x80 + o * 0x20 + z * 0x8 = W
  have f0 : fw W 31 26 = 41 := fw_of 0 41 (d * 1048576 + a * 16384 + s * 1024 + c * 128 + o * 32 + z * 8) (by omega) (by omega) (by omega)
  have f1 : fw W 25 20 = d := fw_of 41 d (a * 16384 + s * 1024 + c * 128 + o * 32 + z * 8) (by omega) (by omega) (by omega)
  have f2 : fw W 19 14 = a := fw_of (d + 2624) a (s * 1024 + c * 128 + o * 32 + z * 8) (by omega) (by omega) (by omega)
  have f3 : fw W 13 10 = s := fw_of (d * 64 + a + 167936) s (c * 128 + o * 32 + z * 8) (by omega) (by omega) (by omega)
  have f4 : fw W 9 7 = c := fw_of (d * 1024 + a * 16 + s + 2686976) c (o * 32 + z * 8) (by omega) (by omega) (by omega)
  have f5 : fw W 6 5 = o := fw_of (d * 8192 + a * 128 + s * 8 + c + 21495808) o (z * 8) (by omega) (by omega) (by omega)
  have f6 : fw W 4 3 = z := fw_of (d * 32768 + a * 512 + s * 32 + c * 4 + o + 85983232) z 0 (by omega) (by omega) (by omega)
  have f7 : fw W 2 0 = 0 := fw_of (d * 131072 + a * 2048 + s * 128 + c * 16 + o * 4 + z + 343932928) 0 0 (by omega) (by omega) (by omega)
  rw [major_29 f0]
  simp only [rawRmem, f1, f2, f3, f4, f5, f6, f7]
  rfl

theorem rst (d a s c o z : Nat) : Statement (.rst d a s c o z) := by
  refine statement_of rfl fun hl => ?_
  replace hl : (isG d && isG a && isS s && isScope c && below 4 o && below 4 z) = true := hl
  simp only [Bool.and_eq_true] at hl
  obtain ⟨⟨⟨⟨⟨h0, h1⟩, h2⟩, h3⟩, h4⟩, h5⟩ := hl
  have hd := isG_lt h0
  have ha := isG_lt h1
  have hs := isS_lt h2
  have hc := isScope_lt h3
  have ho := below_lt h4
  have hz := below_lt h5
  generalize hW : 0xA4000002 + d * 0x100000 + a * 0x4000 + s * 0x400 + c * 0x80 + o * 0x20 + z * 0x8 = W
  have f0 : fw W 31 26 = 41 := fw_of 0 41 (d * 1048576 + a * 16384 + s * 1024 + c * 128 + o * 32 + z * 8 + 2) (by omega) (by omega) (by omega)
  have f1 : fw W 25 20 = d := fw_of 41 d (a * 16384 + s * 1024 + c * 128 + o * 32 + z * 8 + 2) (by omega) (by omega) (by omega)
  have f2 : fw W 19 14 = a := fw_of (d + 2624) a (s * 1024 + c * 128 + o * 32 + z * 8 + 2) (by omega) (by omega) (by omega)
  have f3 : fw W 13 10 = s := fw_of (d * 64 + a + 167936) s (c * 128 + o * 32 + z * 8 + 2) (by omega) (by omega) (by omega)
  have f4 : fw W 9 7 = c := fw_of (d * 1024 + a * 16 + s + 2686976) c (o * 32 + z * 8 + 2) (by omega) (by omega) (by omega)
  have f5 : fw W 6 5 = o := fw_of (d * 8192 + a * 128 + s * 8 + c + 21495808) o (z * 8 + 2) (by omega) (by omega) (by omega)
  have f6 : fw W 4 3 = z := fw_of (d * 32768 + a * 512 + s * 32 + c * 4 + o + 85983232) z 2 (by omega) (by omega) (by omega)
  have f7 : fw W 2 0 = 2 := fw_of (d * 131072 + a * 2048 + s * 128 + c * 16 + o * 4 + z + 343932928) 2 0 (by omega) (by omega) (by omega)
  rw [major_29 f0]
  simp only [rawRmem, f1, f2, f3, f4, f5, f6, f7]
  rfl

theorem nst (d a s c o z : Nat) : Statement (.nst d a s c o z) := by
  refine statement_of rfl fun hl => ?_
  replace hl : (isG d && isG a && isS s && isScope c && below 4 o && below 4 z) = true := hl
  simp only [Bool.and_eq_true] at hl
  obtain ⟨⟨⟨⟨⟨h0, h1⟩, h2⟩, h3⟩, h4⟩, h5⟩ := hl
  have hd := isG_lt h0
  have ha := isG_lt h1
  have hs := isS_lt h2
  have hc := isScope_lt h3
  have ho := below_lt h4
  have hz := below_lt h5
  generalize hW : 0xA4000004 + d * 0x100000 + a * 0x4000 + s * 0x400 + c * 0x80 + o * 0x20 + z * 0x8 = W
  have f0 : fw W 31 26 = 41 := fw_of 0 41 (d * 1048576 + a * 16384 + s * 1024 + c * 128 + o * 32 + z * 8 + 4) (by omega) (by omega) (by omega)
  have f1 : fw W 25 20 = d := fw_of 41 d (a * 16384 + s * 1024 + c * 128 + o * 32 + z * 8 + 4) (by omega) (by omega) (by omega)
  have f2 : fw W 19 14 = a := fw_of (d + 2624) a (s * 1024 + c * 128 + o * 32 + z * 8 + 4) (by omega) (by omega) (by omega)
  have f3 : fw W 13 10 = s := fw_of (d * 64 + a + 167936) s (c * 128 + o * 32 + z * 8 + 4) (by omega) (by omega) (by omega)
  have f4 : fw W 9 7 = c := fw_of (d * 1024 + a * 16 + s + 2686976) c (o * 32 + z * 8 + 4) (by omega) (by omega) (by omega)
  have f5 : fw W 6 5 = o := fw_of (d * 8192 + a * 128 + s * 8 + c + 21495808) o (z * 8 + 4) (by omega) (by omega) (by omega)
  have f6 : fw W 4 3 = z := fw_of (d * 32768 + a * 512 + s * 32 + c * 4 + o + 85983232) z 4 (by omega) (by omega) (by omega)
  have f7 : fw W 2 0 = 4 := fw_of (d * 131072 + a * 2048 + s * 128 + c * 16 + o * 4 + z + 343932928) 4 0 (by omega) (by omega) (by omega)
  rw [major_29 f0]
  simp only [rawRmem, f1, f2, f3, f4, f5, f6, f7]
  rfl

theorem radd (d a s c o z : Nat) : Statement (.radd d a s c o z) := by
  refine statement_of rfl fun hl => ?_
  replace hl : (isG d && isG a && isS s && isScope c && below 4 o && below 2 z) = true := hl
  simp only [Bool.and_eq_true] at hl
  obtain ⟨⟨⟨⟨⟨h0, h1⟩, h2⟩, h3⟩, h4⟩, h5⟩ := hl
  have hd := isG_lt h0
  have ha := isG_lt h1
  have hs := isS_lt h2
  have hc := isScope_lt h3
  have ho := below_lt h4
  have hz := below_lt h5
  generalize hW : 0xA8000000 + d * 0x100000 + a * 0x4000 + s * 0x400 + c * 0x80 + o * 0x20 + z * 0x10 = W
  have f0 : fw W 31 26 = 42 := fw_of 0 42 (d * 1048576 + a * 16384 + s * 1024 + c * 128 + o * 32 + z * 16) (by omega) (by omega) (by omega)
  have f1 : fw W 25 20 = d := fw_of 42 d (a * 16384 + s * 1024 + c * 128 + o * 32 + z * 16) (by omega) (by omega) (by omega)
  have f2 : fw W 19 14 = a := fw_of (d + 2688) a (s * 1024 + c * 128 + o * 32 + z * 16) (by omega) (by omega) (by omega)
  have f3 : fw W 13 10 = s := fw_of (d * 64 + a + 172032) s (c * 128 + o * 32 + z * 16) (by omega) (by omega) (by omega)
  have f4 : fw W 9 7 = c := fw_of (d * 1024 + a * 16 + s + 2752512) c (o * 32 + z * 16) (by omega) (by omega) (by omega)
  have f5 : fw W 6 5 = o := fw_of (d * 8192 + a * 128 + s * 8 + c + 22020096) o (z * 16) (by omega) (by omega) (by omega)
  have f6 : fw W 4 4 = z := fw_of (d * 32768 + a * 512 + s * 32 + c * 4 + o + 88080384) z 0 (by omega) (by omega) (by omega)
  have f7 : fw W 3 0 = 0 := fw_of (d * 65536 + a * 1024 + s * 64 + c * 8 + o * 2 + z + 176160768) 0 0 (by omega) (by omega) (by omega)
  rw [major_2A f0]
  simp only [rawRamo, f1, f2, f3, f4, f5, f6, f7]
  rfl

theorem rmin (d a s c o z : Nat) : Statement (.rmin d a s c o z) := by
  refine statement_of rfl fun hl => ?_
  replace hl : (isG d && isG a && isS s && isScope c && below 4 o && below 2 z) = true := hl
  simp only [Bool.and_eq_true] at hl
  obtain ⟨⟨⟨⟨⟨h0, h1⟩, h2⟩, h3⟩, h4⟩, h5⟩ := hl
  have hd := isG_lt h0
  have ha := isG_lt h1
  have hs := isS_lt h2
  have hc := isScope_lt h3
  have ho := below_lt h4
  have hz := below_lt h5
  generalize hW : 0xA8000001 + d * 0x100000 + a * 0x4000 + s * 0x400 + c * 0x80 + o * 0x20 + z * 0x10 = W
  have f0 : fw W 31 26 = 42 := fw_of 0 42 (d * 1048576 + a * 16384 + s * 1024 + c * 128 + o * 32 + z * 16 + 1) (by omega) (by omega) (by omega)
  have f1 : fw W 25 20 = d := fw_of 42 d (a * 16384 + s * 1024 + c * 128 + o * 32 + z * 16 + 1) (by omega) (by omega) (by omega)
  have f2 : fw W 19 14 = a := fw_of (d + 2688) a (s * 1024 + c * 128 + o * 32 + z * 16 + 1) (by omega) (by omega) (by omega)
  have f3 : fw W 13 10 = s := fw_of (d * 64 + a + 172032) s (c * 128 + o * 32 + z * 16 + 1) (by omega) (by omega) (by omega)
  have f4 : fw W 9 7 = c := fw_of (d * 1024 + a * 16 + s + 2752512) c (o * 32 + z * 16 + 1) (by omega) (by omega) (by omega)
  have f5 : fw W 6 5 = o := fw_of (d * 8192 + a * 128 + s * 8 + c + 22020096) o (z * 16 + 1) (by omega) (by omega) (by omega)
  have f6 : fw W 4 4 = z := fw_of (d * 32768 + a * 512 + s * 32 + c * 4 + o + 88080384) z 1 (by omega) (by omega) (by omega)
  have f7 : fw W 3 0 = 1 := fw_of (d * 65536 + a * 1024 + s * 64 + c * 8 + o * 2 + z + 176160768) 1 0 (by omega) (by omega) (by omega)
  rw [major_2A f0]
  simp only [rawRamo, f1, f2, f3, f4, f5, f6, f7]
  rfl

theorem rmax (d a s c o z : Nat) : Statement (.rmax d a s c o z) := by
  refine statement_of rfl fun hl => ?_
  replace hl : (isG d && isG a && isS s && isScope c && below 4 o && below 2 z) = true := hl
  simp only [Bool.and_eq_true] at hl
  obtain ⟨⟨⟨⟨⟨h0, h1⟩, h2⟩, h3⟩, h4⟩, h5⟩ := hl
  have hd := isG_lt h0
  have ha := isG_lt h1
  have hs := isS_lt h2
  have hc := isScope_lt h3
  have ho := below_lt h4
  have hz := below_lt h5
  generalize hW : 0xA8000002 + d * 0x100000 + a * 0x4000 + s * 0x400 + c * 0x80 + o * 0x20 + z * 0x10 = W
  have f0 : fw W 31 26 = 42 := fw_of 0 42 (d * 1048576 + a * 16384 + s * 1024 + c * 128 + o * 32 + z * 16 + 2) (by omega) (by omega) (by omega)
  have f1 : fw W 25 20 = d := fw_of 42 d (a * 16384 + s * 1024 + c * 128 + o * 32 + z * 16 + 2) (by omega) (by omega) (by omega)
  have f2 : fw W 19 14 = a := fw_of (d + 2688) a (s * 1024 + c * 128 + o * 32 + z * 16 + 2) (by omega) (by omega) (by omega)
  have f3 : fw W 13 10 = s := fw_of (d * 64 + a + 172032) s (c * 128 + o * 32 + z * 16 + 2) (by omega) (by omega) (by omega)
  have f4 : fw W 9 7 = c := fw_of (d * 1024 + a * 16 + s + 2752512) c (o * 32 + z * 16 + 2) (by omega) (by omega) (by omega)
  have f5 : fw W 6 5 = o := fw_of (d * 8192 + a * 128 + s * 8 + c + 22020096) o (z * 16 + 2) (by omega) (by omega) (by omega)
  have f6 : fw W 4 4 = z := fw_of (d * 32768 + a * 512 + s * 32 + c * 4 + o + 88080384) z 2 (by omega) (by omega) (by omega)
  have f7 : fw W 3 0 = 2 := fw_of (d * 65536 + a * 1024 + s * 64 + c * 8 + o * 2 + z + 176160768) 2 0 (by omega) (by omega) (by omega)
  rw [major_2A f0]
  simp only [rawRamo, f1, f2, f3, f4, f5, f6, f7]
  rfl

theorem rand (d a s c o z : Nat) : Statement (.rand d a s c o z) := by
  refine statement_of rfl fun hl => ?_
  replace hl : (isG d && isG a && isS s && isScope c && below 4 o && below 2 z) = true := hl
  simp only [Bool.and_eq_true] at hl
  obtain ⟨⟨⟨⟨⟨h0, h1⟩, h2⟩, h3⟩, h4⟩, h5⟩ := hl
  have hd := isG_lt h0
  have ha := isG_lt h1
  have hs := isS_lt h2
  have hc := isScope_lt h3
  have ho := below_lt h4
  have hz := below_lt h5
  generalize hW : 0xA8000003 + d * 0x100000 + a * 0x4000 + s * 0x400 + c * 0x80 + o * 0x20 + z * 0x10 = W
  have f0 : fw W 31 26 = 42 := fw_of 0 42 (d * 1048576 + a * 16384 + s * 1024 + c * 128 + o * 32 + z * 16 + 3) (by omega) (by omega) (by omega)
  have f1 : fw W 25 20 = d := fw_of 42 d (a * 16384 + s * 1024 + c * 128 + o * 32 + z * 16 + 3) (by omega) (by omega) (by omega)
  have f2 : fw W 19 14 = a := fw_of (d + 2688) a (s * 1024 + c * 128 + o * 32 + z * 16 + 3) (by omega) (by omega) (by omega)
  have f3 : fw W 13 10 = s := fw_of (d * 64 + a + 172032) s (c * 128 + o * 32 + z * 16 + 3) (by omega) (by omega) (by omega)
  have f4 : fw W 9 7 = c := fw_of (d * 1024 + a * 16 + s + 2752512) c (o * 32 + z * 16 + 3) (by omega) (by omega) (by omega)
  have f5 : fw W 6 5 = o := fw_of (d * 8192 + a * 128 + s * 8 + c + 22020096) o (z * 16 + 3) (by omega) (by omega) (by omega)
  have f6 : fw W 4 4 = z := fw_of (d * 32768 + a * 512 + s * 32 + c * 4 + o + 88080384) z 3 (by omega) (by omega) (by omega)
  have f7 : fw W 3 0 = 3 := fw_of (d * 65536 + a * 1024 + s * 64 + c * 8 + o * 2 + z + 176160768) 3 0 (by omega) (by omega) (by omega)
  rw [major_2A f0]
  simp only [rawRamo, f1, f2, f3, f4, f5, f6, f7]
  rfl

theorem ror (d a s c o z : Nat) : Statement (.ror d a s c o z) := by
  refine statement_of rfl fun hl => ?_
  replace hl : (isG d && isG a && isS s && isScope c && below 4 o && below 2 z) = true := hl
  simp only [Bool.and_eq_true] at hl
  obtain ⟨⟨⟨⟨⟨h0, h1⟩, h2⟩, h3⟩, h4⟩, h5⟩ := hl
  have hd := isG_lt h0
  have ha := isG_lt h1
  have hs := isS_lt h2
  have hc := isScope_lt h3
  have ho := below_lt h4
  have hz := below_lt h5
  generalize hW : 0xA8000004 + d * 0x100000 + a * 0x4000 + s * 0x400 + c * 0x80 + o * 0x20 + z * 0x10 = W
  have f0 : fw W 31 26 = 42 := fw_of 0 42 (d * 1048576 + a * 16384 + s * 1024 + c * 128 + o * 32 + z * 16 + 4) (by omega) (by omega) (by omega)
  have f1 : fw W 25 20 = d := fw_of 42 d (a * 16384 + s * 1024 + c * 128 + o * 32 + z * 16 + 4) (by omega) (by omega) (by omega)
  have f2 : fw W 19 14 = a := fw_of (d + 2688) a (s * 1024 + c * 128 + o * 32 + z * 16 + 4) (by omega) (by omega) (by omega)
  have f3 : fw W 13 10 = s := fw_of (d * 64 + a + 172032) s (c * 128 + o * 32 + z * 16 + 4) (by omega) (by omega) (by omega)
  have f4 : fw W 9 7 = c := fw_of (d * 1024 + a * 16 + s + 2752512) c (o * 32 + z * 16 + 4) (by omega) (by omega) (by omega)
  have f5 : fw W 6 5 = o := fw_of (d * 8192 + a * 128 + s * 8 + c + 22020096) o (z * 16 + 4) (by omega) (by omega) (by omega)
  have f6 : fw W 4 4 = z := fw_of (d * 32768 + a * 512 + s * 32 + c * 4 + o + 88080384) z 4 (by omega) (by omega) (by omega)
  have f7 : fw W 3 0 = 4 := fw_of (d * 65536 + a * 1024 + s * 64 + c * 8 + o * 2 + z + 176160768) 4 0 (by omega) (by omega) (by omega)
  rw [major_2A f0]
  simp only [rawRamo, f1, f2, f3, f4, f5, f6, f7]
  rfl

theorem rxor (d a s c o z : Nat) : Statement (.rxor d a s c o z) := by
  refine statement_of rfl fun hl => ?_
  replace hl : (isG d && isG a && isS s && isScope c && below 4 o && below 2 z) = true := hl
  simp only [Bool.and_eq_true] at hl
  obtain ⟨⟨⟨⟨⟨h0, h1⟩, h2⟩, h3⟩, h4⟩, h5⟩ := hl
  have hd := isG_lt h0
  have ha := isG_lt h1
  have hs := isS_lt h2
  have hc := isScope_lt h3
  have ho := below_lt h4
  have hz := below_lt h5
  generalize hW : 0xA8000005 + d * 0x100000 + a * 0x4000 + s * 0x400 + c * 0x80 + o * 0x20 + z * 0x10 = W
  have f0 : fw W 31 26 = 42 := fw_of 0 42 (d * 1048576 + a * 16384 + s * 1024 + c * 128 + o * 32 + z * 16 + 5) (by omega) (by omega) (by omega)
  have f1 : fw W 25 20 = d := fw_of 42 d (a * 16384 + s * 1024 + c * 128 + o * 32 + z * 16 + 5) (by omega) (by omega) (by omega)
  have f2 : fw W 19 14 = a := fw_of (d + 2688) a (s * 1024 + c * 128 + o * 32 + z * 16 + 5) (by omega) (by omega) (by omega)
  have f3 : fw W 13 10 = s := fw_of (d * 64 + a + 172032) s (c * 128 + o * 32 + z * 16 + 5) (by omega) (by omega) (by omega)
  have f4 : fw W 9 7 = c := fw_of (d * 1024 + a * 16 + s + 2752512) c (o * 32 + z * 16 + 5) (by omega) (by omega) (by omega)
  have f5 : fw W 6 5 = o := fw_of (d * 8192 + a * 128 + s * 8 + c + 22020096) o (z * 16 + 5) (by omega) (by omega) (by omega)
  have f6 : fw W 4 4 = z := fw_of (d * 32768 + a * 512 + s * 32 + c * 4 + o + 88080384) z 5 (by omega) (by omega) (by omega)
  have f7 : fw W 3 0 = 5 := fw_of (d * 65536 + a * 1024 + s * 64 + c * 8 + o * 2 + z + 176160768) 5 0 (by omega) (by omega) (by omega)
  rw [major_2A f0]
  simp only [rawRamo, f1, f2, f3, f4, f5, f6, f7]
  rfl

theorem rswp (d a s c o z : Nat) : Statement (.rswp d a s c o z) := by
  refine statement_of rfl fun hl => ?_
  replace hl : (isG d && isG a && isS s && isScope c && below 4 o && below 2 z) = true := hl
  simp only [Bool.and_eq_true] at hl
  obtain ⟨⟨⟨⟨⟨h0, h1⟩, h2⟩, h3⟩, h4⟩, h5⟩ := hl
  have hd := isG_lt h0
  have ha := isG_lt h1
  have hs := isS_lt h2
  have hc := isScope_lt h3
  have ho := below_lt h4
  have hz := below_lt h5
  generalize hW : 0xA8000006 + d * 0x100000 + a * 0x4000 + s * 0x400 + c * 0x80 + o * 0x20 + z * 0x10 = W
  have f0 : fw W 31 26 = 42 := fw_of 0 42 (d * 1048576 + a * 16384 + s * 1024 + c * 128 + o * 32 + z * 16 + 6) (by omega) (by omega) (by omega)
  have f1 : fw W 25 20 = d := fw_of 42 d (a * 16384 + s * 1024 + c * 128 + o * 32 + z * 16 + 6) (by omega) (by omega) (by omega)
  have f2 : fw W 19 14 = a := fw_of (d + 2688) a (s * 1024 + c * 128 + o * 32 + z * 16 + 6) (by omega) (by omega) (by omega)
  have f3 : fw W 13 10 = s := fw_of (d * 64 + a + 172032) s (c * 128 + o * 32 + z * 16 + 6) (by omega) (by omega) (by omega)
  have f4 : fw W 9 7 = c := fw_of (d * 1024 + a * 16 + s + 2752512) c (o * 32 + z * 16 + 6) (by omega) (by omega) (by omega)
  have f5 : fw W 6 5 = o := fw_of (d * 8192 + a * 128 + s * 8 + c + 22020096) o (z * 16 + 6) (by omega) (by omega) (by omega)
  have f6 : fw W 4 4 = z := fw_of (d * 32768 + a * 512 + s * 32 + c * 4 + o + 88080384) z 6 (by omega) (by omega) (by omega)
  have f7 : fw W 3 0 = 6 := fw_of (d * 65536 + a * 1024 + s * 64 + c * 8 + o * 2 + z + 176160768) 6 0 (by omega) (by omega) (by omega)
  rw [major_2A f0]
  simp only [rawRamo, f1, f2, f3, f4, f5, f6, f7]
  rfl

theorem rcas (d a s c o z : Nat) : Statement (.rcas d a s c o z) := by
  refine statement_of rfl fun hl => ?_
  replace hl : ((isG d && isG a && isS s && isScope c && below 4 o && below 2 z) && decide (d % 2 = 0)) = true := hl
  simp only [Bool.and_eq_true] at hl
  obtain ⟨⟨⟨⟨⟨⟨h0, h1⟩, h2⟩, h3⟩, h4⟩, h5⟩, h6⟩ := hl
  have hd := isG_lt h0
  have ha := isG_lt h1
  have hs := isS_lt h2
  have hc := isScope_lt h3
  have ho := below_lt h4
  have hz := below_lt h5
  generalize hW : 0xA8000007 + d * 0x100000 + a * 0x4000 + s * 0x400 + c * 0x80 + o * 0x20 + z * 0x10 = W
  have f0 : fw W 31 26 = 42 := fw_of 0 42 (d * 1048576 + a * 16384 + s * 1024 + c * 128 + o * 32 + z * 16 + 7) (by omega) (by omega) (by omega)
  have f1 : fw W 25 20 = d := fw_of 42 d (a * 16384 + s * 1024 + c * 128 + o * 32 + z * 16 + 7) (by omega) (by omega) (by omega)
  have f2 : fw W 19 14 = a := fw_of (d + 2688) a (s * 1024 + c * 128 + o * 32 + z * 16 + 7) (by omega) (by omega) (by omega)
  have f3 : fw W 13 10 = s := fw_of (d * 64 + a + 172032) s (c * 128 + o * 32 + z * 16 + 7) (by omega) (by omega) (by omega)
  have f4 : fw W 9 7 = c := fw_of (d * 1024 + a * 16 + s + 2752512) c (o * 32 + z * 16 + 7) (by omega) (by omega) (by omega)
  have f5 : fw W 6 5 = o := fw_of (d * 8192 + a * 128 + s * 8 + c + 22020096) o (z * 16 + 7) (by omega) (by omega) (by omega)
  have f6 : fw W 4 4 = z := fw_of (d * 32768 + a * 512 + s * 32 + c * 4 + o + 88080384) z 7 (by omega) (by omega) (by omega)
  have f7 : fw W 3 0 = 7 := fw_of (d * 65536 + a * 1024 + s * 64 + c * 8 + o * 2 + z + 176160768) 7 0 (by omega) (by omega) (by omega)
  rw [major_2A f0]
  simp only [rawRamo, f1, f2, f3, f4, f5, f6, f7]
  rfl

theorem mcst (z d a b s c o : Nat) : Statement (.mcst z d a b s c o) := by
  refine statement_of rfl fun hl => ?_
  replace hl : (below 4 z && isG d && isG a && isG b && isS s && isScope c && below 4 o) = true := hl
  simp only [Bool.and_eq_true] at hl
  obtain ⟨⟨⟨⟨⟨⟨h0, h1⟩, h2⟩, h3⟩, h4⟩, h5⟩, h6⟩ := hl
  have hz := below_lt h0
  have hd := isG_lt h1
  have ha := isG_lt h2
  have hb := isG_lt h3
  have hs := isS_lt h4
  have hc := isScope_lt h5
  have ho := below_lt h6
  generalize hW : 0xF8000080 + z + d * 0x100000 + a * 0x4000 + b * 0x100 = W
  generalize hE : s + c * 16 + o * 128 = E
  have f0 : fw W 31 26 = 62 := fw_of 0 62 (z + d * 1048576 + a * 16384 + b * 256 + 128) (by omega) (by omega) (by omega)
  have f1 : fw W 1 0 = z := fw_of (d * 262144 + a * 4096 + b * 64 + 1040187424) z 0 (by omega) (by omega) (by omega)
  have f2 : fw W 25 20 = d := fw_of 62 d (z + a * 16384 + b * 256 + 128) (by omega) (by omega) (by omega)
  have f3 : fw W 19 14 = a := fw_of (d + 3968) a (z + b * 256 + 128) (by omega) (by omega) (by omega)
  have f4 : fw W 13 8 = b := fw_of (d * 64 + a + 253952) b (z + 128) (by omega) (by omega) (by omega)
  have f5 : fw E 3 0 = s := fw_of (c + o * 8) s 0 (by omega) (by omega) (by omega)
  have f6 : fw E 6 4 = c := fw_of o c s (by omega) (by omega) (by omega)
  have f7 : fw E 8 7 = o := fw_of 0 o (s + c * 16) (by omega) (by omega) (by omega)
  have f8 : ¬fw W 7 0 = 0 := by rw [fw_of (d * 4096 + a * 64 + b + 16252928) (z + 128) 0 (by omega) (by omega) (by omega)]; omega
  have f9 : ¬fw W 7 0 = 1 := by rw [fw_of (d * 4096 + a * 64 + b + 16252928) (z + 128) 0 (by omega) (by omega) (by omega)]; omega
  have f10 : ¬fw W 7 0 = 2 := by rw [fw_of (d * 4096 + a * 64 + b + 16252928) (z + 128) 0 (by omega) (by omega) (by omega)]; omega
  have f11 : fw W 7 2 = 32 := fw_of (d * 4096 + a * 64 + b + 16252928) 32 z (by omega) (by omega) (by omega)
  have f12 : fw E 31 9 = 0 := fw_of 0 0 (s + c * 16 + o * 128) (by omega) (by omega) (by omega)
  rw [major_3E f0]
  simp only [rawLmsg, f1, f2, f3, f4, f5, f6, f7, f8, f9, f10, f11, f12]
  rfl

theorem hinit (a b : Nat) : Statement (.hinit a b) := by
  refine statement_of rfl fun hl => ?_
  replace hl : (isH a && isG b) = true := hl
  simp only [Bool.and_eq_true] at hl
  obtain ⟨h0, h1⟩ := hl
  have ha := isH_lt h0
  have hb := isG_lt h1
  generalize hW : 0xAC000000 + a * 0x4000 + b * 0x100 = W
  have f0 : fw W 31 26 = 43 := fw_of 0 43 (a * 16384 + b * 256) (by omega) (by omega) (by omega)
  have f1 : fw W 19 14 = a := fw_of 2752 a (b * 256) (by omega) (by omega) (by omega)
  have f2 : fw W 13 8 = b := fw_of (a + 176128) b 0 (by omega) (by omega) (by omega)
  have f3 : fw W 7 0 = 0 := fw_of (a * 64 + b + 11272192) 0 0 (by omega) (by omega) (by omega)
  have f4 : fw W 25 20 = 0 := fw_of 43 0 (a * 16384 + b * 256) (by omega) (by omega) (by omega)
  rw [major_2B f0]
  simp only [rawHasp, f1, f2, f3, f4]
  rfl

theorem harrive (d a x c : Nat) : Statement (.harrive d a x c) := by
  refine statement_of rfl fun hl => ?_
  replace hl : (isG d && isH a && below 2 x && isScope c) = true := hl
  simp only [Bool.and_eq_true] at hl
  obtain ⟨⟨⟨h0, h1⟩, h2⟩, h3⟩ := hl
  have hd := isG_lt h0
  have ha := isH_lt h1
  have hx := below_lt h2
  have hc := isScope_lt h3
  generalize hW : 0xAC000010 + d * 0x100000 + a * 0x4000 + x * 0x8 + c = W
  have f0 : fw W 31 26 = 43 := fw_of 0 43 (d * 1048576 + a * 16384 + x * 8 + c + 16) (by omega) (by omega) (by omega)
  have f1 : fw W 25 20 = d := fw_of 43 d (a * 16384 + x * 8 + c + 16) (by omega) (by omega) (by omega)
  have f2 : fw W 19 14 = a := fw_of (d + 2752) a (x * 8 + c + 16) (by omega) (by omega) (by omega)
  have f3 : fw W 3 3 = x := fw_of (d * 65536 + a * 1024 + 180355073) x c (by omega) (by omega) (by omega)
  have f4 : fw W 2 0 = c := fw_of (d * 131072 + a * 2048 + x + 360710146) c 0 (by omega) (by omega) (by omega)
  have f5 : ¬fw W 7 0 = 0 := by rw [fw_of (d * 4096 + a * 64 + 11272192) (x * 8 + c + 16) 0 (by omega) (by omega) (by omega)]; omega
  have f6 : fw W 13 4 = 1 := fw_of (d * 64 + a + 176128) 1 (x * 8 + c) (by omega) (by omega) (by omega)
  rw [major_2B f0]
  simp only [rawHasp, f1, f2, f3, f4, f5, f6]
  rfl

theorem harriveRemote (d a x c : Nat) : Statement (.harriveRemote d a x c) := by
  refine statement_of rfl fun hl => ?_
  replace hl : (isG d && isG a && below 2 x && isScope c) = true := hl
  simp only [Bool.and_eq_true] at hl
  obtain ⟨⟨⟨h0, h1⟩, h2⟩, h3⟩ := hl
  have hd := isG_lt h0
  have ha := isG_lt h1
  have hx := below_lt h2
  have hc := isScope_lt h3
  generalize hW : 0xAC000020 + d * 0x100000 + a * 0x4000 + x * 0x8 + c = W
  have f0 : fw W 31 26 = 43 := fw_of 0 43 (d * 1048576 + a * 16384 + x * 8 + c + 32) (by omega) (by omega) (by omega)
  have f1 : fw W 25 20 = d := fw_of 43 d (a * 16384 + x * 8 + c + 32) (by omega) (by omega) (by omega)
  have f2 : fw W 19 14 = a := fw_of (d + 2752) a (x * 8 + c + 32) (by omega) (by omega) (by omega)
  have f3 : fw W 3 3 = x := fw_of (d * 65536 + a * 1024 + 180355074) x c (by omega) (by omega) (by omega)
  have f4 : fw W 2 0 = c := fw_of (d * 131072 + a * 2048 + x + 360710148) c 0 (by omega) (by omega) (by omega)
  have f5 : ¬fw W 7 0 = 0 := by rw [fw_of (d * 4096 + a * 64 + 11272192) (x * 8 + c + 32) 0 (by omega) (by omega) (by omega)]; omega
  have f6 : fw W 13 4 = 2 := fw_of (d * 64 + a + 176128) 2 (x * 8 + c) (by omega) (by omega) (by omega)
  rw [major_2B f0]
  simp only [rawHasp, f1, f2, f3, f4, f5, f6]
  rfl

theorem hwait (a b : Nat) : Statement (.hwait a b) := by
  refine statement_of rfl fun hl => ?_
  replace hl : (isH a && isG b) = true := hl
  simp only [Bool.and_eq_true] at hl
  obtain ⟨h0, h1⟩ := hl
  have ha := isH_lt h0
  have hb := isG_lt h1
  generalize hW : 0xAC000030 + a * 0x4000 + b * 0x100 = W
  have f0 : fw W 31 26 = 43 := fw_of 0 43 (a * 16384 + b * 256 + 48) (by omega) (by omega) (by omega)
  have f1 : fw W 19 14 = a := fw_of 2752 a (b * 256 + 48) (by omega) (by omega) (by omega)
  have f2 : fw W 13 8 = b := fw_of (a + 176128) b 48 (by omega) (by omega) (by omega)
  have f3 : fw W 7 0 = 48 := fw_of (a * 64 + b + 11272192) 48 0 (by omega) (by omega) (by omega)
  have f4 : ¬fw W 13 4 = 1 := by rw [fw_of (a + 176128) (b * 16 + 3) 0 (by omega) (by omega) (by omega)]; omega
  have f5 : ¬fw W 13 4 = 2 := by rw [fw_of (a + 176128) (b * 16 + 3) 0 (by omega) (by omega) (by omega)]; omega
  have f6 : fw W 25 20 = 0 := fw_of 43 0 (a * 16384 + b * 256 + 48) (by omega) (by omega) (by omega)
  rw [major_2B f0]
  simp only [rawHasp, f1, f2, f3, f4, f5, f6]
  rfl

theorem hwaitRemote (a b : Nat) : Statement (.hwaitRemote a b) := by
  refine statement_of rfl fun hl => ?_
  replace hl : (isG a && isG b) = true := hl
  simp only [Bool.and_eq_true] at hl
  obtain ⟨h0, h1⟩ := hl
  have ha := isG_lt h0
  have hb := isG_lt h1
  generalize hW : 0xAC000031 + a * 0x4000 + b * 0x100 = W
  have f0 : fw W 31 26 = 43 := fw_of 0 43 (a * 16384 + b * 256 + 49) (by omega) (by omega) (by omega)
  have f1 : fw W 19 14 = a := fw_of 2752 a (b * 256 + 49) (by omega) (by omega) (by omega)
  have f2 : fw W 13 8 = b := fw_of (a + 176128) b 49 (by omega) (by omega) (by omega)
  have f3 : fw W 7 0 = 49 := fw_of (a * 64 + b + 11272192) 49 0 (by omega) (by omega) (by omega)
  have f4 : ¬fw W 13 4 = 1 := by rw [fw_of (a + 176128) (b * 16 + 3) 1 (by omega) (by omega) (by omega)]; omega
  have f5 : ¬fw W 13 4 = 2 := by rw [fw_of (a + 176128) (b * 16 + 3) 1 (by omega) (by omega) (by omega)]; omega
  have f6 : fw W 25 20 = 0 := fw_of 43 0 (a * 16384 + b * 256 + 49) (by omega) (by omega) (by omega)
  rw [major_2B f0]
  simp only [rawHasp, f1, f2, f3, f4, f5, f6]
  rfl

theorem hexpect (a b : Nat) : Statement (.hexpect a b) := by
  refine statement_of rfl fun hl => ?_
  replace hl : (isH a && isG b) = true := hl
  simp only [Bool.and_eq_true] at hl
  obtain ⟨h0, h1⟩ := hl
  have ha := isH_lt h0
  have hb := isG_lt h1
  generalize hW : 0xAC000040 + a * 0x4000 + b * 0x100 = W
  have f0 : fw W 31 26 = 43 := fw_of 0 43 (a * 16384 + b * 256 + 64) (by omega) (by omega) (by omega)
  have f1 : fw W 19 14 = a := fw_of 2752 a (b * 256 + 64) (by omega) (by omega) (by omega)
  have f2 : fw W 13 8 = b := fw_of (a + 176128) b 64 (by omega) (by omega) (by omega)
  have f3 : fw W 7 0 = 64 := fw_of (a * 64 + b + 11272192) 64 0 (by omega) (by omega) (by omega)
  have f4 : ¬fw W 13 4 = 1 := by rw [fw_of (a + 176128) (b * 16 + 4) 0 (by omega) (by omega) (by omega)]; omega
  have f5 : ¬fw W 13 4 = 2 := by rw [fw_of (a + 176128) (b * 16 + 4) 0 (by omega) (by omega) (by omega)]; omega
  have f6 : fw W 25 20 = 0 := fw_of 43 0 (a * 16384 + b * 256 + 64) (by omega) (by omega) (by omega)
  rw [major_2B f0]
  simp only [rawHasp, f1, f2, f3, f4, f5, f6]
  rfl

theorem htest (d a b : Nat) : Statement (.htest d a b) := by
  refine statement_of rfl fun hl => ?_
  replace hl : (isG d && isH a && isG b) = true := hl
  simp only [Bool.and_eq_true] at hl
  obtain ⟨⟨h0, h1⟩, h2⟩ := hl
  have hd := isG_lt h0
  have ha := isH_lt h1
  have hb := isG_lt h2
  generalize hW : 0xAC000050 + d * 0x100000 + a * 0x4000 + b * 0x100 = W
  have f0 : fw W 31 26 = 43 := fw_of 0 43 (d * 1048576 + a * 16384 + b * 256 + 80) (by omega) (by omega) (by omega)
  have f1 : fw W 25 20 = d := fw_of 43 d (a * 16384 + b * 256 + 80) (by omega) (by omega) (by omega)
  have f2 : fw W 19 14 = a := fw_of (d + 2752) a (b * 256 + 80) (by omega) (by omega) (by omega)
  have f3 : fw W 13 8 = b := fw_of (d * 64 + a + 176128) b 80 (by omega) (by omega) (by omega)
  have f4 : fw W 7 0 = 80 := fw_of (d * 4096 + a * 64 + b + 11272192) 80 0 (by omega) (by omega) (by omega)
  have f5 : ¬fw W 13 4 = 1 := by rw [fw_of (d * 64 + a + 176128) (b * 16 + 5) 0 (by omega) (by omega) (by omega)]; omega
  have f6 : ¬fw W 13 4 = 2 := by rw [fw_of (d * 64 + a + 176128) (b * 16 + 5) 0 (by omega) (by omega) (by omega)]; omega
  rw [major_2B f0]
  simp only [rawHasp, f1, f2, f3, f4, f5, f6]
  rfl

theorem fred (d a s : Nat) : Statement (.fred d a s) := by
  refine statement_of rfl fun hl => ?_
  replace hl : (isG d && isG a && isS s) = true := hl
  simp only [Bool.and_eq_true] at hl
  obtain ⟨⟨h0, h1⟩, h2⟩ := hl
  have hd := isG_lt h0
  have ha := isG_lt h1
  have hs := isS_lt h2
  generalize hW : 0xB0000000 + d * 0x100000 + a * 0x4000 + s = W
  have f0 : fw W 31 26 = 44 := fw_of 0 44 (d * 1048576 + a * 16384 + s) (by omega) (by omega) (by omega)
  have f1 : fw W 25 20 = d := fw_of 44 d (a * 16384 + s) (by omega) (by omega) (by omega)
  have f2 : fw W 19 14 = a := fw_of (d + 2816) a s (by omega) (by omega) (by omega)
  have f3 : fw W 3 0 = s := fw_of (d * 65536 + a * 1024 + 184549376) s 0 (by omega) (by omega) (by omega)
  have f4 : fw W 13 4 = 0 := fw_of (d * 64 + a + 180224) 0 s (by omega) (by omega) (by omega)
  rw [major_2C f0]
  simp only [rawFab, f1, f2, f3, f4]
  rfl

theorem fbcast (d a s : Nat) : Statement (.fbcast d a s) := by
  refine statement_of rfl fun hl => ?_
  replace hl : (isG d && isG a && isS s) = true := hl
  simp only [Bool.and_eq_true] at hl
  obtain ⟨⟨h0, h1⟩, h2⟩ := hl
  have hd := isG_lt h0
  have ha := isG_lt h1
  have hs := isS_lt h2
  generalize hW : 0xB0000010 + d * 0x100000 + a * 0x4000 + s = W
  have f0 : fw W 31 26 = 44 := fw_of 0 44 (d * 1048576 + a * 16384 + s + 16) (by omega) (by omega) (by omega)
  have f1 : fw W 25 20 = d := fw_of 44 d (a * 16384 + s + 16) (by omega) (by omega) (by omega)
  have f2 : fw W 19 14 = a := fw_of (d + 2816) a (s + 16) (by omega) (by omega) (by omega)
  have f3 : fw W 3 0 = s := fw_of (d * 65536 + a * 1024 + 184549377) s 0 (by omega) (by omega) (by omega)
  have f4 : fw W 13 4 = 1 := fw_of (d * 64 + a + 180224) 1 s (by omega) (by omega) (by omega)
  rw [major_2C f0]
  simp only [rawFab, f1, f2, f3, f4]
  rfl

theorem frwait (d a : Nat) : Statement (.frwait d a) := by
  refine statement_of rfl fun hl => ?_
  replace hl : (isG d && isG a) = true := hl
  simp only [Bool.and_eq_true] at hl
  obtain ⟨h0, h1⟩ := hl
  have hd := isG_lt h0
  have ha := isG_lt h1
  generalize hW : 0xB0000020 + d * 0x100000 + a * 0x4000 = W
  have f0 : fw W 31 26 = 44 := fw_of 0 44 (d * 1048576 + a * 16384 + 32) (by omega) (by omega) (by omega)
  have f1 : fw W 25 20 = d := fw_of 44 d (a * 16384 + 32) (by omega) (by omega) (by omega)
  have f2 : fw W 19 14 = a := fw_of (d + 2816) a 32 (by omega) (by omega) (by omega)
  have f3 : fw W 13 4 = 2 := fw_of (d * 64 + a + 180224) 2 0 (by omega) (by omega) (by omega)
  have f4 : fw W 13 0 = 32 := fw_of (d * 64 + a + 180224) 32 0 (by omega) (by omega) (by omega)
  rw [major_2C f0]
  simp only [rawFab, f1, f2, f3, f4]
  rfl

theorem cpy (d a b g ss ds s c : Nat) : Statement (.cpy d a b g ss ds s c) := by
  refine statement_of rfl fun hl => ?_
  replace hl : ((isG d && isG a && isG b && isG g && below 4 ss && isS s && isScope c) && below 4 ds) = true := hl
  simp only [Bool.and_eq_true] at hl
  obtain ⟨⟨⟨⟨⟨⟨⟨h0, h1⟩, h2⟩, h3⟩, h4⟩, h5⟩, h6⟩, h7⟩ := hl
  have hd := isG_lt h0
  have ha := isG_lt h1
  have hb := isG_lt h2
  have hg := isG_lt h3
  have hss := below_lt h4
  have hs := isS_lt h5
  have hc := isScope_lt h6
  have hds := below_lt h7
  generalize hW : 0xF4000000 + d * 0x100000 + a * 0x4000 + b * 0x100 = W
  generalize hE : g + ss * 64 + ds * 256 + s * 1024 + c * 16384 = E
  have f0 : fw W 31 26 = 61 := fw_of 0 61 (d * 1048576 + a * 16384 + b * 256) (by omega) (by omega) (by omega)
  have f1 : fw W 25 20 = d := fw_of 61 d (a * 16384 + b * 256) (by omega) (by omega) (by omega)
  have f2 : fw W 19 14 = a := fw_of (d + 3904) a (b * 256) (by omega) (by omega) (by omega)
  have f3 : fw W 13 8 = b := fw_of (d * 64 + a + 249856) b 0 (by omega) (by omega) (by omega)
  have f4 : fw E 5 0 = g := fw_of (ss + ds * 4 + s * 16 + c * 256) g 0 (by omega) (by omega) (by omega)
  have f5 : fw E 7 6 = ss := fw_of (ds + s * 4 + c * 64) ss g (by omega) (by omega) (by omega)
  have f6 : fw E 9 8 = ds := fw_of (s + c * 16) ds (g + ss * 64) (by omega) (by omega) (by omega)
  have f7 : fw E 13 10 = s := fw_of c s (g + ss * 64 + ds * 256) (by omega) (by omega) (by omega)
  have f8 : fw E 16 14 = c := fw_of 0 c (g + ss * 64 + ds * 256 + s * 1024) (by omega) (by omega) (by omega)
  have f9 : fw W 7 0 = 0 := fw_of (d * 4096 + a * 64 + b + 15990784) 0 0 (by omega) (by omega) (by omega)
  have f10 : fw E 31 17 = 0 := fw_of 0 0 (g + ss * 64 + ds * 256 + s * 1024 + c * 16384) (by omega) (by omega) (by omega)
  rw [major_3D f0]
  simp only [rawLcpy, f1, f2, f3, f4, f5, f6, f7, f8, f9, f10]
  rfl

theorem cpyr (d a b g ss ds s c : Nat) : Statement (.cpyr d a b g ss ds s c) := by
  refine statement_of rfl fun hl => ?_
  replace hl : ((isG d && isG a && isG b && isG g && below 4 ss && isS s && isScope c) && below 2 ds) = true := hl
  simp only [Bool.and_eq_true] at hl
  obtain ⟨⟨⟨⟨⟨⟨⟨h0, h1⟩, h2⟩, h3⟩, h4⟩, h5⟩, h6⟩, h7⟩ := hl
  have hd := isG_lt h0
  have ha := isG_lt h1
  have hb := isG_lt h2
  have hg := isG_lt h3
  have hss := below_lt h4
  have hs := isS_lt h5
  have hc := isScope_lt h6
  have hds := below_lt h7
  generalize hW : 0xF4000001 + d * 0x100000 + a * 0x4000 + b * 0x100 = W
  generalize hE : g + ss * 64 + ds * 256 + s * 1024 + c * 16384 = E
  have f0 : fw W 31 26 = 61 := fw_of 0 61 (d * 1048576 + a * 16384 + b * 256 + 1) (by omega) (by omega) (by omega)
  have f1 : fw W 25 20 = d := fw_of 61 d (a * 16384 + b * 256 + 1) (by omega) (by omega) (by omega)
  have f2 : fw W 19 14 = a := fw_of (d + 3904) a (b * 256 + 1) (by omega) (by omega) (by omega)
  have f3 : fw W 13 8 = b := fw_of (d * 64 + a + 249856) b 1 (by omega) (by omega) (by omega)
  have f4 : fw E 5 0 = g := fw_of (ss + ds * 4 + s * 16 + c * 256) g 0 (by omega) (by omega) (by omega)
  have f5 : fw E 7 6 = ss := fw_of (ds + s * 4 + c * 64) ss g (by omega) (by omega) (by omega)
  have f6 : fw E 9 8 = ds := fw_of (s + c * 16) ds (g + ss * 64) (by omega) (by omega) (by omega)
  have f7 : fw E 13 10 = s := fw_of c s (g + ss * 64 + ds * 256) (by omega) (by omega) (by omega)
  have f8 : fw E 16 14 = c := fw_of 0 c (g + ss * 64 + ds * 256 + s * 1024) (by omega) (by omega) (by omega)
  have f9 : fw W 7 0 = 1 := fw_of (d * 4096 + a * 64 + b + 15990784) 1 0 (by omega) (by omega) (by omega)
  have f10 : fw E 31 17 = 0 := fw_of 0 0 (g + ss * 64 + ds * 256 + s * 1024 + c * 16384) (by omega) (by omega) (by omega)
  rw [major_3D f0]
  simp only [rawLcpy, f1, f2, f3, f4, f5, f6, f7, f8, f9, f10]
  rfl

theorem cpym (d a b g ss s c t : Nat) : Statement (.cpym d a b g ss s c t) := by
  refine statement_of rfl fun hl => ?_
  replace hl : ((isG d && isG a && isG b && isG g && below 4 ss && isS s && isScope c) && below 8 t) = true := hl
  simp only [Bool.and_eq_true] at hl
  obtain ⟨⟨⟨⟨⟨⟨⟨h0, h1⟩, h2⟩, h3⟩, h4⟩, h5⟩, h6⟩, h7⟩ := hl
  have hd := isG_lt h0
  have ha := isG_lt h1
  have hb := isG_lt h2
  have hg := isG_lt h3
  have hss := below_lt h4
  have hs := isS_lt h5
  have hc := isScope_lt h6
  have ht := below_lt h7
  generalize hW : 0xF4000002 + d * 0x100000 + a * 0x4000 + b * 0x100 = W
  generalize hE : g + ss * 64 + s * 1024 + c * 16384 + t * 131072 = E
  have f0 : fw W 31 26 = 61 := fw_of 0 61 (d * 1048576 + a * 16384 + b * 256 + 2) (by omega) (by omega) (by omega)
  have f1 : fw W 25 20 = d := fw_of 61 d (a * 16384 + b * 256 + 2) (by omega) (by omega) (by omega)
  have f2 : fw W 19 14 = a := fw_of (d + 3904) a (b * 256 + 2) (by omega) (by omega) (by omega)
  have f3 : fw W 13 8 = b := fw_of (d * 64 + a + 249856) b 2 (by omega) (by omega) (by omega)
  have f4 : fw E 5 0 = g := fw_of (ss + s * 16 + c * 256 + t * 2048) g 0 (by omega) (by omega) (by omega)
  have f5 : fw E 7 6 = ss := fw_of (s * 4 + c * 64 + t * 512) ss g (by omega) (by omega) (by omega)
  have f6 : fw E 13 10 = s := fw_of (c + t * 8) s (g + ss * 64) (by omega) (by omega) (by omega)
  have f7 : fw E 16 14 = c := fw_of t c (g + ss * 64 + s * 1024) (by omega) (by omega) (by omega)
  have f8 : fw E 19 17 = t := fw_of 0 t (g + ss * 64 + s * 1024 + c * 16384) (by omega) (by omega) (by omega)
  have f9 : fw W 7 0 = 2 := fw_of (d * 4096 + a * 64 + b + 15990784) 2 0 (by omega) (by omega) (by omega)
  have f10 : fw E 9 8 = 0 := fw_of (s + c * 16 + t * 128) 0 (g + ss * 64) (by omega) (by omega) (by omega)
  have f11 : fw E 31 20 = 0 := fw_of 0 0 (g + ss * 64 + s * 1024 + c * 16384 + t * 131072) (by omega) (by omega) (by omega)
  rw [major_3D f0]
  simp only [rawLcpy, f1, f2, f3, f4, f5, f6, f7, f8, f9, f10, f11]
  rfl

theorem cpys (e d a b g ss s c k : Nat) : Statement (.cpys e d a b g ss s c k) := by
  refine statement_of rfl fun hl => ?_
  replace hl : ((isG d && isG a && isG b && isG g && below 4 ss && isS s && isScope c) && below 4 e && isA k) = true := hl
  simp only [Bool.and_eq_true] at hl
  obtain ⟨⟨⟨⟨⟨⟨⟨⟨h0, h1⟩, h2⟩, h3⟩, h4⟩, h5⟩, h6⟩, h7⟩, h8⟩ := hl
  have hd := isG_lt h0
  have ha := isG_lt h1
  have hb := isG_lt h2
  have hg := isG_lt h3
  have hss := below_lt h4
  have hs := isS_lt h5
  have hc := isScope_lt h6
  have he := below_lt h7
  have hk := isA_lt h8
  generalize hW : 0xF4000004 + e + d * 0x100000 + a * 0x4000 + b * 0x100 = W
  generalize hE : g + ss * 64 + s * 1024 + c * 16384 + k * 131072 = E
  have f0 : fw W 31 26 = 61 := fw_of 0 61 (e + d * 1048576 + a * 16384 + b * 256 + 4) (by omega) (by omega) (by omega)
  have f1 : fw W 1 0 = e := fw_of (d * 262144 + a * 4096 + b * 64 + 1023410177) e 0 (by omega) (by omega) (by omega)
  have f2 : fw W 25 20 = d := fw_of 61 d (e + a * 16384 + b * 256 + 4) (by omega) (by omega) (by omega)
  have f3 : fw W 19 14 = a := fw_of (d + 3904) a (e + b * 256 + 4) (by omega) (by omega) (by omega)
  have f4 : fw W 13 8 = b := fw_of (d * 64 + a + 249856) b (e + 4) (by omega) (by omega) (by omega)
  have f5 : fw E 5 0 = g := fw_of (ss + s * 16 + c * 256 + k * 2048) g 0 (by omega) (by omega) (by omega)
  have f6 : fw E 7 6 = ss := fw_of (s * 4 + c * 64 + k * 512) ss g (by omega) (by omega) (by omega)
  have f7 : fw E 13 10 = s := fw_of (c + k * 8) s (g + ss * 64) (by omega) (by omega) (by omega)
  have f8 : fw E 16 14 = c := fw_of k c (g + ss * 64 + s * 1024) (by omega) (by omega) (by omega)
  have f9 : fw E 19 17 = k := fw_of 0 k (g + ss * 64 + s * 1024 + c * 16384) (by omega) (by omega) (by omega)
  have f10 : ¬fw W 7 0 = 0 := by rw [fw_of (d * 4096 + a * 64 + b + 15990784) (e + 4) 0 (by omega) (by omega) (by omega)]; omega
  have f11 : ¬fw W 7 0 = 1 := by rw [fw_of (d * 4096 + a * 64 + b + 15990784) (e + 4) 0 (by omega) (by omega) (by omega)]; omega
  have f12 : ¬fw W 7 0 = 2 := by rw [fw_of (d * 4096 + a * 64 + b + 15990784) (e + 4) 0 (by omega) (by omega) (by omega)]; omega
  have f13 : fw W 7 2 = 1 := fw_of (d * 4096 + a * 64 + b + 15990784) 1 e (by omega) (by omega) (by omega)
  have f14 : fw E 9 8 = 0 := fw_of (s + c * 16 + k * 128) 0 (g + ss * 64) (by omega) (by omega) (by omega)
  have f15 : fw E 31 20 = 0 := fw_of 0 0 (g + ss * 64 + s * 1024 + c * 16384 + k * 131072) (by omega) (by omega) (by omega)
  rw [major_3D f0]
  simp only [rawLcpy, f1, f2, f3, f4, f5, f6, f7, f8, f9, f10, f11, f12, f13, f14, f15]
  rfl

theorem cpyw (d a : Nat) : Statement (.cpyw d a) := by
  refine statement_of rfl fun hl => ?_
  replace hl : (isG d && isG a) = true := hl
  simp only [Bool.and_eq_true] at hl
  obtain ⟨h0, h1⟩ := hl
  have hd := isG_lt h0
  have ha := isG_lt h1
  generalize hW : 0xF4000008 + d * 0x100000 + a * 0x4000 = W
  have f0 : fw W 31 26 = 61 := fw_of 0 61 (d * 1048576 + a * 16384 + 8) (by omega) (by omega) (by omega)
  have f1 : fw W 25 20 = d := fw_of 61 d (a * 16384 + 8) (by omega) (by omega) (by omega)
  have f2 : fw W 19 14 = a := fw_of (d + 3904) a 8 (by omega) (by omega) (by omega)
  have f3 : fw W 7 0 = 8 := fw_of (d * 4096 + a * 64 + 15990784) 8 0 (by omega) (by omega) (by omega)
  have f4 : fw W 7 2 = 2 := fw_of (d * 4096 + a * 64 + 15990784) 2 0 (by omega) (by omega) (by omega)
  have f5 : fw W 13 0 = 8 := fw_of (d * 64 + a + 249856) 8 0 (by omega) (by omega) (by omega)
  have f6 : fw 0 31 0 = 0 := by decide
  rw [major_3D f0]
  simp only [rawLcpy, f1, f2, f3, f4, f5, f6]
  rfl

theorem cpyq (d a : Nat) : Statement (.cpyq d a) := by
  refine statement_of rfl fun hl => ?_
  replace hl : (isG d && isG a) = true := hl
  simp only [Bool.and_eq_true] at hl
  obtain ⟨h0, h1⟩ := hl
  have hd := isG_lt h0
  have ha := isG_lt h1
  generalize hW : 0xF4000009 + d * 0x100000 + a * 0x4000 = W
  have f0 : fw W 31 26 = 61 := fw_of 0 61 (d * 1048576 + a * 16384 + 9) (by omega) (by omega) (by omega)
  have f1 : fw W 25 20 = d := fw_of 61 d (a * 16384 + 9) (by omega) (by omega) (by omega)
  have f2 : fw W 19 14 = a := fw_of (d + 3904) a 9 (by omega) (by omega) (by omega)
  have f3 : fw W 7 0 = 9 := fw_of (d * 4096 + a * 64 + 15990784) 9 0 (by omega) (by omega) (by omega)
  have f4 : fw W 7 2 = 2 := fw_of (d * 4096 + a * 64 + 15990784) 2 1 (by omega) (by omega) (by omega)
  have f5 : fw W 13 0 = 9 := fw_of (d * 64 + a + 249856) 9 0 (by omega) (by omega) (by omega)
  have f6 : fw 0 31 0 = 0 := by decide
  rw [major_3D f0]
  simp only [rawLcpy, f1, f2, f3, f4, f5, f6]
  rfl

theorem cpyx (a : Nat) : Statement (.cpyx a) := by
  refine statement_of rfl fun hl => ?_
  replace hl : (isG a) = true := hl
  have h0 := hl
  have ha := isG_lt h0
  generalize hW : 0xF400000A + a * 0x4000 = W
  have f0 : fw W 31 26 = 61 := fw_of 0 61 (a * 16384 + 10) (by omega) (by omega) (by omega)
  have f1 : fw W 19 14 = a := fw_of 3904 a 10 (by omega) (by omega) (by omega)
  have f2 : fw W 7 0 = 10 := fw_of (a * 64 + 15990784) 10 0 (by omega) (by omega) (by omega)
  have f3 : fw W 7 2 = 2 := fw_of (a * 64 + 15990784) 2 2 (by omega) (by omega) (by omega)
  have f4 : fw W 13 0 = 10 := fw_of (a + 249856) 10 0 (by omega) (by omega) (by omega)
  have f5 : fw W 25 20 = 0 := fw_of 61 0 (a * 16384 + 10) (by omega) (by omega) (by omega)
  have f6 : fw 0 31 0 = 0 := by decide
  rw [major_3D f0]
  simp only [rawLcpy, f1, f2, f3, f4, f5, f6]
  rfl

theorem halo (d a b dirs s : Nat) : Statement (.halo d a b dirs s) := by
  refine statement_of rfl fun hl => ?_
  replace hl : (isG d && isG a && isG b && below 16 dirs && isS s) = true := hl
  simp only [Bool.and_eq_true] at hl
  obtain ⟨⟨⟨⟨h0, h1⟩, h2⟩, h3⟩, h4⟩ := hl
  have hd := isG_lt h0
  have ha := isG_lt h1
  have hb := isG_lt h2
  have hdirs := below_lt h3
  have hs := isS_lt h4
  generalize hW : 0xF400000C + d * 0x100000 + a * 0x4000 + b * 0x100 = W
  generalize hE : dirs + s * 16 = E
  have f0 : fw W 31 26 = 61 := fw_of 0 61 (d * 1048576 + a * 16384 + b * 256 + 12) (by omega) (by omega) (by omega)
  have f1 : fw W 25 20 = d := fw_of 61 d (a * 16384 + b * 256 + 12) (by omega) (by omega) (by omega)
  have f2 : fw W 19 14 = a := fw_of (d + 3904) a (b * 256 + 12) (by omega) (by omega) (by omega)
  have f3 : fw W 13 8 = b := fw_of (d * 64 + a + 249856) b 12 (by omega) (by omega) (by omega)
  have f4 : fw E 3 0 = dirs := fw_of s dirs 0 (by omega) (by omega) (by omega)
  have f5 : fw E 7 4 = s := fw_of 0 s dirs (by omega) (by omega) (by omega)
  have f6 : fw W 7 0 = 12 := fw_of (d * 4096 + a * 64 + b + 15990784) 12 0 (by omega) (by omega) (by omega)
  have f7 : fw W 7 2 = 3 := fw_of (d * 4096 + a * 64 + b + 15990784) 3 0 (by omega) (by omega) (by omega)
  have f8 : ¬fw W 13 0 = 8 := by rw [fw_of (d * 64 + a + 249856) (b * 256 + 12) 0 (by omega) (by omega) (by omega)]; omega
  have f9 : ¬fw W 13 0 = 9 := by rw [fw_of (d * 64 + a + 249856) (b * 256 + 12) 0 (by omega) (by omega) (by omega)]; omega
  have f10 : ¬fw W 13 0 = 10 := by rw [fw_of (d * 64 + a + 249856) (b * 256 + 12) 0 (by omega) (by omega) (by omega)]; omega
  have f11 : fw E 31 8 = 0 := fw_of 0 0 (dirs + s * 16) (by omega) (by omega) (by omega)
  rw [major_3D f0]
  simp only [rawLcpy, f1, f2, f3, f4, f5, f6, f7, f8, f9, f10, f11]
  rfl

theorem sysr (d n : Nat) : Statement (.sysr d n) := by
  refine statement_of rfl fun hl => ?_
  replace hl : (isG d && below 4096 n) = true := hl
  simp only [Bool.and_eq_true] at hl
  obtain ⟨h0, h1⟩ := hl
  have hd := isG_lt h0
  have hn := below_lt h1
  generalize hW : 0xE0000000 + d * 0x100000 + n * 0x100 = W
  have f0 : fw W 31 26 = 56 := fw_of 0 56 (d * 1048576 + n * 256) (by omega) (by omega) (by omega)
  have f1 : fw W 25 20 = d := fw_of 56 d (n * 256) (by omega) (by omega) (by omega)
  have f2 : fw W 19 8 = n := fw_of (d + 3584) n 0 (by omega) (by omega) (by omega)
  have f3 : fw W 7 0 = 0 := fw_of (d * 4096 + n + 14680064) 0 0 (by omega) (by omega) (by omega)
  rw [major_38 f0]
  simp only [rawSys, f1, f2, f3]
  rfl

theorem sysw (d n : Nat) : Statement (.sysw d n) := by
  refine statement_of rfl fun hl => ?_
  replace hl : (isG d && below 4096 n) = true := hl
  simp only [Bool.and_eq_true] at hl
  obtain ⟨h0, h1⟩ := hl
  have hd := isG_lt h0
  have hn := below_lt h1
  generalize hW : 0xE0000001 + d * 0x100000 + n * 0x100 = W
  have f0 : fw W 31 26 = 56 := fw_of 0 56 (d * 1048576 + n * 256 + 1) (by omega) (by omega) (by omega)
  have f1 : fw W 25 20 = d := fw_of 56 d (n * 256 + 1) (by omega) (by omega) (by omega)
  have f2 : fw W 19 8 = n := fw_of (d + 3584) n 1 (by omega) (by omega) (by omega)
  have f3 : fw W 7 0 = 1 := fw_of (d * 4096 + n + 14680064) 1 0 (by omega) (by omega) (by omega)
  rw [major_38 f0]
  simp only [rawSys, f1, f2, f3]
  rfl

theorem sysset (d n : Nat) : Statement (.sysset d n) := by
  refine statement_of rfl fun hl => ?_
  replace hl : (isG d && below 4096 n) = true := hl
  simp only [Bool.and_eq_true] at hl
  obtain ⟨h0, h1⟩ := hl
  have hd := isG_lt h0
  have hn := below_lt h1
  generalize hW : 0xE0000002 + d * 0x100000 + n * 0x100 = W
  have f0 : fw W 31 26 = 56 := fw_of 0 56 (d * 1048576 + n * 256 + 2) (by omega) (by omega) (by omega)
  have f1 : fw W 25 20 = d := fw_of 56 d (n * 256 + 2) (by omega) (by omega) (by omega)
  have f2 : fw W 19 8 = n := fw_of (d + 3584) n 2 (by omega) (by omega) (by omega)
  have f3 : fw W 7 0 = 2 := fw_of (d * 4096 + n + 14680064) 2 0 (by omega) (by omega) (by omega)
  rw [major_38 f0]
  simp only [rawSys, f1, f2, f3]
  rfl

theorem sysclr (d n : Nat) : Statement (.sysclr d n) := by
  refine statement_of rfl fun hl => ?_
  replace hl : (isG d && below 4096 n) = true := hl
  simp only [Bool.and_eq_true] at hl
  obtain ⟨h0, h1⟩ := hl
  have hd := isG_lt h0
  have hn := below_lt h1
  generalize hW : 0xE0000003 + d * 0x100000 + n * 0x100 = W
  have f0 : fw W 31 26 = 56 := fw_of 0 56 (d * 1048576 + n * 256 + 3) (by omega) (by omega) (by omega)
  have f1 : fw W 25 20 = d := fw_of 56 d (n * 256 + 3) (by omega) (by omega) (by omega)
  have f2 : fw W 19 8 = n := fw_of (d + 3584) n 3 (by omega) (by omega) (by omega)
  have f3 : fw W 7 0 = 3 := fw_of (d * 4096 + n + 14680064) 3 0 (by omega) (by omega) (by omega)
  rw [major_38 f0]
  simp only [rawSys, f1, f2, f3]
  rfl

theorem trap (n : Nat) : Statement (.trap n) := by
  refine statement_of rfl fun hl => ?_
  replace hl : (below 4096 n) = true := hl
  have h0 := hl
  have hn := below_lt h0
  generalize hW : 0xE0000010 + n * 0x100 = W
  have f0 : fw W 31 26 = 56 := fw_of 0 56 (n * 256 + 16) (by omega) (by omega) (by omega)
  have f1 : fw W 19 8 = n := fw_of 3584 n 16 (by omega) (by omega) (by omega)
  have f2 : fw W 7 0 = 16 := fw_of (n + 14680064) 16 0 (by omega) (by omega) (by omega)
  have f3 : fw W 25 20 = 0 := fw_of 56 0 (n * 256 + 16) (by omega) (by omega) (by omega)
  rw [major_38 f0]
  simp only [rawSys, f1, f2, f3]
  rfl

theorem brk (n : Nat) : Statement (.brk n) := by
  refine statement_of rfl fun hl => ?_
  replace hl : (below 4096 n) = true := hl
  have h0 := hl
  have hn := below_lt h0
  generalize hW : 0xE0000011 + n * 0x100 = W
  have f0 : fw W 31 26 = 56 := fw_of 0 56 (n * 256 + 17) (by omega) (by omega) (by omega)
  have f1 : fw W 19 8 = n := fw_of 3584 n 17 (by omega) (by omega) (by omega)
  have f2 : fw W 7 0 = 17 := fw_of (n + 14680064) 17 0 (by omega) (by omega) (by omega)
  have f3 : fw W 25 20 = 0 := fw_of 56 0 (n * 256 + 17) (by omega) (by omega) (by omega)
  rw [major_38 f0]
  simp only [rawSys, f1, f2, f3]
  rfl

theorem eret : Statement .eret := fun _ => rfl

theorem halt : Statement .halt := fun _ => rfl

theorem wfi : Statement .wfi := fun _ => rfl

theorem moduleReset : Statement .moduleReset := statement_event rfl

theorem siteJoin : Statement .siteJoin := statement_event rfl

theorem lifeCounterUpdate : Statement .lifeCounterUpdate := statement_event rfl

theorem spdmRequest : Statement .spdmRequest := statement_event rfl

theorem bootCfgWrite : Statement .bootCfgWrite := statement_event rfl

theorem clearLog : Statement .clearLog := statement_event rfl

theorem registerWrite : Statement .registerWrite := statement_event rfl

theorem localAccessPerform : Statement .localAccessPerform := statement_event rfl

theorem eccCorrectionWriteback : Statement .eccCorrectionWriteback := statement_event rfl

theorem scrubLineRead : Statement .scrubLineRead := statement_event rfl

theorem fetchLineFill : Statement .fetchLineFill := statement_event rfl

theorem agePromotion : Statement .agePromotion := statement_event rfl

theorem yieldWindowEnd : Statement .yieldWindowEnd := statement_event rfl

theorem admissionEvaluation : Statement .admissionEvaluation := statement_event rfl

theorem frameSaveDone : Statement .frameSaveDone := statement_event rfl

theorem frameRestoreDone : Statement .frameRestoreDone := statement_event rfl

theorem groupLeavesDraining : Statement .groupLeavesDraining := statement_event rfl

theorem safetyTestEnd : Statement .safetyTestEnd := statement_event rfl

theorem tumblerReevaluation : Statement .tumblerReevaluation := statement_event rfl

theorem releaseApply : Statement .releaseApply := statement_event rfl

theorem pageZeroingDone : Statement .pageZeroingDone := statement_event rfl

theorem tumblerCfgWrite : Statement .tumblerCfgWrite := statement_event rfl

theorem pmapDataWrite : Statement .pmapDataWrite := statement_event rfl

theorem pmapWriteEffect : Statement .pmapWriteEffect := statement_event rfl

theorem htabBaseWrite : Statement .htabBaseWrite := statement_event rfl

theorem mboxCfgWrite : Statement .mboxCfgWrite := statement_event rfl

theorem msglenMaxWrite : Statement .msglenMaxWrite := statement_event rfl

theorem tierCfgWrite : Statement .tierCfgWrite := statement_event rfl

theorem tdecDataWrite : Statement .tdecDataWrite := statement_event rfl

theorem tdecWriteEffect : Statement .tdecWriteEffect := statement_event rfl

theorem fpctlWrite : Statement .fpctlWrite := statement_event rfl

theorem steerDataWrite : Statement .steerDataWrite := statement_event rfl

theorem ntDataWrite : Statement .ntDataWrite := statement_event rfl

theorem coreNameWrite : Statement .coreNameWrite := statement_event rfl

theorem routeFlush : Statement .routeFlush := statement_event rfl

theorem probeClear : Statement .probeClear := statement_event rfl

theorem nameTableTick : Statement .nameTableTick := statement_event rfl

theorem rtreeDataWrite : Statement .rtreeDataWrite := statement_event rfl

theorem counterUnbind : Statement .counterUnbind := statement_event rfl

theorem dcntSelWrite : Statement .dcntSelWrite := statement_event rfl

theorem packetResolve : Statement .packetResolve := statement_event rfl

theorem packetHop : Statement .packetHop := statement_event rfl

theorem floodCopyArrival : Statement .floodCopyArrival := statement_event rfl

theorem floodPacketSink : Statement .floodPacketSink := statement_event rfl

theorem probeArrival : Statement .probeArrival := statement_event rfl

theorem probeAnswer : Statement .probeAnswer := statement_event rfl

theorem linkDown : Statement .linkDown := statement_event rfl

theorem bridgeForward : Statement .bridgeForward := statement_event rfl

theorem bridgeReinject : Statement .bridgeReinject := statement_event rfl

theorem invokeArrival : Statement .invokeArrival := statement_event rfl

theorem counterLaunch : Statement .counterLaunch := statement_event rfl

theorem messageArrival : Statement .messageArrival := statement_event rfl

theorem answerArrival : Statement .answerArrival := statement_event rfl

theorem packetLocalComplete : Statement .packetLocalComplete := statement_event rfl

theorem hardwareRetry : Statement .hardwareRetry := statement_event rfl

theorem launchLineWrite : Statement .launchLineWrite := statement_event rfl

theorem ingressTimerExpiry : Statement .ingressTimerExpiry := statement_event rfl

theorem ingressAnswer : Statement .ingressAnswer := statement_event rfl

theorem ingressRetry : Statement .ingressRetry := statement_event rfl

theorem ingressReset : Statement .ingressReset := statement_event rfl

theorem remoteRequestArrival : Statement .remoteRequestArrival := statement_event rfl

theorem remoteAnswer : Statement .remoteAnswer := statement_event rfl

theorem portRequest : Statement .portRequest := statement_event rfl

theorem portAccessComplete : Statement .portAccessComplete := statement_event rfl

theorem portRootWrite : Statement .portRootWrite := statement_event rfl

theorem portInval : Statement .portInval := statement_event rfl

theorem copyEngineServe : Statement .copyEngineServe := statement_event rfl

theorem copydataArrival : Statement .copydataArrival := statement_event rfl

theorem copyCounterPacket : Statement .copyCounterPacket := statement_event rfl

theorem copyAnswer : Statement .copyAnswer := statement_event rfl

theorem copyackPlacement : Statement .copyackPlacement := statement_event rfl

theorem multicastTileArrival : Statement .multicastTileArrival := statement_event rfl

theorem multicastCredit : Statement .multicastCredit := statement_event rfl

theorem haspRemoteRequest : Statement .haspRemoteRequest := statement_event rfl

theorem redBlockArrival : Statement .redBlockArrival := statement_event rfl

theorem renormArrival : Statement .renormArrival := statement_event rfl

theorem bcastArrival : Statement .bcastArrival := statement_event rfl

theorem vectorCompletion : Statement .vectorCompletion := statement_event rfl

theorem tensorOpStart : Statement .tensorOpStart := statement_event rfl

theorem tensorSlotWrite : Statement .tensorSlotWrite := statement_event rfl

theorem drainRowWrite : Statement .drainRowWrite := statement_event rfl

theorem steeredRowSend : Statement .steeredRowSend := statement_event rfl

theorem trapPresentation : Statement .trapPresentation := statement_event rfl

theorem fatalTrap : Statement .fatalTrap := statement_event rfl

theorem doubleTrap : Statement .doubleTrap := statement_event rfl

theorem mgmtInterrupt : Statement .mgmtInterrupt := statement_event rfl

theorem remoteWindowAccess : Statement .remoteWindowAccess := statement_event rfl

theorem remoteWindowAnswer : Statement .remoteWindowAnswer := statement_event rfl

theorem siteLsaWrite : Statement .siteLsaWrite := statement_event rfl

theorem siteLsdRead : Statement .siteLsdRead := statement_event rfl

theorem siteLsdWrite : Statement .siteLsdWrite := statement_event rfl

theorem trapVecWrite : Statement .trapVecWrite := statement_event rfl

theorem guardReport : Statement .guardReport := statement_event rfl

theorem evict : Statement .evict := statement_event rfl

theorem restore : Statement .restore := statement_event rfl

theorem release : Statement .release := statement_event rfl

theorem stopArrival : Statement .stopArrival := statement_event rfl

theorem quiescence : Statement .quiescence := statement_event rfl

theorem stopEcho : Statement .stopEcho := statement_event rfl

theorem stoppedEnd : Statement .stoppedEnd := statement_event rfl

theorem saveComplete : Statement .saveComplete := statement_event rfl

theorem restoreComplete : Statement .restoreComplete := statement_event rfl

theorem stopCompletion : Statement .stopCompletion := statement_event rfl

theorem stepBoundary : Statement .stepBoundary := statement_event rfl

theorem currentSample : Statement .currentSample := statement_event rfl

theorem voltageSample : Statement .voltageSample := statement_event rfl

theorem thermalSample : Statement .thermalSample := statement_event rfl

theorem regulatorFail : Statement .regulatorFail := statement_event rfl

theorem pwrCtlWrite : Statement .pwrCtlWrite := statement_event rfl

theorem pwrGo : Statement .pwrGo := statement_event rfl

theorem thermSelWrite : Statement .thermSelWrite := statement_event rfl

theorem restoreArrival : Statement .restoreArrival := statement_event rfl

theorem releaseArrival : Statement .releaseArrival := statement_event rfl

theorem coreHaltArrival : Statement .coreHaltArrival := statement_event rfl

theorem scalarResultWrite : Statement .scalarResultWrite := statement_event rfl

theorem localContributionBlock : Statement .localContributionBlock := statement_event rfl

theorem illegalInstruction : Statement .illegalInstruction := statement_event rfl

end RoundTrip

end Sys2Proof.Laws
end

