-- ==== Sys2Proof/Laws/Uses.lean ====
section
/-! SUPPORT. The arms of `uses` and of `exec`, one equation each, so that no proof unfolds a match over all
instructions. -/

namespace Sys2Proof.Laws

open Sys2Proof Sys2Proof.Machine

@[simp] theorem uses_add (d a b : Nat) : uses (.add d a b) = [.rg a, .rg b, .wg d] := rfl
@[simp] theorem uses_sub (d a b : Nat) : uses (.sub d a b) = [.rg a, .rg b, .wg d] := rfl
@[simp] theorem uses_and (d a b : Nat) : uses (.and d a b) = [.rg a, .rg b, .wg d] := rfl
@[simp] theorem uses_or (d a b : Nat) : uses (.or d a b) = [.rg a, .rg b, .wg d] := rfl
@[simp] theorem uses_xor (d a b : Nat) : uses (.xor d a b) = [.rg a, .rg b, .wg d] := rfl
@[simp] theorem uses_andn (d a b : Nat) : uses (.andn d a b) = [.rg a, .rg b, .wg d] := rfl
@[simp] theorem uses_shl (d a b : Nat) : uses (.shl d a b) = [.rg a, .rg b, .wg d] := rfl
@[simp] theorem uses_shr (d a b : Nat) : uses (.shr d a b) = [.rg a, .rg b, .wg d] := rfl
@[simp] theorem uses_sar (d a b : Nat) : uses (.sar d a b) = [.rg a, .rg b, .wg d] := rfl
@[simp] theorem uses_rol (d a b : Nat) : uses (.rol d a b) = [.rg a, .rg b, .wg d] := rfl
@[simp] theorem uses_mul (d a b : Nat) : uses (.mul d a b) = [.rg a, .rg b, .wg d] := rfl
@[simp] theorem uses_mulh (d a b : Nat) : uses (.mulh d a b) = [.rg a, .rg b, .wg d] := rfl
@[simp] theorem uses_mulhn (d a b : Nat) : uses (.mulhn d a b) = [.rg a, .rg b, .wg d] := rfl
@[simp] theorem uses_div (d a b : Nat) : uses (.div d a b) = [.rg a, .rg b, .wg d] := rfl
@[simp] theorem uses_divn (d a b : Nat) : uses (.divn d a b) = [.rg a, .rg b, .wg d] := rfl
@[simp] theorem uses_rem (d a b : Nat) : uses (.rem d a b) = [.rg a, .rg b, .wg d] := rfl
@[simp] theorem uses_remn (d a b : Nat) : uses (.remn d a b) = [.rg a, .rg b, .wg d] := rfl
@[simp] theorem uses_min (d a b : Nat) : uses (.min d a b) = [.rg a, .rg b, .wg d] := rfl
@[simp] theorem uses_max (d a b : Nat) : uses (.max d a b) = [.rg a, .rg b, .wg d] := rfl
@[simp] theorem uses_minn (d a b : Nat) : uses (.minn d a b) = [.rg a, .rg b, .wg d] := rfl
@[simp] theorem uses_maxn (d a b : Nat) : uses (.maxn d a b) = [.rg a, .rg b, .wg d] := rfl
@[simp] theorem uses_slt (d a b : Nat) : uses (.slt d a b) = [.rg a, .rg b, .wg d] := rfl
@[simp] theorem uses_sltn (d a b : Nat) : uses (.sltn d a b) = [.rg a, .rg b, .wg d] := rfl
@[simp] theorem uses_seq (d a b : Nat) : uses (.seq d a b) = [.rg a, .rg b, .wg d] := rfl
@[simp] theorem uses_sel (d a b : Nat) : uses (.sel d a b) = [.rg a, .rg b, .rg d, .wg d] := rfl
@[simp] theorem uses_clz (d a : Nat) : uses (.clz d a) = [.rg a, .wg d] := rfl
@[simp] theorem uses_ctz (d a : Nat) : uses (.ctz d a) = [.rg a, .wg d] := rfl
@[simp] theorem uses_popc (d a : Nat) : uses (.popc d a) = [.rg a, .wg d] := rfl
@[simp] theorem uses_bfx (d a b : Nat) : uses (.bfx d a b) = [.rg a, .rg b, .wg d] := rfl
@[simp] theorem uses_bfi (d a b : Nat) : uses (.bfi d a b) = [.rg a, .rg b, .rg d, .wg d] := rfl
@[simp] theorem uses_addi (d a x2 : Nat) : uses (.addi d a x2) = [.rg a, .wg d] := rfl
@[simp] theorem uses_andi (d a x2 : Nat) : uses (.andi d a x2) = [.rg a, .wg d] := rfl
@[simp] theorem uses_ori (d a x2 : Nat) : uses (.ori d a x2) = [.rg a, .wg d] := rfl
@[simp] theorem uses_xori (d a x2 : Nat) : uses (.xori d a x2) = [.rg a, .wg d] := rfl
@[simp] theorem uses_shli (d a x2 : Nat) : uses (.shli d a x2) = [.rg a, .wg d] := rfl
@[simp] theorem uses_shri (d a x2 : Nat) : uses (.shri d a x2) = [.rg a, .wg d] := rfl
@[simp] theorem uses_sari (d a x2 : Nat) : uses (.sari d a x2) = [.rg a, .wg d] := rfl
@[simp] theorem uses_slti (d a x2 : Nat) : uses (.slti d a x2) = [.rg a, .wg d] := rfl
@[simp] theorem uses_sltin (d a x2 : Nat) : uses (.sltin d a x2) = [.rg a, .wg d] := rfl
@[simp] theorem uses_lui (d x1 : Nat) : uses (.lui d x1) = [.wg d] := rfl
@[simp] theorem uses_adrp (d x1 : Nat) : uses (.adrp d x1) = [.wg d] := rfl
@[simp] theorem uses_beq (a b x2 : Nat) : uses (.beq a b x2) = [.rg a, .rg b] := rfl
@[simp] theorem uses_bne (a b x2 : Nat) : uses (.bne a b x2) = [.rg a, .rg b] := rfl
@[simp] theorem uses_blt (a b x2 : Nat) : uses (.blt a b x2) = [.rg a, .rg b] := rfl
@[simp] theorem uses_bge (a b x2 : Nat) : uses (.bge a b x2) = [.rg a, .rg b] := rfl
@[simp] theorem uses_bltn (a b x2 : Nat) : uses (.bltn a b x2) = [.rg a, .rg b] := rfl
@[simp] theorem uses_bgen (a b x2 : Nat) : uses (.bgen a b x2) = [.rg a, .rg b] := rfl
@[simp] theorem uses_jal (d x1 : Nat) : uses (.jal d x1) = [.wg d] := rfl
@[simp] theorem uses_jalr (d a x2 : Nat) : uses (.jalr d a x2) = [.rg a, .wg d] := rfl
@[simp] theorem uses_nop : uses .nop = [] := rfl
@[simp] theorem uses_yield : uses .yield = [] := rfl
@[simp] theorem uses_exit : uses .exit = [] := rfl
@[simp] theorem uses_wid (d x1 : Nat) : uses (.wid d x1) = [.wg d] := rfl
@[simp] theorem uses_time (d : Nat) : uses (.time d) = [.wg d] := rfl
@[simp] theorem uses_ldb (d a x2 x3 : Nat) : uses (.ldb d a x2 x3) = [.rg a, .wg d] := rfl
@[simp] theorem uses_ldbn (d a x2 x3 : Nat) : uses (.ldbn d a x2 x3) = [.rg a, .wg d] := rfl
@[simp] theorem uses_ldh (d a x2 x3 : Nat) : uses (.ldh d a x2 x3) = [.rg a, .wg d] := rfl
@[simp] theorem uses_ldhn (d a x2 x3 : Nat) : uses (.ldhn d a x2 x3) = [.rg a, .wg d] := rfl
@[simp] theorem uses_ldw (d a x2 x3 : Nat) : uses (.ldw d a x2 x3) = [.rg a, .wg d] := rfl
@[simp] theorem uses_ldwn (d a x2 x3 : Nat) : uses (.ldwn d a x2 x3) = [.rg a, .wg d] := rfl
@[simp] theorem uses_ldd (d a x2 x3 : Nat) : uses (.ldd d a x2 x3) = [.rg a, .wg d] := rfl
@[simp] theorem uses_stb (d a x2 x3 : Nat) : uses (.stb d a x2 x3) = [.rg a, .rg d] := rfl
@[simp] theorem uses_sth (d a x2 x3 : Nat) : uses (.sth d a x2 x3) = [.rg a, .rg d] := rfl
@[simp] theorem uses_stw (d a x2 x3 : Nat) : uses (.stw d a x2 x3) = [.rg a, .rg d] := rfl
@[simp] theorem uses_std (d a x2 x3 : Nat) : uses (.std d a x2 x3) = [.rg a, .rg d] := rfl
@[simp] theorem uses_ladd (d a b x3 : Nat) : uses (.ladd d a b x3) = [.rg a, .rg b, .wg d] := rfl
@[simp] theorem uses_lmin (d a b x3 : Nat) : uses (.lmin d a b x3) = [.rg a, .rg b, .wg d] := rfl
@[simp] theorem uses_lmax (d a b x3 : Nat) : uses (.lmax d a b x3) = [.rg a, .rg b, .wg d] := rfl
@[simp] theorem uses_land (d a b x3 : Nat) : uses (.land d a b x3) = [.rg a, .rg b, .wg d] := rfl
@[simp] theorem uses_lor (d a b x3 : Nat) : uses (.lor d a b x3) = [.rg a, .rg b, .wg d] := rfl
@[simp] theorem uses_lxor (d a b x3 : Nat) : uses (.lxor d a b x3) = [.rg a, .rg b, .wg d] := rfl
@[simp] theorem uses_lswp (d a b x3 : Nat) : uses (.lswp d a b x3) = [.rg a, .rg b, .wg d] := rfl
@[simp] theorem uses_lcas (d a b x3 : Nat) : uses (.lcas d a b x3) = [.rg a, .rg b, .rg d, .wg d] := rfl
@[simp] theorem uses_fence (x0 x1 : Nat) : uses (.fence x0 x1) = [] := rfl
@[simp] theorem uses_fpop (d x1 : Nat) : uses (.fpop d x1) = [.wg d] := rfl
@[simp] theorem uses_vld (d a x2 x3 : Nat) : uses (.vld d a x2 x3) = [.rg a, .wv d] := rfl
@[simp] theorem uses_vst (d a x2 x3 : Nat) : uses (.vst d a x2 x3) = [.rg a, .rv d] := rfl
@[simp] theorem uses_fpopv (d x1 : Nat) : uses (.fpopv d x1) = [.wv d] := rfl
@[simp] theorem uses_vgath (d a b x3 x4 : Nat) : uses (.vgath d a b x3 x4) = [.rq a, .rv b, .wv d] := rfl
@[simp] theorem uses_vscat (d a b x3 x4 : Nat) : uses (.vscat d a b x3 x4) = [.rq a, .rv b, .rv d] := rfl
@[simp] theorem uses_vadd (d a b x3 : Nat) : uses (.vadd d a b x3) = [.rv a, .rv b, .wv d] := rfl
@[simp] theorem uses_vsub (d a b x3 : Nat) : uses (.vsub d a b x3) = [.rv a, .rv b, .wv d] := rfl
@[simp] theorem uses_vmul (d a b x3 : Nat) : uses (.vmul d a b x3) = [.rv a, .rv b, .wv d] := rfl
@[simp] theorem uses_vmin (d a b x3 : Nat) : uses (.vmin d a b x3) = [.rv a, .rv b, .wv d] := rfl
@[simp] theorem uses_vmax (d a b x3 : Nat) : uses (.vmax d a b x3) = [.rv a, .rv b, .wv d] := rfl
@[simp] theorem uses_vfma (d a b x3 : Nat) : uses (.vfma d a b x3) = [.rv a, .rv b, .rv d, .wv d] := rfl
@[simp] theorem uses_vshl (d a b x3 : Nat) : uses (.vshl d a b x3) = [.rv a, .rv b, .wv d] := rfl
@[simp] theorem uses_vshr (d a b x3 : Nat) : uses (.vshr d a b x3) = [.rv a, .rv b, .wv d] := rfl
@[simp] theorem uses_vcmpEq (d a b x3 : Nat) : uses (.vcmpEq d a b x3) = [.rv a, .rv b, .wq d] := rfl
@[simp] theorem uses_vcmpLt (d a b x3 : Nat) : uses (.vcmpLt d a b x3) = [.rv a, .rv b, .wq d] := rfl
@[simp] theorem uses_vcmpLe (d a b x3 : Nat) : uses (.vcmpLe d a b x3) = [.rv a, .rv b, .wq d] := rfl
@[simp] theorem uses_vabs (d a x2 : Nat) : uses (.vabs d a x2) = [.rv a, .wv d] := rfl
@[simp] theorem uses_vneg (d a x2 : Nat) : uses (.vneg d a x2) = [.rv a, .wv d] := rfl
@[simp] theorem uses_vrcp (d a x2 : Nat) : uses (.vrcp d a x2) = [.rv a, .wv d] := rfl
@[simp] theorem uses_vrsq (d a x2 : Nat) : uses (.vrsq d a x2) = [.rv a, .wv d] := rfl
@[simp] theorem uses_vexp2 (d a x2 : Nat) : uses (.vexp2 d a x2) = [.rv a, .wv d] := rfl
@[simp] theorem uses_vlog2 (d a x2 : Nat) : uses (.vlog2 d a x2) = [.rv a, .wv d] := rfl
@[simp] theorem uses_vtanh (d a x2 : Nat) : uses (.vtanh d a x2) = [.rv a, .wv d] := rfl
@[simp] theorem uses_vsum (d a x2 : Nat) : uses (.vsum d a x2) = [.rv a, .wv d] := rfl
@[simp] theorem uses_vrmax (d a x2 : Nat) : uses (.vrmax d a x2) = [.rv a, .wv d] := rfl
@[simp] theorem uses_vand (d a b : Nat) : uses (.vand d a b) = [.rv a, .rv b, .wv d] := rfl
@[simp] theorem uses_vor (d a b : Nat) : uses (.vor d a b) = [.rv a, .rv b, .wv d] := rfl
@[simp] theorem uses_vxor (d a b : Nat) : uses (.vxor d a b) = [.rv a, .rv b, .wv d] := rfl
@[simp] theorem uses_vsel (d a b x3 : Nat) : uses (.vsel d a b x3) = [.rv a, .rq b, .rv d, .wv d] := rfl
@[simp] theorem uses_vperm (d a b x3 : Nat) : uses (.vperm d a b x3) = [.rv a, .rv b, .wv d] := rfl
@[simp] theorem uses_vext (d a b x3 : Nat) : uses (.vext d a b x3) = [.rv a, .rg b, .wg d] := rfl
@[simp] theorem uses_vins (d a b x3 : Nat) : uses (.vins d a b x3) = [.rg a, .rg b, .rv d, .wv d] := rfl
@[simp] theorem uses_vbcast (d a x2 : Nat) : uses (.vbcast d a x2) = [.rg a, .wv d] := rfl
@[simp] theorem uses_vcvt (d a f z x4 : Nat) : uses (.vcvt d a f z x4) =
  .rv a :: (if capacity z < capacity f then [.rv d, .wv d] else [.wv d]) := rfl
@[simp] theorem uses_vqnt (d a x2 x3 x4 : Nat) : uses (.vqnt d a x2 x3 x4) = [.rv a, .rv d, .wv d] := rfl
@[simp] theorem uses_vdqnt (d a x2 x3 x4 : Nat) : uses (.vdqnt d a x2 x3 x4) = [.rv a, .wv d] := rfl
@[simp] theorem uses_vcvtLane (d a f z x4 : Nat) : uses (.vcvtLane d a f z x4) =
  .rv a :: (if laneCount z < laneCount f then [.rv d, .wv d] else [.wv d]) := rfl
@[simp] theorem uses_tmma (x0 a b x3 : Nat) : uses (.tmma x0 a b x3) = [.rg a, .rg b] := rfl
@[simp] theorem uses_tzero (x0 : Nat) : uses (.tzero x0) = [] := rfl
@[simp] theorem uses_tstat (d x1 : Nat) : uses (.tstat d x1) = [.wg d] := rfl
@[simp] theorem uses_tcfg (x0 a b x3 x4 x5 x6 x7 : Nat) : uses (.tcfg x0 a b x3 x4 x5 x6 x7) = [.rg a, .rg b] := rfl
@[simp] theorem uses_tcfgZ (x0 a b x3 x4 x5 x6 x7 : Nat) : uses (.tcfgZ x0 a b x3 x4 x5 x6 x7) = [.rg a, .rg b] := rfl
@[simp] theorem uses_tdrain (x0 a b x3 x4 x5 : Nat) : uses (.tdrain x0 a b x3 x4 x5) = [.rg a, .rg b] := rfl
@[simp] theorem uses_tldacc (x0 a b x3 x4 x5 : Nat) : uses (.tldacc x0 a b x3 x4 x5) = [.rg a, .rg b] := rfl
@[simp] theorem uses_tdrainF (x0 a b x3 x4 x5 : Nat) : uses (.tdrainF x0 a b x3 x4 x5) = [.rg a, .rg b] := rfl
@[simp] theorem uses_claim (a : Nat) : uses (.claim a) = [.rg a] := rfl
@[simp] theorem uses_acqB (d a : Nat) : uses (.acqB d a) = [.rg a, .wg d] := rfl
@[simp] theorem uses_acqL (d a : Nat) : uses (.acqL d a) = [.rg a, .wg d] := rfl
@[simp] theorem uses_acqT (d a : Nat) : uses (.acqT d a) = [.rg a, .wg d] := rfl
@[simp] theorem uses_acqC (d a : Nat) : uses (.acqC d a) = [.rg a, .wg d] := rfl
@[simp] theorem uses_tacqB (d a : Nat) : uses (.tacqB d a) = [.rg a, .wg d] := rfl
@[simp] theorem uses_tacqL (d a : Nat) : uses (.tacqL d a) = [.rg a, .wg d] := rfl
@[simp] theorem uses_tacqT (d a : Nat) : uses (.tacqT d a) = [.rg a, .wg d] := rfl
@[simp] theorem uses_tacqC (d a : Nat) : uses (.tacqC d a) = [.rg a, .wg d] := rfl
@[simp] theorem uses_relB (a : Nat) : uses (.relB a) = [.rg a] := rfl
@[simp] theorem uses_relL (a b : Nat) : uses (.relL a b) = [.rg a, .rg b] := rfl
@[simp] theorem uses_relT (a : Nat) : uses (.relT a) = [.rg a] := rfl
@[simp] theorem uses_relC (a : Nat) : uses (.relC a) = [.rg a] := rfl
@[simp] theorem uses_relall : uses .relall = [] := rfl
@[simp] theorem uses_qres (d x1 : Nat) : uses (.qres d x1) = [.wg d] := rfl
@[simp] theorem uses_send (a : Nat) : uses (.send a) = [.rg a] := rfl
@[simp] theorem uses_sendt (d a : Nat) : uses (.sendt d a) = [.rg a, .wg d] := rfl
@[simp] theorem uses_sendl (a b x2 : Nat) : uses (.sendl a b x2) = [.rg a, .rg b] := rfl
@[simp] theorem uses_invoke (a b : Nat) : uses (.invoke a b) = [.rg a, .rg b] := rfl
@[simp] theorem uses_invoket (d a b : Nat) : uses (.invoket d a b) = [.rg a, .rg b, .wg d] := rfl
@[simp] theorem uses_invokep (a b : Nat) : uses (.invokep a b) = [.rg a, .rg b] := rfl
@[simp] theorem uses_recv (d a : Nat) : uses (.recv d a) = [.rg a, .wg d] := rfl
@[simp] theorem uses_recvt (d a : Nat) : uses (.recvt d a) = [.rg a, .wg d] := rfl
@[simp] theorem uses_waitmsg (a : Nat) : uses (.waitmsg a) = [.rg a] := rfl
@[simp] theorem uses_reply (a b : Nat) : uses (.reply a b) = [.rg a, .rg b] := rfl
@[simp] theorem uses_invokei (a b x2 x3 x4 x5 x6 x7 : Nat) : uses (.invokei a b x2 x3 x4 x5 x6 x7) = [.rg a, .rg b] := rfl
@[simp] theorem uses_invokeiT (d a b x3 x4 x5 x6 x7 x8 : Nat) : uses (.invokeiT d a b x3 x4 x5 x6 x7 x8) = [.rg a, .rg b, .wg d] := rfl
@[simp] theorem uses_invokeiP (a b x2 x3 x4 x5 x6 x7 : Nat) : uses (.invokeiP a b x2 x3 x4 x5 x6 x7) = [.rg a, .rg b] := rfl
@[simp] theorem uses_dset (x0 a b : Nat) : uses (.dset x0 a b) = [.rg a, .rg b] := rfl
@[simp] theorem uses_ddec (x0 a b : Nat) : uses (.ddec x0 a b) = [.rg a, .wg b] := rfl
@[simp] theorem uses_dwait (x0 : Nat) : uses (.dwait x0) = [] := rfl
@[simp] theorem uses_rld (d a x2 x3 x4 x5 : Nat) : uses (.rld d a x2 x3 x4 x5) = [.rg a, .wg d] := rfl
@[simp] theorem uses_rst (d a x2 x3 x4 x5 : Nat) : uses (.rst d a x2 x3 x4 x5) = [.rg a, .rg d] := rfl
@[simp] theorem uses_nst (d a x2 x3 x4 x5 : Nat) : uses (.nst d a x2 x3 x4 x5) = [.rg a, .rg d] := rfl
@[simp] theorem uses_radd (d a x2 x3 x4 x5 : Nat) : uses (.radd d a x2 x3 x4 x5) = [.rg a, .rg d, .wg d] := rfl
@[simp] theorem uses_rmin (d a x2 x3 x4 x5 : Nat) : uses (.rmin d a x2 x3 x4 x5) = [.rg a, .rg d, .wg d] := rfl
@[simp] theorem uses_rmax (d a x2 x3 x4 x5 : Nat) : uses (.rmax d a x2 x3 x4 x5) = [.rg a, .rg d, .wg d] := rfl
@[simp] theorem uses_rand (d a x2 x3 x4 x5 : Nat) : uses (.rand d a x2 x3 x4 x5) = [.rg a, .rg d, .wg d] := rfl
@[simp] theorem uses_ror (d a x2 x3 x4 x5 : Nat) : uses (.ror d a x2 x3 x4 x5) = [.rg a, .rg d, .wg d] := rfl
@[simp] theorem uses_rxor (d a x2 x3 x4 x5 : Nat) : uses (.rxor d a x2 x3 x4 x5) = [.rg a, .rg d, .wg d] := rfl
@[simp] theorem uses_rswp (d a x2 x3 x4 x5 : Nat) : uses (.rswp d a x2 x3 x4 x5) = [.rg a, .rg d, .wg d] := rfl
@[simp] theorem uses_rcas (d a x2 x3 x4 x5 : Nat) : uses (.rcas d a x2 x3 x4 x5) = [.rg a, .rg d, .rg (d + 1), .wg d] := rfl
@[simp] theorem uses_mcst (x0 d a b x4 x5 x6 : Nat) : uses (.mcst x0 d a b x4 x5 x6) = [.rg a, .rg b, .rg d] := rfl
@[simp] theorem uses_hinit (x0 b : Nat) : uses (.hinit x0 b) = [.rg b] := rfl
@[simp] theorem uses_harrive (d x1 x2 x3 : Nat) : uses (.harrive d x1 x2 x3) = [.wg d] := rfl
@[simp] theorem uses_harriveRemote (d a x2 x3 : Nat) : uses (.harriveRemote d a x2 x3) = [.rg a, .wg d] := rfl
@[simp] theorem uses_hwait (x0 b : Nat) : uses (.hwait x0 b) = [.rg b] := rfl
@[simp] theorem uses_hwaitRemote (a b : Nat) : uses (.hwaitRemote a b) = [.rg a, .rg b] := rfl
@[simp] theorem uses_hexpect (x0 b : Nat) : uses (.hexpect x0 b) = [.rg b] := rfl
@[simp] theorem uses_htest (d x1 b : Nat) : uses (.htest d x1 b) = [.rg b, .wg d] := rfl
@[simp] theorem uses_fred (d a x2 : Nat) : uses (.fred d a x2) = [.rg a, .wg d] := rfl
@[simp] theorem uses_fbcast (d a x2 : Nat) : uses (.fbcast d a x2) = [.rg a, .wg d] := rfl
@[simp] theorem uses_frwait (d a : Nat) : uses (.frwait d a) = [.rg a, .wg d] := rfl
@[simp] theorem uses_cpy (d a b g x4 x5 x6 x7 : Nat) : uses (.cpy d a b g x4 x5 x6 x7) = [.rg a, .rg b, .rg g, .wg d] := rfl
@[simp] theorem uses_cpyr (d a b g x4 x5 x6 x7 : Nat) : uses (.cpyr d a b g x4 x5 x6 x7) = [.rg a, .rg b, .rg g, .wg d] := rfl
@[simp] theorem uses_cpym (d a b g x4 x5 x6 x7 : Nat) : uses (.cpym d a b g x4 x5 x6 x7) = [.rg a, .rg b, .rg g, .wg d] := rfl
@[simp] theorem uses_cpys (x0 d a b g x5 x6 x7 x8 : Nat) : uses (.cpys x0 d a b g x5 x6 x7 x8) = [.rg a, .rg b, .rg g, .wg d] := rfl
@[simp] theorem uses_cpyw (d a : Nat) : uses (.cpyw d a) = [.rg a, .wg d] := rfl
@[simp] theorem uses_cpyq (d a : Nat) : uses (.cpyq d a) = [.rg a, .wg d] := rfl
@[simp] theorem uses_cpyx (a : Nat) : uses (.cpyx a) = [.rg a] := rfl
@[simp] theorem uses_halo (d a b x3 x4 : Nat) : uses (.halo d a b x3 x4) = [.rg a, .rg b, .wg d] := rfl
@[simp] theorem uses_sysr (d n : Nat) : uses (.sysr d n) = .wg d :: buildUse n := rfl
@[simp] theorem uses_sysw (d x1 : Nat) : uses (.sysw d x1) = [.rg d] := rfl
@[simp] theorem uses_sysset (d n : Nat) : uses (.sysset d n) = .rg d :: buildUse n := rfl
@[simp] theorem uses_sysclr (d n : Nat) : uses (.sysclr d n) = .rg d :: buildUse n := rfl
@[simp] theorem uses_trap (x0 : Nat) : uses (.trap x0) = [] := rfl
@[simp] theorem uses_brk (x0 : Nat) : uses (.brk x0) = [] := rfl
@[simp] theorem uses_eret : uses .eret = [] := rfl
@[simp] theorem uses_halt : uses .halt = [] := rfl
@[simp] theorem uses_wfi : uses .wfi = [] := rfl

theorem exec_add (d a b : Nat) (s : State) : exec (.add d a b) s = execAdd d a b s := rfl
theorem exec_sub (d a b : Nat) (s : State) : exec (.sub d a b) s = execSub d a b s := rfl
theorem exec_and (d a b : Nat) (s : State) : exec (.and d a b) s = execAnd d a b s := rfl
theorem exec_or (d a b : Nat) (s : State) : exec (.or d a b) s = execOr d a b s := rfl
theorem exec_xor (d a b : Nat) (s : State) : exec (.xor d a b) s = execXor d a b s := rfl
theorem exec_andn (d a b : Nat) (s : State) : exec (.andn d a b) s = execAndn d a b s := rfl
theorem exec_shl (d a b : Nat) (s : State) : exec (.shl d a b) s = execShl d a b s := rfl
theorem exec_shr (d a b : Nat) (s : State) : exec (.shr d a b) s = execShr d a b s := rfl
theorem exec_sar (d a b : Nat) (s : State) : exec (.sar d a b) s = execSar d a b s := rfl
theorem exec_rol (d a b : Nat) (s : State) : exec (.rol d a b) s = execRol d a b s := rfl
theorem exec_mul (d a b : Nat) (s : State) : exec (.mul d a b) s = execMul d a b s := rfl
theorem exec_mulh (d a b : Nat) (s : State) : exec (.mulh d a b) s = execMulh d a b s := rfl
theorem exec_mulhn (d a b : Nat) (s : State) : exec (.mulhn d a b) s = execMulhn d a b s := rfl
theorem exec_div (d a b : Nat) (s : State) : exec (.div d a b) s = execDiv d a b s := rfl
theorem exec_divn (d a b : Nat) (s : State) : exec (.divn d a b) s = execDivn d a b s := rfl
theorem exec_rem (d a b : Nat) (s : State) : exec (.rem d a b) s = execRem d a b s := rfl
theorem exec_remn (d a b : Nat) (s : State) : exec (.remn d a b) s = execRemn d a b s := rfl
theorem exec_min (d a b : Nat) (s : State) : exec (.min d a b) s = execMin d a b s := rfl
theorem exec_max (d a b : Nat) (s : State) : exec (.max d a b) s = execMax d a b s := rfl
theorem exec_minn (d a b : Nat) (s : State) : exec (.minn d a b) s = execMinn d a b s := rfl
theorem exec_maxn (d a b : Nat) (s : State) : exec (.maxn d a b) s = execMaxn d a b s := rfl
theorem exec_slt (d a b : Nat) (s : State) : exec (.slt d a b) s = execSlt d a b s := rfl
theorem exec_sltn (d a b : Nat) (s : State) : exec (.sltn d a b) s = execSltn d a b s := rfl
theorem exec_seq (d a b : Nat) (s : State) : exec (.seq d a b) s = execSeq d a b s := rfl
theorem exec_sel (d a b : Nat) (s : State) : exec (.sel d a b) s = execSel d a b s := rfl
theorem exec_clz (d a : Nat) (s : State) : exec (.clz d a) s = execClz d a s := rfl
theorem exec_ctz (d a : Nat) (s : State) : exec (.ctz d a) s = execCtz d a s := rfl
theorem exec_popc (d a : Nat) (s : State) : exec (.popc d a) s = execPopc d a s := rfl
theorem exec_bfx (d a b : Nat) (s : State) : exec (.bfx d a b) s = execBfx d a b s := rfl
theorem exec_bfi (d a b : Nat) (s : State) : exec (.bfi d a b) s = execBfi d a b s := rfl
theorem exec_addi (d a im : Nat) (s : State) : exec (.addi d a im) s = execAddi d a im s := rfl
theorem exec_andi (d a im : Nat) (s : State) : exec (.andi d a im) s = execAndi d a im s := rfl
theorem exec_ori (d a im : Nat) (s : State) : exec (.ori d a im) s = execOri d a im s := rfl
theorem exec_xori (d a im : Nat) (s : State) : exec (.xori d a im) s = execXori d a im s := rfl
theorem exec_shli (d a st : Nat) (s : State) : exec (.shli d a st) s = execShli d a st s := rfl
theorem exec_shri (d a st : Nat) (s : State) : exec (.shri d a st) s = execShri d a st s := rfl
theorem exec_sari (d a st : Nat) (s : State) : exec (.sari d a st) s = execSari d a st s := rfl
theorem exec_slti (d a im : Nat) (s : State) : exec (.slti d a im) s = execSlti d a im s := rfl
theorem exec_sltin (d a im : Nat) (s : State) : exec (.sltin d a im) s = execSltin d a im s := rfl
theorem exec_lui (d im : Nat) (s : State) : exec (.lui d im) s = execLui d im s := rfl
theorem exec_adrp (d im : Nat) (s : State) : exec (.adrp d im) s = execAdrp d im s := rfl
theorem exec_beq (a b o : Nat) (s : State) : exec (.beq a b o) s = execBeq a b o s := rfl
theorem exec_bne (a b o : Nat) (s : State) : exec (.bne a b o) s = execBne a b o s := rfl
theorem exec_blt (a b o : Nat) (s : State) : exec (.blt a b o) s = execBlt a b o s := rfl
theorem exec_bge (a b o : Nat) (s : State) : exec (.bge a b o) s = execBge a b o s := rfl
theorem exec_bltn (a b o : Nat) (s : State) : exec (.bltn a b o) s = execBltn a b o s := rfl
theorem exec_bgen (a b o : Nat) (s : State) : exec (.bgen a b o) s = execBgen a b o s := rfl
theorem exec_jal (d o : Nat) (s : State) : exec (.jal d o) s = execJal d o s := rfl
theorem exec_jalr (d a im : Nat) (s : State) : exec (.jalr d a im) s = execJalr d a im s := rfl
theorem exec_nop (s : State) : exec .nop s = execNop s := rfl
theorem exec_yield (s : State) : exec .yield s = execYield s := rfl
theorem exec_exit (s : State) : exec .exit s = execExit s := rfl
theorem exec_wid (d b : Nat) (s : State) : exec (.wid d b) s = execWid d b s := rfl
theorem exec_time (d : Nat) (s : State) : exec (.time d) s = execTime d s := rfl
theorem exec_ldb (d a st o : Nat) (s : State) : exec (.ldb d a st o) s = execLdb d a st o s := rfl
theorem exec_ldbn (d a st o : Nat) (s : State) : exec (.ldbn d a st o) s = execLdbn d a st o s := rfl
theorem exec_ldh (d a st o : Nat) (s : State) : exec (.ldh d a st o) s = execLdh d a st o s := rfl
theorem exec_ldhn (d a st o : Nat) (s : State) : exec (.ldhn d a st o) s = execLdhn d a st o s := rfl
theorem exec_ldw (d a st o : Nat) (s : State) : exec (.ldw d a st o) s = execLdw d a st o s := rfl
theorem exec_ldwn (d a st o : Nat) (s : State) : exec (.ldwn d a st o) s = execLdwn d a st o s := rfl
theorem exec_ldd (d a st o : Nat) (s : State) : exec (.ldd d a st o) s = execLdd d a st o s := rfl
theorem exec_stb (d a st o : Nat) (s : State) : exec (.stb d a st o) s = execStb d a st o s := rfl
theorem exec_sth (d a st o : Nat) (s : State) : exec (.sth d a st o) s = execSth d a st o s := rfl
theorem exec_stw (d a st o : Nat) (s : State) : exec (.stw d a st o) s = execStw d a st o s := rfl
theorem exec_std (d a st o : Nat) (s : State) : exec (.std d a st o) s = execStd d a st o s := rfl
theorem exec_ladd (d a b st : Nat) (s : State) : exec (.ladd d a b st) s = execLadd d a b st s := rfl
theorem exec_lmin (d a b st : Nat) (s : State) : exec (.lmin d a b st) s = execLmin d a b st s := rfl
theorem exec_lmax (d a b st : Nat) (s : State) : exec (.lmax d a b st) s = execLmax d a b st s := rfl
theorem exec_land (d a b st : Nat) (s : State) : exec (.land d a b st) s = execLand d a b st s := rfl
theorem exec_lor (d a b st : Nat) (s : State) : exec (.lor d a b st) s = execLor d a b st s := rfl
theorem exec_lxor (d a b st : Nat) (s : State) : exec (.lxor d a b st) s = execLxor d a b st s := rfl
theorem exec_lswp (d a b st : Nat) (s : State) : exec (.lswp d a b st) s = execLswp d a b st s := rfl
theorem exec_lcas (d a b st : Nat) (s : State) : exec (.lcas d a b st) s = execLcas d a b st s := rfl
theorem exec_fence (m k : Nat) (s : State) : exec (.fence m k) s = execFence m k s := rfl
theorem exec_fpop (d a : Nat) (s : State) : exec (.fpop d a) s = execFpop d a s := rfl
theorem exec_vld (d a st o : Nat) (s : State) : exec (.vld d a st o) s = execVld d a st o s := rfl
theorem exec_vst (d a st o : Nat) (s : State) : exec (.vst d a st o) s = execVst d a st o s := rfl
theorem exec_fpopv (d a : Nat) (s : State) : exec (.fpopv d a) s = execFpopv d a s := rfl
theorem exec_vgath (d a b w st : Nat) (s : State) : exec (.vgath d a b w st) s = execVgath d a b w st s := rfl
theorem exec_vscat (d a b w st : Nat) (s : State) : exec (.vscat d a b w st) s = execVscat d a b w st s := rfl
theorem exec_vadd (d a b t : Nat) (s : State) : exec (.vadd d a b t) s = execVadd d a b t s := rfl
theorem exec_vsub (d a b t : Nat) (s : State) : exec (.vsub d a b t) s = execVsub d a b t s := rfl
theorem exec_vmul (d a b t : Nat) (s : State) : exec (.vmul d a b t) s = execVmul d a b t s := rfl
theorem exec_vmin (d a b t : Nat) (s : State) : exec (.vmin d a b t) s = execVmin d a b t s := rfl
theorem exec_vmax (d a b t : Nat) (s : State) : exec (.vmax d a b t) s = execVmax d a b t s := rfl
theorem exec_vfma (d a b t : Nat) (s : State) : exec (.vfma d a b t) s = execVfma d a b t s := rfl
theorem exec_vshl (d a b t : Nat) (s : State) : exec (.vshl d a b t) s = execVshl d a b t s := rfl
theorem exec_vshr (d a b t : Nat) (s : State) : exec (.vshr d a b t) s = execVshr d a b t s := rfl
theorem exec_vcmpEq (d a b t : Nat) (s : State) : exec (.vcmpEq d a b t) s = execVcmpEq d a b t s := rfl
theorem exec_vcmpLt (d a b t : Nat) (s : State) : exec (.vcmpLt d a b t) s = execVcmpLt d a b t s := rfl
theorem exec_vcmpLe (d a b t : Nat) (s : State) : exec (.vcmpLe d a b t) s = execVcmpLe d a b t s := rfl
theorem exec_vabs (d a t : Nat) (s : State) : exec (.vabs d a t) s = execVabs d a t s := rfl
theorem exec_vneg (d a t : Nat) (s : State) : exec (.vneg d a t) s = execVneg d a t s := rfl
theorem exec_vrcp (d a t : Nat) (s : State) : exec (.vrcp d a t) s = execVrcp d a t s := rfl
theorem exec_vrsq (d a t : Nat) (s : State) : exec (.vrsq d a t) s = execVrsq d a t s := rfl
theorem exec_vexp2 (d a t : Nat) (s : State) : exec (.vexp2 d a t) s = execVexp2 d a t s := rfl
theorem exec_vlog2 (d a t : Nat) (s : State) : exec (.vlog2 d a t) s = execVlog2 d a t s := rfl
theorem exec_vtanh (d a t : Nat) (s : State) : exec (.vtanh d a t) s = execVtanh d a t s := rfl
theorem exec_vsum (d a t : Nat) (s : State) : exec (.vsum d a t) s = execVsum d a t s := rfl
theorem exec_vrmax (d a t : Nat) (s : State) : exec (.vrmax d a t) s = execVrmax d a t s := rfl
theorem exec_vand (d a b : Nat) (s : State) : exec (.vand d a b) s = execVand d a b s := rfl
theorem exec_vor (d a b : Nat) (s : State) : exec (.vor d a b) s = execVor d a b s := rfl
theorem exec_vxor (d a b : Nat) (s : State) : exec (.vxor d a b) s = execVxor d a b s := rfl
theorem exec_vsel (d a b w : Nat) (s : State) : exec (.vsel d a b w) s = execVsel d a b w s := rfl
theorem exec_vperm (d a b w : Nat) (s : State) : exec (.vperm d a b w) s = execVperm d a b w s := rfl
theorem exec_vext (d a b w : Nat) (s : State) : exec (.vext d a b w) s = execVext d a b w s := rfl
theorem exec_vins (d a b w : Nat) (s : State) : exec (.vins d a b w) s = execVins d a b w s := rfl
theorem exec_vbcast (d a w : Nat) (s : State) : exec (.vbcast d a w) s = execVbcast d a w s := rfl
theorem exec_vcvt (d a f st p : Nat) (s : State) : exec (.vcvt d a f st p) s = execVcvt d a f st p s := rfl
theorem exec_vqnt (d a f st p : Nat) (s : State) : exec (.vqnt d a f st p) s = execVqnt d a f st p s := rfl
theorem exec_vdqnt (d a f st p : Nat) (s : State) : exec (.vdqnt d a f st p) s = execVdqnt d a f st p s := rfl
theorem exec_vcvtLane (d a f st p : Nat) (s : State) : exec (.vcvtLane d a f st p) s = execVcvtLane d a f st p s := rfl
theorem exec_tmma (d a b st : Nat) (s : State) : exec (.tmma d a b st) s = execTmma d a b st s := rfl
theorem exec_tzero (d : Nat) (s : State) : exec (.tzero d) s = execTzero d s := rfl
theorem exec_tstat (d a : Nat) (s : State) : exec (.tstat d a) s = execTstat d a s := rfl
theorem exec_tcfg (d a b mm nn af bf acc : Nat) (s : State) :
    exec (.tcfg d a b mm nn af bf acc) s = execTcfg d a b mm nn af bf acc s := rfl
theorem exec_tcfgZ (d a b mm nn af bf acc : Nat) (s : State) :
    exec (.tcfgZ d a b mm nn af bf acc) s = execTcfgZ d a b mm nn af bf acc s := rfl
theorem exec_tdrain (d a b f raw st : Nat) (s : State) : exec (.tdrain d a b f raw st) s = execTdrain d a b f raw st s := rfl
theorem exec_tldacc (d a b f raw st : Nat) (s : State) : exec (.tldacc d a b f raw st) s = execTldacc d a b f raw st s := rfl
theorem exec_tdrainF (d a b f raw st : Nat) (s : State) : exec (.tdrainF d a b f raw st) s = execTdrainF d a b f raw st s := rfl
theorem exec_claim (a : Nat) (s : State) : exec (.claim a) s = execClaim a s := rfl
theorem exec_acqB (d a : Nat) (s : State) : exec (.acqB d a) s = execAcqB d a s := rfl
theorem exec_acqL (d a : Nat) (s : State) : exec (.acqL d a) s = execAcqL d a s := rfl
theorem exec_acqT (d a : Nat) (s : State) : exec (.acqT d a) s = execAcqT d a s := rfl
theorem exec_acqC (d a : Nat) (s : State) : exec (.acqC d a) s = execAcqC d a s := rfl
theorem exec_tacqB (d a : Nat) (s : State) : exec (.tacqB d a) s = execTacqB d a s := rfl
theorem exec_tacqL (d a : Nat) (s : State) : exec (.tacqL d a) s = execTacqL d a s := rfl
theorem exec_tacqT (d a : Nat) (s : State) : exec (.tacqT d a) s = execTacqT d a s := rfl
theorem exec_tacqC (d a : Nat) (s : State) : exec (.tacqC d a) s = execTacqC d a s := rfl
theorem exec_relB (a : Nat) (s : State) : exec (.relB a) s = execRelB a s := rfl
theorem exec_relL (a b : Nat) (s : State) : exec (.relL a b) s = execRelL a b s := rfl
theorem exec_relT (a : Nat) (s : State) : exec (.relT a) s = execRelT a s := rfl
theorem exec_relC (a : Nat) (s : State) : exec (.relC a) s = execRelC a s := rfl
theorem exec_relall (s : State) : exec .relall s = execRelall s := rfl
theorem exec_qres (d b : Nat) (s : State) : exec (.qres d b) s = execQres d b s := rfl
theorem exec_send (a : Nat) (s : State) : exec (.send a) s = execSend a s := rfl
theorem exec_sendt (d a : Nat) (s : State) : exec (.sendt d a) s = execSendt d a s := rfl
theorem exec_sendl (a b st : Nat) (s : State) : exec (.sendl a b st) s = execSendl a b st s := rfl
theorem exec_invoke (a b : Nat) (s : State) : exec (.invoke a b) s = execInvoke a b s := rfl
theorem exec_invoket (d a b : Nat) (s : State) : exec (.invoket d a b) s = execInvoket d a b s := rfl
theorem exec_invokep (a b : Nat) (s : State) : exec (.invokep a b) s = execInvokep a b s := rfl
theorem exec_recv (d a : Nat) (s : State) : exec (.recv d a) s = execRecv d a s := rfl
theorem exec_recvt (d a : Nat) (s : State) : exec (.recvt d a) s = execRecvt d a s := rfl
theorem exec_waitmsg (a : Nat) (s : State) : exec (.waitmsg a) s = execWaitmsg a s := rfl
theorem exec_reply (a b : Nat) (s : State) : exec (.reply a b) s = execReply a b s := rfl
theorem exec_invokei (a b h len prio wsel wx f : Nat) (s : State) :
    exec (.invokei a b h len prio wsel wx f) s = execInvokei a b h len prio wsel wx f s := rfl
theorem exec_invokeiT (d a b h len prio wsel wx f : Nat) (s : State) :
    exec (.invokeiT d a b h len prio wsel wx f) s = execInvokeiT d a b h len prio wsel wx f s := rfl
theorem exec_invokeiP (a b h len prio wsel wx f : Nat) (s : State) :
    exec (.invokeiP a b h len prio wsel wx f) s = execInvokeiP a b h len prio wsel wx f s := rfl
theorem exec_dset (d a b : Nat) (s : State) : exec (.dset d a b) s = execDset d a b s := rfl
theorem exec_ddec (d a b : Nat) (s : State) : exec (.ddec d a b) s = execDdec d a b s := rfl
theorem exec_dwait (d : Nat) (s : State) : exec (.dwait d) s = execDwait d s := rfl
theorem exec_rld (d a st c o z : Nat) (s : State) : exec (.rld d a st c o z) s = execRld d a st c o z s := rfl
theorem exec_rst (d a st c o z : Nat) (s : State) : exec (.rst d a st c o z) s = execRst d a st c o z s := rfl
theorem exec_nst (d a st c o z : Nat) (s : State) : exec (.nst d a st c o z) s = execNst d a st c o z s := rfl
theorem exec_radd (d a st c o z : Nat) (s : State) : exec (.radd d a st c o z) s = execRadd d a st c o z s := rfl
theorem exec_rmin (d a st c o z : Nat) (s : State) : exec (.rmin d a st c o z) s = execRmin d a st c o z s := rfl
theorem exec_rmax (d a st c o z : Nat) (s : State) : exec (.rmax d a st c o z) s = execRmax d a st c o z s := rfl
theorem exec_rand (d a st c o z : Nat) (s : State) : exec (.rand d a st c o z) s = execRand d a st c o z s := rfl
theorem exec_ror (d a st c o z : Nat) (s : State) : exec (.ror d a st c o z) s = execRor d a st c o z s := rfl
theorem exec_rxor (d a st c o z : Nat) (s : State) : exec (.rxor d a st c o z) s = execRxor d a st c o z s := rfl
theorem exec_rswp (d a st c o z : Nat) (s : State) : exec (.rswp d a st c o z) s = execRswp d a st c o z s := rfl
theorem exec_rcas (d a st c o z : Nat) (s : State) : exec (.rcas d a st c o z) s = execRcas d a st c o z s := rfl
theorem exec_mcst (z d a b st c o : Nat) (s : State) : exec (.mcst z d a b st c o) s = execMcst z d a b st c o s := rfl
theorem exec_hinit (a b : Nat) (s : State) : exec (.hinit a b) s = execHinit a b s := rfl
theorem exec_harrive (d a x c : Nat) (s : State) : exec (.harrive d a x c) s = execHarrive d a x c s := rfl
theorem exec_harriveRemote (d a x c : Nat) (s : State) : exec (.harriveRemote d a x c) s = execHarriveRemote d a x c s := rfl
theorem exec_hwait (a b : Nat) (s : State) : exec (.hwait a b) s = execHwait a b s := rfl
theorem exec_hwaitRemote (a b : Nat) (s : State) : exec (.hwaitRemote a b) s = execHwaitRemote a b s := rfl
theorem exec_hexpect (a b : Nat) (s : State) : exec (.hexpect a b) s = execHexpect a b s := rfl
theorem exec_htest (d a b : Nat) (s : State) : exec (.htest d a b) s = execHtest d a b s := rfl
theorem exec_fred (d a st : Nat) (s : State) : exec (.fred d a st) s = execFred d a st s := rfl
theorem exec_fbcast (d a st : Nat) (s : State) : exec (.fbcast d a st) s = execFbcast d a st s := rfl
theorem exec_frwait (d a : Nat) (s : State) : exec (.frwait d a) s = execFrwait d a s := rfl
theorem exec_cpy (d a b g ss ds st c : Nat) (s : State) : exec (.cpy d a b g ss ds st c) s = execCpy d a b g ss ds st c s := rfl
theorem exec_cpyr (d a b g ss ds st c : Nat) (s : State) :
    exec (.cpyr d a b g ss ds st c) s = execCpyr d a b g ss ds st c s := rfl
theorem exec_cpym (d a b g ss st c t : Nat) (s : State) : exec (.cpym d a b g ss st c t) s = execCpym d a b g ss st c t s := rfl
theorem exec_cpys (e d a b g ss st c k : Nat) (s : State) :
    exec (.cpys e d a b g ss st c k) s = execCpys e d a b g ss st c k s := rfl
theorem exec_cpyw (d a : Nat) (s : State) : exec (.cpyw d a) s = execCpyw d a s := rfl
theorem exec_cpyq (d a : Nat) (s : State) : exec (.cpyq d a) s = execCpyq d a s := rfl
theorem exec_cpyx (a : Nat) (s : State) : exec (.cpyx a) s = execCpyx a s := rfl
theorem exec_halo (d a b dirs st : Nat) (s : State) : exec (.halo d a b dirs st) s = execHalo d a b dirs st s := rfl
theorem exec_sysr (d n : Nat) (s : State) : exec (.sysr d n) s = execSysr d n s := rfl
theorem exec_sysw (d n : Nat) (s : State) : exec (.sysw d n) s = execSysw d n s := rfl
theorem exec_sysset (d n : Nat) (s : State) : exec (.sysset d n) s = execSysset d n s := rfl
theorem exec_sysclr (d n : Nat) (s : State) : exec (.sysclr d n) s = execSysclr d n s := rfl
theorem exec_trap (n : Nat) (s : State) : exec (.trap n) s = execTrap n s := rfl
theorem exec_brk (n : Nat) (s : State) : exec (.brk n) s = execBrk n s := rfl
theorem exec_eret (s : State) : exec .eret s = execEret s := rfl
theorem exec_halt (s : State) : exec .halt s = execHalt s := rfl
theorem exec_wfi (s : State) : exec .wfi s = execWfi s := rfl
theorem exec_moduleReset (s : State) : exec .moduleReset s = execModuleReset s := rfl
theorem exec_siteJoin (s : State) : exec .siteJoin s = execSiteJoin s := rfl
theorem exec_lifeCounterUpdate (s : State) : exec .lifeCounterUpdate s = execLifeCounterUpdate s := rfl
theorem exec_spdmRequest (s : State) : exec .spdmRequest s = execSpdmRequest s := rfl
theorem exec_bootCfgWrite (s : State) : exec .bootCfgWrite s = execBootCfgWrite s := rfl
theorem exec_clearLog (s : State) : exec .clearLog s = execClearLog s := rfl
theorem exec_registerWrite (s : State) : exec .registerWrite s = execRegisterWrite s := rfl
theorem exec_localAccessPerform (s : State) : exec .localAccessPerform s = execLocalAccessPerform s := rfl
theorem exec_eccCorrectionWriteback (s : State) : exec .eccCorrectionWriteback s = execEccCorrectionWriteback s := rfl
theorem exec_scrubLineRead (s : State) : exec .scrubLineRead s = execScrubLineRead s := rfl
theorem exec_fetchLineFill (s : State) : exec .fetchLineFill s = execFetchLineFill s := rfl
theorem exec_agePromotion (s : State) : exec .agePromotion s = execAgePromotion s := rfl
theorem exec_yieldWindowEnd (s : State) : exec .yieldWindowEnd s = execYieldWindowEnd s := rfl
theorem exec_admissionEvaluation (s : State) : exec .admissionEvaluation s = execAdmissionEvaluation s := rfl
theorem exec_frameSaveDone (s : State) : exec .frameSaveDone s = execFrameSaveDone s := rfl
theorem exec_frameRestoreDone (s : State) : exec .frameRestoreDone s = execFrameRestoreDone s := rfl
theorem exec_groupLeavesDraining (s : State) : exec .groupLeavesDraining s = execGroupLeavesDraining s := rfl
theorem exec_safetyTestEnd (s : State) : exec .safetyTestEnd s = execSafetyTestEnd s := rfl
theorem exec_tumblerReevaluation (s : State) : exec .tumblerReevaluation s = execTumblerReevaluation s := rfl
theorem exec_releaseApply (s : State) : exec .releaseApply s = execReleaseApply s := rfl
theorem exec_pageZeroingDone (s : State) : exec .pageZeroingDone s = execPageZeroingDone s := rfl
theorem exec_tumblerCfgWrite (s : State) : exec .tumblerCfgWrite s = execTumblerCfgWrite s := rfl
theorem exec_pmapDataWrite (s : State) : exec .pmapDataWrite s = execPmapDataWrite s := rfl
theorem exec_pmapWriteEffect (s : State) : exec .pmapWriteEffect s = execPmapWriteEffect s := rfl
theorem exec_htabBaseWrite (s : State) : exec .htabBaseWrite s = execHtabBaseWrite s := rfl
theorem exec_mboxCfgWrite (s : State) : exec .mboxCfgWrite s = execMboxCfgWrite s := rfl
theorem exec_msglenMaxWrite (s : State) : exec .msglenMaxWrite s = execMsglenMaxWrite s := rfl
theorem exec_tierCfgWrite (s : State) : exec .tierCfgWrite s = execTierCfgWrite s := rfl
theorem exec_tdecDataWrite (s : State) : exec .tdecDataWrite s = execTdecDataWrite s := rfl
theorem exec_tdecWriteEffect (s : State) : exec .tdecWriteEffect s = execTdecWriteEffect s := rfl
theorem exec_fpctlWrite (s : State) : exec .fpctlWrite s = execFpctlWrite s := rfl
theorem exec_steerDataWrite (s : State) : exec .steerDataWrite s = execSteerDataWrite s := rfl
theorem exec_ntDataWrite (s : State) : exec .ntDataWrite s = execNtDataWrite s := rfl
theorem exec_coreNameWrite (s : State) : exec .coreNameWrite s = execCoreNameWrite s := rfl
theorem exec_routeFlush (s : State) : exec .routeFlush s = execRouteFlush s := rfl
theorem exec_probeClear (s : State) : exec .probeClear s = execProbeClear s := rfl
theorem exec_nameTableTick (s : State) : exec .nameTableTick s = execNameTableTick s := rfl
theorem exec_rtreeDataWrite (s : State) : exec .rtreeDataWrite s = execRtreeDataWrite s := rfl
theorem exec_counterUnbind (s : State) : exec .counterUnbind s = execCounterUnbind s := rfl
theorem exec_dcntSelWrite (s : State) : exec .dcntSelWrite s = execDcntSelWrite s := rfl
theorem exec_packetResolve (s : State) : exec .packetResolve s = execPacketResolve s := rfl
theorem exec_packetHop (s : State) : exec .packetHop s = execPacketHop s := rfl
theorem exec_floodCopyArrival (s : State) : exec .floodCopyArrival s = execFloodCopyArrival s := rfl
theorem exec_floodPacketSink (s : State) : exec .floodPacketSink s = execFloodPacketSink s := rfl
theorem exec_probeArrival (s : State) : exec .probeArrival s = execProbeArrival s := rfl
theorem exec_probeAnswer (s : State) : exec .probeAnswer s = execProbeAnswer s := rfl
theorem exec_linkDown (s : State) : exec .linkDown s = execLinkDown s := rfl
theorem exec_bridgeForward (s : State) : exec .bridgeForward s = execBridgeForward s := rfl
theorem exec_bridgeReinject (s : State) : exec .bridgeReinject s = execBridgeReinject s := rfl
theorem exec_invokeArrival (s : State) : exec .invokeArrival s = execInvokeArrival s := rfl
theorem exec_counterLaunch (s : State) : exec .counterLaunch s = execCounterLaunch s := rfl
theorem exec_messageArrival (s : State) : exec .messageArrival s = execMessageArrival s := rfl
theorem exec_answerArrival (s : State) : exec .answerArrival s = execAnswerArrival s := rfl
theorem exec_packetLocalComplete (s : State) : exec .packetLocalComplete s = execPacketLocalComplete s := rfl
theorem exec_hardwareRetry (s : State) : exec .hardwareRetry s = execHardwareRetry s := rfl
theorem exec_launchLineWrite (s : State) : exec .launchLineWrite s = execLaunchLineWrite s := rfl
theorem exec_ingressTimerExpiry (s : State) : exec .ingressTimerExpiry s = execIngressTimerExpiry s := rfl
theorem exec_ingressAnswer (s : State) : exec .ingressAnswer s = execIngressAnswer s := rfl
theorem exec_ingressRetry (s : State) : exec .ingressRetry s = execIngressRetry s := rfl
theorem exec_ingressReset (s : State) : exec .ingressReset s = execIngressReset s := rfl
theorem exec_remoteRequestArrival (s : State) : exec .remoteRequestArrival s = execRemoteRequestArrival s := rfl
theorem exec_remoteAnswer (s : State) : exec .remoteAnswer s = execRemoteAnswer s := rfl
theorem exec_portRequest (s : State) : exec .portRequest s = execPortRequest s := rfl
theorem exec_portAccessComplete (s : State) : exec .portAccessComplete s = execPortAccessComplete s := rfl
theorem exec_portRootWrite (s : State) : exec .portRootWrite s = execPortRootWrite s := rfl
theorem exec_portInval (s : State) : exec .portInval s = execPortInval s := rfl
theorem exec_copyEngineServe (s : State) : exec .copyEngineServe s = execCopyEngineServe s := rfl
theorem exec_copydataArrival (s : State) : exec .copydataArrival s = execCopydataArrival s := rfl
theorem exec_copyCounterPacket (s : State) : exec .copyCounterPacket s = execCopyCounterPacket s := rfl
theorem exec_copyAnswer (s : State) : exec .copyAnswer s = execCopyAnswer s := rfl
theorem exec_copyackPlacement (s : State) : exec .copyackPlacement s = execCopyackPlacement s := rfl
theorem exec_multicastTileArrival (s : State) : exec .multicastTileArrival s = execMulticastTileArrival s := rfl
theorem exec_multicastCredit (s : State) : exec .multicastCredit s = execMulticastCredit s := rfl
theorem exec_haspRemoteRequest (s : State) : exec .haspRemoteRequest s = execHaspRemoteRequest s := rfl
theorem exec_redBlockArrival (s : State) : exec .redBlockArrival s = execRedBlockArrival s := rfl
theorem exec_renormArrival (s : State) : exec .renormArrival s = execRenormArrival s := rfl
theorem exec_bcastArrival (s : State) : exec .bcastArrival s = execBcastArrival s := rfl
theorem exec_vectorCompletion (s : State) : exec .vectorCompletion s = execVectorCompletion s := rfl
theorem exec_tensorOpStart (s : State) : exec .tensorOpStart s = execTensorOpStart s := rfl
theorem exec_tensorSlotWrite (s : State) : exec .tensorSlotWrite s = execTensorSlotWrite s := rfl
theorem exec_drainRowWrite (s : State) : exec .drainRowWrite s = execDrainRowWrite s := rfl
theorem exec_steeredRowSend (s : State) : exec .steeredRowSend s = execSteeredRowSend s := rfl
theorem exec_trapPresentation (s : State) : exec .trapPresentation s = execTrapPresentation s := rfl
theorem exec_fatalTrap (s : State) : exec .fatalTrap s = execFatalTrap s := rfl
theorem exec_doubleTrap (s : State) : exec .doubleTrap s = execDoubleTrap s := rfl
theorem exec_mgmtInterrupt (s : State) : exec .mgmtInterrupt s = execMgmtInterrupt s := rfl
theorem exec_remoteWindowAccess (s : State) : exec .remoteWindowAccess s = execRemoteWindowAccess s := rfl
theorem exec_remoteWindowAnswer (s : State) : exec .remoteWindowAnswer s = execRemoteWindowAnswer s := rfl
theorem exec_siteLsaWrite (s : State) : exec .siteLsaWrite s = execSiteLsaWrite s := rfl
theorem exec_siteLsdRead (s : State) : exec .siteLsdRead s = execSiteLsdRead s := rfl
theorem exec_siteLsdWrite (s : State) : exec .siteLsdWrite s = execSiteLsdWrite s := rfl
theorem exec_trapVecWrite (s : State) : exec .trapVecWrite s = execTrapVecWrite s := rfl
theorem exec_guardReport (s : State) : exec .guardReport s = execGuardReport s := rfl
theorem exec_evict (s : State) : exec .evict s = execEvict s := rfl
theorem exec_restore (s : State) : exec .restore s = execRestore s := rfl
theorem exec_release (s : State) : exec .release s = execRelease s := rfl
theorem exec_stopArrival (s : State) : exec .stopArrival s = execStopArrival s := rfl
theorem exec_quiescence (s : State) : exec .quiescence s = execQuiescence s := rfl
theorem exec_stopEcho (s : State) : exec .stopEcho s = execStopEcho s := rfl
theorem exec_stoppedEnd (s : State) : exec .stoppedEnd s = execStoppedEnd s := rfl
theorem exec_saveComplete (s : State) : exec .saveComplete s = execSaveComplete s := rfl
theorem exec_restoreComplete (s : State) : exec .restoreComplete s = execRestoreComplete s := rfl
theorem exec_stopCompletion (s : State) : exec .stopCompletion s = execStopCompletion s := rfl
theorem exec_stepBoundary (s : State) : exec .stepBoundary s = execStepBoundary s := rfl
theorem exec_currentSample (s : State) : exec .currentSample s = execCurrentSample s := rfl
theorem exec_voltageSample (s : State) : exec .voltageSample s = execVoltageSample s := rfl
theorem exec_thermalSample (s : State) : exec .thermalSample s = execThermalSample s := rfl
theorem exec_regulatorFail (s : State) : exec .regulatorFail s = execRegulatorFail s := rfl
theorem exec_pwrCtlWrite (s : State) : exec .pwrCtlWrite s = execPwrCtlWrite s := rfl
theorem exec_pwrGo (s : State) : exec .pwrGo s = execPwrGo s := rfl
theorem exec_thermSelWrite (s : State) : exec .thermSelWrite s = execThermSelWrite s := rfl
theorem exec_restoreArrival (s : State) : exec .restoreArrival s = execRestoreArrival s := rfl
theorem exec_releaseArrival (s : State) : exec .releaseArrival s = execReleaseArrival s := rfl
theorem exec_coreHaltArrival (s : State) : exec .coreHaltArrival s = execCoreHaltArrival s := rfl
theorem exec_scalarResultWrite (s : State) : exec .scalarResultWrite s = execScalarResultWrite s := rfl
theorem exec_localContributionBlock (s : State) : exec .localContributionBlock s = execLocalContributionBlock s := rfl
theorem exec_illegalInstruction (s : State) : exec .illegalInstruction s = execIllegalInstruction s := rfl

end Sys2Proof.Laws
end

