-- ==== Sys2Proof/Tests/Slice0.lean ====
section
/-! SUPPORT. Checks of the model on small states: ill-formed terms, words written out from the manual's encodings, results
by hand, and states that meet the hypotheses of the statements. -/

namespace Sys2Proof.Tests

-- The tests are evaluated one after another.
set_option Elab.async false

open Sys2Proof Sys2Proof.Machine Sys2Proof.Claims Sys2Proof.Laws

/-! ### States to test on -/

/-- One strand of group 0 in slot 0 of site 0, at 0x4000 in U, with the given general registers. -/
def strandWith (g : Tab Word) (f : Core → Core) : State :=
  { modSite (modSite State.reset 0 fun x => placeWord x 0x4C000000) 0
      fun x => { x with core := f (modSlot x.core 0 fun sl => { sl with ctx := { sl.ctx with g := g } }) } with
    cur := .strand 0 0 }

/-- The same with no change to the core. -/
def demo : State := strandWith [] id

/-- The same in S, and a management core in M. -/
def demoS : State := { demo with cur := .sup 0 }
def demoM : State := { demo with cur := .mgmt 0 }

/-- The strand of `demo` with the pooled banks mapped. -/
def demoB : State := strandWith [] fun c => modSlot c 0 fun sl => { sl with ctx := { sl.ctx with banks := [(2, 0), (7, 1)] } }

/-- A core whose page 5 is page 1 of the store, to be read and written by group 0 and from afar. -/
def page5 (c : Core) : Core := { c with pmap := tset c.pmap 5 (wordN (1 + 2 ^ 13 + 2 ^ 14 + 2 ^ 17 + 2 ^ 19)) }
/-- The strand with registers and that page. -/
def withPage (g : Tab Word) (f : Core → Core) : State := strandWith g fun c => f (page5 c)

/-- Site 0 of `demo` changed, and its core with page 5, for an event with operands. -/
def siteState (f : Site → Site) (arg : List Nat) : State := { modSite demo 0 f with arg := arg }
def coreState (f : Core → Core) (arg : List Nat) : State := siteState (fun x => { x with core := f (page5 x.core) }) arg
theorem stands_other {s : State} (h : ∀ sid k, s.cur ≠ .strand sid k) : agentStands s := fun sid k hk => absurd hk (h sid k)
theorem stands_of {s : State} (hc : s.cur = .strand 0 0) (h : standing s 0 0) : agentStands s := fun sid k hk => by
  obtain ⟨rfl, rfl⟩ : sid = 0 ∧ k = 0 := by
    rw [hc] at hk
    injection hk with h1 h2
    exact ⟨h1.symm, h2.symm⟩
  exact h
/-- The value that an instruction leaves in a register, and the state an operation leaves. -/
def leaves (i : Instr) (s : State) (r : Nat) : Option Word :=
  match exec i s with
  | .next t => some (readG t r)
  | .fault _ => none
  | .refused _ => none
def after (i : Instr) (s : State) : State :=
  match exec i s with
  | .next t => t
  | .fault _ => s
  | .refused _ => s

/-! ### Scalar instructions -/

def aluAll (d a b : Nat) : List Instr :=
  [.add d a b, .sub d a b, .and d a b, .or d a b, .xor d a b, .andn d a b, .shl d a b, .shr d a b, .sar d a b, .rol d a b,
   .min d a b, .max d a b, .minn d a b, .maxn d a b, .slt d a b, .sltn d a b, .seq d a b, .sel d a b, .clz d a, .ctz d a,
   .popc d a, .bfx d a b, .bfi d a b, .addi d a 16383, .andi d a 0, .ori d a 1, .xori d a 8192, .shli d a 63, .shri d a 0,
   .sari d a 63, .slti d a 5, .sltin d a 5, .lui d 1048575, .adrp d 1]

theorem met_ScalarResults : ∀ d ∈ [0, 15, 63], nameable demoB d ∧ ∀ i ∈ aluAll d 7 16, aluDest i = some d ∧ guardTrap i demoB = none := by
  intro d hd
  refine ⟨.inl (by decide +kernel), ?_⟩
  revert d
  decide +kernel
theorem met_ScalarResults_S : nameable demoS 15 ∧ ∀ i ∈ aluAll 15 7 8, aluDest i = some 15 ∧ guardTrap i demoS = none :=
  ⟨.inr (by decide), by decide +kernel⟩
theorem met_ScalarResults_M : nameable demoM 15 ∧ ∀ i ∈ aluAll 15 7 8, aluDest i = some 15 ∧ guardTrap i demoM = none :=
  ⟨.inr (by decide), by decide +kernel⟩

theorem met_MultiplyAndDivide : ∀ d ∈ [0, 15, 63], ∀ i ∈ [Instr.mul d 7 8, .mulh d 7 8, .mulhn d 7 8, .div d 7 8, .divn d 7 8,
    .rem d 7 8, .remn d 7 8], (slowDest i).map (fun x => x.1) = some d ∧ guardTrap i demoB = none := by decide +kernel

/-- A result in flight whose latency has passed. -/
def demoSlow : State :=
  { strandWith [] fun c => { c with scalars := [{ key := 0, d := some 8, val := 5, div := false, ready := 0 }] } with arg := [0, 0, 0] }
theorem met_SlowResultWritten : demoSlow.arg = [0, 0, 0] ∧ ∃ p, (getSite demoSlow 0).core.scalars[0]? = some p ∧ p.ready ≤ demoSlow.time ∧
    p.d = some 8 ∧ p.key < 256 ∧ (strandOf (getSite demoSlow 0).core p.key).saved = none ∧
    findSlot (getSite demoSlow 0).core p.key = some 0 ∧ gMapped (slotOf (getSite demoSlow 0).core 0).ctx 8 = true :=
  ⟨rfl, _, rfl, by decide +kernel⟩

theorem met_BranchTargets : ∀ i ∈ [Instr.beq 8 9 1, .bne 8 9 8192, .blt 8 9 16383, .bge 8 9 0, .bltn 8 9 2, .bgen 8 9 3],
    (branchTaken demo i).isSome = true ∧ guardTrap i demo = none := by decide +kernel
theorem met_JumpAndLink : ∀ d ∈ [0, 15], nameable demo d ∧ guardTrap (.jal d 524288) demo = none ∧ guardTrap (.jalr d d 8191) demo = none := by
  intro d hd
  refine ⟨.inl (by decide +kernel), ?_⟩
  revert d
  decide +kernel
theorem met_NopAndYield : ∀ s ∈ [demo, demoS, demoM], guardTrap .nop s = none ∧ guardTrap .yield s = none := by decide +kernel
theorem met_WorkIdentifierAndTime : nameable demo 9 ∧ (∀ b ∈ [0, 5, 6], guardTrap (.wid 9 b) demo = none) ∧ guardTrap (.time 9) demo = none :=
  ⟨.inl (by decide +kernel), by decide +kernel⟩

/-- A word with a sign, in a register. -/
def demoNeg : State := strandWith [(8, 0xFFFFFFFFFFFFFFF8), (9, 3)] id
theorem test_add_wraps : leaves (.addi 8 8 8) demoNeg 8 = some 0 := by decide +kernel
theorem test_sar_sign : leaves (.sar 4 8 9) demoNeg 4 = some 0xFFFFFFFFFFFFFFFF := by decide +kernel
theorem test_g0 : leaves (.add 0 8 9) demoNeg 0 = some 0 := by decide +kernel
theorem test_sltn : leaves (.sltn 4 8 9) demoNeg 4 = some 0 := by decide +kernel
theorem test_slt : leaves (.slt 4 8 9) demoNeg 4 = some 1 := by decide +kernel
theorem test_lui : leaves (.lui 8 73) demoNeg 8 = some 0x124000 := by decide +kernel

theorem met_ChecksInOrder :
    (Instr.WellFormed .eret ∧ levelOk .exit demoS = false) ∧
    (levelOk .eret demo = true ∧ curLevel demo = .u ∧ legality .eret = .priv) ∧
    (levelOk (.ldd 3 4 15 0) demo = true ∧ streamOf (.ldd 3 4 15 0) = some 15) ∧
    (Instr.WellFormed (.add 3 4 16) ∧ levelOk (.add 3 4 16) demo = true ∧ legality (.add 3 4 16) ≠ .priv ∧
      streamOf (.add 3 4 16) = none ∧ sysNumber (.add 3 4 16) = none ∧ uses (.add 3 4 16) = [Use.rg 4] ++ Use.rg 16 :: [.wg 3] ∧
      gMapped (curCtx demo) 16 = false ∧ gMapped (curCtx demo) 4 = true) := by decide +kernel
theorem met_ChecksInOrder_stands : agentStands demo := fun sid k h => by
  obtain ⟨rfl, rfl⟩ : sid = 0 ∧ k = 0 := by injection h with h1 h2; exact ⟨h1.symm, h2.symm⟩
  unfold standing
  decide +kernel

/-- A strand whose g8 has bad parity. -/
def demoParity : State := strandWith [] fun c => modSlot c 0 fun sl => { sl with ctx := { sl.ctx with parity := [(0, 8)] } }
theorem met_ChecksInOrder_parity : uses (.add 3 4 8) = [Use.rg 4] ++ Use.rg 8 :: [.wg 3] ∧
    (∀ u ∈ uses (.add 3 4 8), ∀ n, u.gOf = some n → gMapped (curCtx demoParity) n = true) ∧
    (∀ u ∈ [Use.rg 4], parityOf (curCtx demoParity) u = none) ∧ (0, 8) ∈ (curCtx demoParity).parity := by decide +kernel

/-! ### Local accesses -/

def dataState : State := withPage [(8, 0x5000), (9, 0x5004), (10, 0x6000), (11, 0x5FF8)] id
def scalarForms (d a st : Nat) : List Instr :=
  [.ldb d a st 0, .ldbn d a st 1023, .ldh d a st 2, .ldhn d a st 511, .ldw d a st 1, .ldwn d a st 255, .ldd d a st 1, .stb d a st 3, .sth d a st 1,
   .stw d a st 255, .std d a st 127, .ladd d a 4 st, .lmin d a 4 st, .lmax d a 4 st, .land d a 4 st, .lor d a 4 st, .lxor d a 4 st,
   .lswp d a 4 st, .lcas d a 4 st, .vld d a st 0, .vst d a st 31]
theorem met_LocalAccessIssued : ∀ i ∈ scalarForms 3 8 0 ++ scalarForms 0 8 14, guardTrap i dataState = none ∧
    ((localForm dataState i).any fun f => (firstFailure dataState f.ea f.n f.rd f.wr).isNone) = true := by decide +kernel
theorem met_LocalAccessTraps_stands : agentStands dataState := stands_of rfl (by unfold standing; decide +kernel)
/-- The failures of R163: an address beyond the store, misaligned, unmapped, and one that the page forbids. -/
theorem met_LocalAccessTraps : ∀ p ∈ [(Instr.ldw 3 9 0 0, none), (.ldd 3 9 0 0, some (0x05, 0)), (.ldb 3 10 0 0, some (0x04, 1)), (.stb 3 4 0 0, some (0x04, 1)),
      (.vst 1 11 0 0, some (0x05, 0)), (.ldb 3 10 0 0, some (0x04, 1))],
    ((localForm dataState p.1).bind fun f => firstFailure dataState f.ea f.n f.rd f.wr) = p.2 ∧ guardTrap p.1 dataState = none := by
  decide +kernel
theorem met_LocalAccessTraps_rest : firstFailure dataState 0x200000 1 true false = some (0x04, 4) ∧ firstFailure dataState 0x1FFFF8 8 true false = some (0x04, 1) ∧
    firstFailure dataState 0x4000 4 false true = some (0x04, 3) ∧
    firstFailure (strandWith [] fun c => { c with pmap := tset c.pmap 5 (wordN (300 + 512 + 2 ^ 13 + 2 ^ 19)) }) 0x5000 4 true false = some (0x04, 2) := by
  decide +kernel
def gatherState : State := withPage [] fun c => modSlot c 0 fun sl =>
  { sl with ctx := { sl.ctx with q := [(1, 0x11), (2, 0)], v := [(4, 0x500000005020)] } }
theorem met_GatherScatterIssued : (∀ m, gatherState.cur ≠ .mgmt m) ∧ (∀ q ∈ [1, 2], guardTrap (.vgath 3 q 4 0 1) gatherState = none ∧
    guardTrap (.vscat 3 q 4 0 1) gatherState = none ∧ ∀ e ∈ enabledLanes gatherState q 4, firstFailure gatherState e.2 4 true false = none ∧
    firstFailure gatherState e.2 4 false true = none) ∧ enabledLanes gatherState 2 4 = [] ∧ enabledLanes gatherState 1 4 = [(0, 0x5020), (1, 0x5000)] :=
  ⟨fun _ h => Agent.noConfusion h, by decide +kernel⟩

/-- The strand with one access issued, and the words of the store that are uncorrectable. -/
def accState (x : Access) (bad : List Nat) : State :=
  { withPage [] fun c => { c with accesses := [x], bad := bad, mem := [(0x1000, 0x80)] } with arg := [0, 0, 0, 0] }
def acc (rd wr : Bool) (u : List AUnit) (f : AFin) : Access := { id := 0, key := 0, stream := 0, rd := rd, wr := wr, units := u, fin := f }
theorem mayGo_one (x : Access) (bad : List Nat) (h : x.id = 0 ∧ x.ready = 0) : mayGo (accState x bad) 0 0 x := by
  refine ⟨?_, h.2 ▸ Nat.zero_le _, ?_⟩
  · show (List.find? (fun y : Access => y.id == 0) [x]) = some x
    simp [h.1]
  · intro y hy
    have : y ∈ List.takeWhile (fun y : Access => y.id != 0) [x] := hy
    simp [h.1] at this
def loadAcc : Access := acc true false [.read 0x5000 1 0] (.load 1 true (some 8))
theorem met_LoadPerforms : (accState loadAcc []).arg = [0, 0, 0, 0] ∧ Claims.reaches (accState loadAcc []) 0 loadAcc.key 0 8 ∧
    badIn (getSite (accState loadAcc []) 0).core.bad (physVia (getSite (accState loadAcc []) 0).core loadAcc.via 0x5000) 1 = none :=
  ⟨rfl, by unfold Claims.reaches; decide +kernel, by decide +kernel⟩
theorem test_ldb_sign : leaves .localAccessPerform (accState loadAcc []) 8 = some 0xFFFFFFFFFFFFFF80 := by decide +kernel
theorem met_StorePerforms : ∀ n ∈ [1, 8], badIn (getSite (accState (acc false true [.write 0x5000 n 5] .none) []) 0).core.bad
    (physVia (getSite (accState (acc false true [.write 0x5000 n 5] .none) []) 0).core [] 0x5000) n = none := by decide +kernel
def rmwAcc : Access := acc true true [.rmw 0x5000 0 1 0] (.atomic (some 8))
theorem met_AtomicPerforms : Claims.reaches (accState rmwAcc []) 0 0 0 8 ∧ badIn (getSite (accState rmwAcc []) 0).core.bad 0x1000 8 = none ∧
    physVia (getSite (accState rmwAcc []) 0).core [] 0x5000 = 0x1000 := ⟨by unfold Claims.reaches; decide +kernel, by decide +kernel⟩
theorem test_ladd : leaves .localAccessPerform (accState rmwAcc []) 8 = some 0x80 := by decide +kernel
def lineAcc : Access := acc true false [.read 0x5060 32 96] (.vec (some 3))
theorem met_VectorLinePerforms : mayGo (accState lineAcc []) 0 0 lineAcc ∧ Claims.reaches (accState lineAcc []) 0 0 0 0 ∧
    badIn (getSite (accState lineAcc []) 0).core.bad 0x1060 32 = none ∧ physVia (getSite (accState lineAcc []) 0).core [] 0x5060 = 0x1060 :=
  ⟨mayGo_one _ _ ⟨rfl, rfl⟩, by unfold Claims.reaches; decide +kernel, by decide +kernel⟩
def storeLines : Access := acc false true [.write 0x5000 32 1, .write 0x5020 32 2] .none
theorem met_VectorLinePerforms_store : mayGo (accState storeLines []) 0 0 storeLines ∧ storeLines.units[1]? = some (.write 0x5020 32 2) ∧
    1 < storeLines.units.length := ⟨mayGo_one _ _ ⟨rfl, rfl⟩, by decide⟩
theorem met_UncorrectableLoad : mayGo (accState loadAcc [0x1000]) 0 0 loadAcc ∧ Claims.reaches (accState loadAcc [0x1000]) 0 0 0 8 ∧
    badIn (getSite (accState loadAcc [0x1000]) 0).core.bad (physVia (getSite (accState loadAcc [0x1000]) 0).core [] 0x5000) 1 = some 0x1000 :=
  ⟨mayGo_one _ _ ⟨rfl, rfl⟩, by unfold Claims.reaches; decide +kernel, by decide +kernel⟩
theorem met_UncorrectableLoad_atomic : Claims.reaches (accState rmwAcc [0x1000]) 0 0 0 8 ∧
    badIn (getSite (accState rmwAcc [0x1000]) 0).core.bad 0x1000 8 = some 0x1000 := ⟨by unfold Claims.reaches; decide +kernel, by decide +kernel⟩

/-- The strand with a store issued in stream 1. -/
def fenceState : State := accState { acc false true [.write 0x5000 8 1] .none with stream := 1 } []
theorem met_FenceCompletes : guardTrap (.fence 0x7FFF 3) demo = none ∧ agentStands demo ∧ ¬fenceJoins demo 0x7FFF 7 ∧
    (strandOf (curSite demo).core (curKey demo)).deferred = none :=
  ⟨by decide +kernel, stands_of rfl (by unfold standing; decide +kernel), by unfold fenceJoins; decide +kernel, by decide +kernel⟩
theorem met_FenceWaits : guardTrap (.fence 2 2) fenceState = none ∧ agentStands fenceState ∧ fenceJoins fenceState 2 2 :=
  ⟨by decide +kernel, stands_of rfl (by unfold standing; decide +kernel), by unfold fenceJoins; decide +kernel⟩
def demoMAcc : State := modMgmt demoM 0 fun m => { m with accesses := [acc true false [.read 0 1 0] .none] }
theorem met_FenceMgmt : guardTrap (.fence 1 1) demoM = none ∧ (∀ x ∈ accessesOf demoM, x.rd = false) ∧ guardTrap (.fence 1 1) demoMAcc = none ∧
    ∃ x ∈ accessesOf demoMAcc, (1 : Nat).testBit x.stream = true ∧ (x.rd = true ∧ (1 : Nat).testBit 0 = true ∨ x.wr = true ∧ (1 : Nat).testBit 1 = true) := by
  decide +kernel

/-! ### Vector instructions -/

/-- A strand with FP32 lanes in v1: a NaN, one half, zeros; in v2: one, one, a signalling NaN; q1 enabling lane 0. -/
def vecState : State := strandWith [(8, 1)] fun c => modSlot c 0 fun sl =>
  { sl with ctx := { sl.ctx with v := [(1, 0x3F0000007FC00000), (2, 0x7F8000013F8000003F800000)], q := [(1, 0xF)] } }
theorem met_VectorIntegerLanes : ∀ t ∈ [4, 5, 6, 7, 8, 9], ∀ i ∈ [Instr.vadd 0 1 2 t, .vsub 3 1 2 t, .vmul 3 1 2 t, .vmin 3 1 2 t, .vmax 15 1 2 t,
    .vshl 3 1 2 t, .vshr 3 1 2 t], (laneForm i).isSome = true ∧ i.WellFormed ∧ isIntT t = true ∧ guardTrap i vecState = none := by decide +kernel
theorem met_VectorIntegerLanes_one : ∀ t ∈ [4, 6, 8], ∀ i ∈ [Instr.vabs 3 1 t, .vneg 3 1 t], (laneForm i).isSome = true ∧ i.WellFormed ∧
    guardTrap i vecState = none := by decide +kernel
theorem met_VectorFloatArithmetic : ∀ t ∈ [0, 1, 2], ∀ i ∈ [Instr.vadd 3 1 2 t, .vsub 3 1 2 t, .vmul 3 1 2 t, .vfma 3 1 2 t],
    (floatForm i).isSome = true ∧ i.WellFormed ∧ isFloatT t = true ∧ guardTrap i vecState = none := by decide +kernel
theorem met_VectorFloats_lanes : (laneVal 0 0 (vGet (curCtx vecState) 1)).isNan = true ∧ (laneVal 0 1 (vGet (curCtx vecState) 1)).isNan = false ∧
    (laneVal 0 2 (vGet (curCtx vecState) 1)).isNan = false ∧ (laneVal 0 2 (vGet (curCtx vecState) 2)).isNan = true ∧
    (laneVal 0 2 (vGet (curCtx vecState) 2)).isSnan = true ∧ (laneVal 0 1 (vGet (curCtx vecState) 2)).isNan = false := by decide +kernel
theorem met_VectorFloatMinMaxSign : ∀ t ∈ [0, 1, 2], ∀ i ∈ [Instr.vmin 3 1 2 t, .vmax 3 1 2 t, .vabs 3 1 t, .vneg 3 1 t], i.WellFormed ∧
    guardTrap i vecState = none := by decide +kernel
theorem met_VectorCompare : ∀ t ∈ [0, 2, 4, 5, 8, 9], ∀ i ∈ [Instr.vcmpEq 1 1 2 t, .vcmpLt 7 1 2 t, .vcmpLe 2 1 2 t], (compareForm i).isSome = true ∧
    i.WellFormed ∧ guardTrap i vecState = none := by decide +kernel
theorem met_VectorBitsAndMoves : ∀ c ∈ [0, 1, 2], ∀ i ∈ [Instr.vand 3 1 2, .vor 3 1 2, .vxor 3 1 2, .vsel 3 1 0 c, .vperm 3 1 2 c, .vext 3 1 8 c,
    .vins 3 8 8 c, .vbcast 3 8 c], guardTrap i vecState = none := by decide +kernel
theorem met_VectorIntReductions : ∀ t ∈ [4, 5, 6, 7, 8, 9], ∀ i ∈ [Instr.vsum 3 1 t, .vrmax 3 1 t], isIntT t = true ∧ i.WellFormed ∧
    guardTrap i vecState = none := by decide +kernel
theorem met_VectorFloatReductions : ∀ t ∈ [0, 1, 2], ∀ i ∈ [Instr.vsum 3 1 t, .vrmax 3 1 t], isFloatT t = true ∧ i.WellFormed ∧
    guardTrap i vecState = none := by decide +kernel
theorem met_VectorFloatReductions_nan : (((List.range 32).map fun k => laneVal 0 k (vGet (curCtx vecState) 1)).find? Machine.Num.isNan).isSome = true ∧
    (((List.range 32).map fun k => laneVal 0 k (vGet (curCtx vecState) 4)).find? Machine.Num.isNan).isNone = true := by decide +kernel
theorem met_VectorFunctions : ∀ t ∈ [0, 1, 2], ∀ i ∈ [Instr.vrcp 3 1 t, .vrsq 3 1 t, .vexp2 3 1 t, .vlog2 3 1 t, .vtanh 3 1 t],
    (functionForm i).isSome = true ∧ i.WellFormed ∧ guardTrap i vecState = none := by decide +kernel
theorem met_VectorConvert : ∀ i ∈ [Instr.vcvt 3 1 0 1 1, .vcvt 3 1 1 0 0, .vcvt 3 1 5 0 3, .vcvt 3 1 27 26 0, .vcvtLane 3 1 4 0 0, .vcvtLane 3 1 8 0 3],
    (convertForm i).isSome = true ∧ i.WellFormed ∧ guardTrap i vecState = none := by decide +kernel
theorem met_VectorQuantise : ∀ i ∈ [Instr.vqnt 3 1 13 0 0, .vqnt 3 1 22 1 2, .vqnt 3 1 24 0 1, .vdqnt 3 1 0 13 2, .vdqnt 3 1 2 25 0], i.WellFormed ∧
    guardTrap i vecState = none := by decide +kernel

/-- A result in flight whose latency has passed, with and without a trap. -/
def vecDone (traps : Bool) : State :=
  { strandWith [] fun c => { c with vectors := [{ key := 0, pc := 0x4000, vd := some (3, 7), gd := some (8, 5), traps := traps, flags := 1 }] } with
    arg := [0, 0, 0] }
theorem met_VectorResultWritten : ∀ b ∈ [true, false], ((getSite (vecDone b) 0).core.vectors[0]?.any fun p => p.ready ≤ (vecDone b).time &&
    p.key == slotKey (slotOf (getSite (vecDone b) 0).core 0) && p.traps == b) = true ∧ gMapped (slotOf (getSite (vecDone b) 0).core 0).ctx 8 = true := by
  decide +kernel
theorem met_VectorResultWritten_stands (b : Bool) : standing (vecDone b) 0 0 := by cases b <;> unfold standing <;> decide +kernel
theorem met_RoundingModes : (0 : Nat) < 3 ∧ ¬3 ∣ 7 ∧ 3 ∣ 6 := by decide
theorem met_FloatRoundTrip : ∀ f ∈ [fp32, bf16, fp16], f ∈ [fp32, bf16, fp16] ∧ 0x8001 < 2 ^ f.width ∧ (decodeFloat f 0x8001).isNan = false := by decide +kernel

/-- The vector result that an instruction puts in flight, and its flags. -/
def vecOut (i : Instr) (s : State) : Option (Nat × Nat) :=
  match exec i s with
  | .next t => (vectorsOf t).getLast?.map fun p => ((p.vd.map fun x => x.2.toNat).getD 0, p.flags)
  | .fault _ => none
  | .refused _ => none
/-- 0.5 + 1 in lane 1; the canonical NaN in lane 0, whose operand is quiet; the signalling NaN of lane 2 raises INVALID. -/
theorem test_vadd : (vecOut (.vadd 3 1 2 0) vecState).map (fun p => (p.1 % 2 ^ 96, p.2 % 2)) = some (0x7FC000003FC000007FC00000, 1) := by
  decide +kernel
theorem test_vbcast : (vecOut (.vbcast 3 8 2) vecState).map (fun p => p.1 % 2 ^ 16) = some 0x101 := by decide +kernel
theorem test_vrcp : (vecOut (.vrcp 3 2 0) vecState).map (fun p => p.1 % 2 ^ 32) = some 0x3F800000 := by decide +kernel

/-! ### System registers, traps and returns -/

theorem met_SystemRegisterRead : guardTrap (.sysr 9 0x040) demo = none ∧ nameable demo 9 ∧ goesAtOnce demo 0x040 ∧ goesAtOnce demo 0x003 :=
  ⟨by decide +kernel, .inl (by decide +kernel), ⟨by decide +kernel, by decide +kernel, fun _ h => Agent.noConfusion h⟩,
    ⟨by decide +kernel, by decide +kernel, fun _ h => Agent.noConfusion h⟩⟩
theorem met_SystemRegisterRead_M : guardTrap (.sysr 0 0x700) demoM = none ∧ nameable demoM 0 ∧ goesAtOnce demoM 0x7E8 :=
  ⟨by decide +kernel, .inr (by decide), ⟨by decide +kernel, by decide +kernel, fun _ _ => by decide⟩⟩
theorem met_SiteRegisterWritten : (∀ k, demoS.cur ≠ .mgmt k) ∧ ∀ n ∈ [0x023, 0x044, 0x07C, 0x081], plainReg n ∧ n ∉ ownRule ∧
    ∀ op ∈ [1, 2, 3], guardTrap (sysInstr op 9 n) demoS = none :=
  ⟨fun _ h => Agent.noConfusion h, by unfold plainReg; decide +kernel⟩
theorem met_SiteRegisterWritten_go : ∀ n ∈ [0x023, 0x044, 0x07C, 0x081], goesAtOnce demoS n := fun n hn =>
  ⟨by revert n; decide +kernel, by revert n; decide +kernel, fun _ h => Agent.noConfusion h⟩
theorem met_ContextRegisterWritten : ∀ n ∈ [1, 2, 3, 0x010, 0x019], guardTrap (.sysw 9 n) demo = none ∧ sysWaits n demo = false ∧ isCtxNumber n = true := by
  decide +kernel
/-- A strand with a vector instruction in progress. -/
def vecBusy : State := strandWith [] fun c => { c with vectors := [{ key := 0, pc := 0x4000 }] }
theorem met_SystemRegisterWaitsAndTraps : (guardTrap (.sysr 9 1) vecBusy = none ∧ sysWaits 1 vecBusy = true) ∧
    sysFault 0x004 false demo = some true ∧ sysFault 0x041 true demo = some false ∧ sysFault 0x073 true demoS = some false ∧
    guardTrap (.sysw 9 0x800) demoM = none := by decide +kernel
theorem stands_demo : agentStands demo := stands_of rfl (by unfold standing; decide +kernel)
theorem stands_M : agentStands demoM := stands_other fun _ _ h => Agent.noConfusion h
theorem met_SoftwareTraps : agentStands demo ∧ guardTrap (.trap 4095) demo = none ∧ guardTrap (.brk 0) demo = none ∧ guardTrap (.brk 1) demoM = none :=
  ⟨stands_demo, by decide +kernel⟩
theorem met_SoftwareTraps_words : agentStands { demo with arg := [0, 0, 4] } := stands_of rfl (by unfold standing; decide +kernel)

def aRec : TrapRec := { slot := 0, val := { cause := 0x11, pc := 0x4000, info := 7 }, fresh := false }
/-- A record kept, with TRAP_VEC.EN 1 and BASE 0x6000. -/
def recState (r : TrapRec) : State :=
  { modSite (strandWith [] fun c => { c with traps := [r] }) 0 (fun x => { x with regs := [(0x023, wordN (2 ^ 21 + 0x6000))] }) with arg := [0] }
theorem met_TrapPresented : (recState aRec).arg = [0] ∧ (getSite (recState aRec) 0).core.sup.st = .idle ∧ regF (getSite (recState aRec) 0) 0x023 21 21 = 1 ∧
    nextRecord (getSite (recState aRec) 0).core = some aRec ∧ (getSite (recState aRec) 0).core.evict.st = .run ∧ (getSite (recState aRec) 0).dead = false := by
  decide +kernel
def fatalRec : TrapRec := { aRec with fatal := true }
theorem met_FatalTrap : { recState fatalRec with arg := [0, 0] }.arg = [0, 0] ∧
    (getSite (recState fatalRec) 0).core.traps.find? (fun r => r.fatal && r.slot == 0) = some fatalRec ∧
    ((groupOf (getSite (recState fatalRec) 0).core 0).any fun g => g.live.all (fun i => decide (i < 16))) = true := by decide +kernel
def doubleState : State := { strandWith [] (fun c => { c with sup := { c.sup with double := some aRec.val } }) with arg := [0] }
theorem met_DoubleTrap : doubleState.arg = [0] ∧ (getSite doubleState 0).core.sup.double = some aRec.val := by decide +kernel
theorem met_DoubleTrap_save : regF (getSite (modSite doubleState 0 fun x => { x with regs := [(0x023, wordN (2 ^ 22))] }) 0) 0x023 22 22 = 1 := by decide +kernel

/-- S with a record presented, with KILL as given. -/
def presented (kill : Nat) : State :=
  { modSite (strandWith [] fun c => { c with sup := { c.sup with st := .running, present := some aRec } }) 0
      (fun x => { x with regs := [(0x020, wordN (kill * 2 ^ 23)), (0x021, 0x4004)] }) with cur := .sup 0 }
theorem met_ReturnFromTrap : ∀ kill ∈ [0, 1], guardTrap .eret (presented kill) = none ∧ (presented kill).cur = .sup 0 ∧
    (getSite (presented kill) 0).core.sup.present = some aRec ∧ aRec.slot < 16 ∧ regF (getSite (presented kill) 0) 0x020 23 23 = kill ∧
    ((groupOf (getSite (presented kill) 0).core 0).any fun g => g.live.all (fun i => decide (i < 16))) = true := by decide +kernel
def inTrapM : State := modMgmt demoM 0 fun m => { m with regs := [(0x703, 1)] }
theorem met_ReturnFromTrap_M : guardTrap .eret inTrapM = none ∧ mreg (getMgmt inTrapM 0) 0x703 % 2 = 1 ∧ guardTrap .eret demoM = none ∧
    mreg (getMgmt demoM 0) 0x703 % 2 = 0 := by decide +kernel
/-- CORE_HALT leaves site 0 eastward for its management core. -/
theorem met_CoreHaltSent : ∀ s ∈ [doubleState, demoS], let u := modSite s 0 fun x => { x with regs := tset x.regs 0x076 (wordN (2 ^ 13)) }
    rimAt (siteW 0) (regF (getSite u 0) 0x073 45 44) 96 ≠ 0 ∧ routeTo (getSite u 0) (rimAt (siteW 0) (regF (getSite u 0) 0x073 45 44) 96) = some 1 ∧ meshLink u 0 1 1 := by
  unfold meshLink
  decide +kernel
theorem met_Halt : guardTrap .halt demoS = none ∧ guardTrap .halt demoM = none := by decide +kernel
theorem met_Wfi : guardTrap .wfi (presented 0) = none ∧ (∀ r ∈ (getSite (presented 0) 0).core.traps, r.fatal = true ∨ r.fresh = true) ∧
    guardTrap .wfi { recState aRec with cur := .sup 0 } = none ∧ ∃ r ∈ (getSite (recState aRec) 0).core.traps, r.fatal = false ∧ r.fresh = false := by
  decide +kernel
/-- A running management core with interrupts 2 and 3 pending and enabled. -/
def irqM : State := { modMgmt demoM 0 (fun m => { m with st := .running, regs := [(0x701, 0xC), (0x702, 0xC), (0x703, 0)] }) with arg := [0] }
theorem met_Wfi_M : guardTrap .wfi irqM = none ∧ mreg (getMgmt irqM 0) 0x701 &&& mreg (getMgmt irqM 0) 0x702 ≠ 0 ∧ guardTrap .wfi demoM = none ∧
    mreg (getMgmt demoM 0) 0x701 &&& mreg (getMgmt demoM 0) 0x702 = 0 := by decide +kernel
theorem met_MgmtInterrupt : irqM.arg = [0] ∧ (getMgmt irqM 0).st = .running ∧ (getMgmt irqM 0).wait = .none ∧ mreg (getMgmt irqM 0) 0x703 % 2 = 0 ∧
    (mreg (getMgmt irqM 0) 0x701 &&& mreg (getMgmt irqM 0) 0x702).testBit 2 = true ∧
    ∀ i, i < 2 → (mreg (getMgmt irqM 0) 0x701 &&& mreg (getMgmt irqM 0) 0x702).testBit i = false := by decide +kernel
def haltPacket : Packet := { mgmt := .coreHalt }
def haltArrived : State := { modMgmt demoM 0 (fun m => { m with arrivals := [haltPacket] }) with arg := [0] }
theorem met_CoreHaltArrival : haltArrived.arg = [0] ∧ (getMgmt haltArrived 0).arrivals.head? = some haltPacket ∧ haltPacket.mgmt = .coreHalt := by
  decide +kernel

theorem test_trap : (getSite (after (.trap 7) demo) 0).core.traps.map (fun r => (r.val.cause, r.val.info)) = [(0x11, 7)] := by decide +kernel
theorem test_eret_M : curPc (after .eret inTrapM) = 0 ∧ mreg (getMgmt (after .eret inTrapM) 0) 0x703 = 0 := by decide +kernel

/-! ### Writes with rules of their own -/

/-- Where a group exists, and where none does. -/
theorem met_ConfigurationWrites : (siteState id [0, 383]).arg = [0, 383] ∧ (getSite (siteState id [0, 383]) 0).core.groups ≠ [] ∧
    (getSite State.reset 0).core.groups = [] ∧ (2 ^ 7 + 12 * 2 ^ 15) / 2 ^ 7 % 2 ^ 8 ≠ 0 ∧ (2 ^ 7 + 12 * 2 ^ 15) / 2 ^ 15 % 2 ^ 5 = 12 := by decide +kernel
theorem met_NamePageAndTableWrites : (siteState id [0, 0x07C, 5]).arg = [0, 0x07C, 5] ∧ 0x07C ∉ ownRule ∧ (getSite demo 0).life = .live ∧
    ¬((5 : Nat).testBit 19 = true ∧ 383 < 5 % 2 ^ 9) ∧ (regF (getSite demo 0) 0x058 8 8 = 0 ∨ regF (getSite demo 0) 0x058 7 0 < 16) := by decide +kernel
theorem met_CoreName_inPark : regF (getSite demo 0) 0x073 19 0 ≤ 5 ∧
    5 ≤ regF (getSite (siteState (fun x => { x with regs := [(0x073, wordN (9 * 2 ^ 20))] }) []) 0) 0x073 39 20 := by decide +kernel
theorem met_TableWrites : (getSite (coreState (fun c => { c with copies := [(0, { start := 0, n := 1 })] }) [0, 513]) 0).core.copies ≠ [] ∧
    (getSite demo 0).core.copies = [] ∧ regF (getSite (after .ntDataWrite (siteState id [0, 0])) 0) 0x070 9 9 = 0 ∧
    regF (getSite (after .rtreeDataWrite (siteState id [0, 0x100])) 0) 0x081 3 3 = 0 := by decide +kernel
/-- Site 0 with its east link up. -/
def eastUp (arg : List Nat) : State := siteState (fun x => { x with regs := [(0x076, wordN (2 ^ 13))] }) arg
theorem met_TableWrites_taken : entryTowards (getSite (eastUp [0, 5]) 0) 1 0 1 ∧ treeBusy (getSite (eastUp [0, 2]) 0) (treeSelected (getSite (eastUp [0, 2]) 0)) = false ∧
    (∀ p < 5, (2 % 8 = p + 1 ∨ (2 : Nat).testBit (p + 3) = true) → treePort (eastUp [0, 2]) 0 p = true) ∧ (∀ p < 5, 2 % 8 = p + 1 → (2 : Nat).testBit (p + 3) = false) ∧
    tget 0 (getSite (eastUp [0, 5]) 0).router.ntRank (ntSelected (getSite (eastUp [0, 5]) 0)) ≤ 3 := by
  unfold entryTowards
  decide +kernel
/-- The supervisor context with PMAP_SEL at a page that the pool holds, and at one that it does not. -/
def poolS (p : Nat) : State :=
  { siteState (fun x => { x with regs := [(0x050, wordN p)], core := { x.core with pmap := tset x.core.pmap 6 (wordN (300 + 2 ^ 13 + 2 ^ 19)) } }) [0, 0, 0] with cur := .sup 0 }
/-- The same with a value in g9 that names a pool page. -/
def poolV : State := modSite (poolS 7) 0 fun x => { x with core := { x.core with sup := { x.core.sup with ctx := { x.core.sup.ctx with g := [(9, wordN (300 + 2 ^ 13 + 2 ^ 19))] } } } }
theorem met_PmapDataInS : levelOk (.sysw 9 0x051) (poolS 6) = true ∧ regF (getSite (poolS 6) 0) 0x050 8 0 = 6 ∧
    ePool (getSite (poolS 6) 0) (pmapLatest (getSite (poolS 6) 0).core 6) = true ∧ ePool (getSite (poolS 7) 0) 0 = false ∧
    ePool (getSite (poolS 7) 0) (pmapLatest (getSite (poolS 7) 0).core 7) = false ∧ levelOk (.sysw 9 0x051) poolV = true ∧ guardTrap (.sysw 9 0x051) poolV = none ∧
    ePool (getSite poolV 0) ((readG poolV 9).toNat % 2 ^ 20) = true ∧ ((guardTrap (.sysw 20 0x051) (poolS 6)).map fun v => v.cause) = some 2 := by decide +kernel
def pmapDue (a : List Access) : State := coreState (fun c => { c with pmapNext := [(5, 0, 1)], accesses := a }) [0]
theorem met_PmapWriteEffect : (pmapDue []).arg = [0] ∧ (getSite (pmapDue []) 0).core.pmapNext = [(5, 0, 1)] ∧
    (∀ a ∈ (getSite (pmapDue []) 0).core.accesses, 1 ≤ a.id) ∧
    ∃ a ∈ (getSite (pmapDue [{ id := 0, key := 0, stream := 0, rd := true, wr := false }]) 0).core.accesses, a.id < 1 := by decide +kernel
theorem met_TdecWriteEffect : tablesQuiet (getSite (coreState (fun c => { c with tdecNext := [(3, 1), (3, 2)] }) [0]) 0).core = true ∧
    [(3, 1), (3, 2)] = [(3, 1)] ++ ((3, 2) : Nat × Nat) :: [] := by decide +kernel

/-! ### Copies -/

/-- A strand of a group with two channels, with an FP32 shape block of four elements at 0x5100 and a HALO descriptor at 0x5180. -/
def copyCore (chans : Nat) (busy : Tab Chan) (block : Nat) (c : Core) : Core :=
  let c := modGroup (page5 c) 0 fun g => { g with chans := chans, uid := 7 }
  { c with chans := busy, mem := mwrite (mwrite c.mem 0x1100 32 block) 0x1180 48 (1 + 8 * 4 + 128 + 4 * 2 ^ 64 + 4 * 2 ^ 80 + 2 ^ 96) }
def copyStrand (chans : Nat) (busy : Tab Chan) (block : Nat) : State :=
  strandWith [(8, 0x5000), (9, 0x5200), (10, 0x5100), (11, 0x5180)] (copyCore chans busy block)
def fourWords : Nat := 4 * 2 ^ 128
def copyForms : List Instr := [.cpy 3 8 9 10 0 0 1 0, .cpyr 3 8 9 10 0 0 1 0, .cpys 2 3 8 9 10 0 1 0 4]
theorem met_Copies_stands (n : Nat) (h : n < 3) : standing (copyStrand n [] fourWords) 0 0 := by
  obtain rfl | rfl | rfl : n = 0 ∨ n = 1 ∨ n = 2 := by omega
  all_goals unfold standing; decide +kernel
theorem met_CopyInstructions : ∀ i ∈ copyForms, guardTrap i (copyStrand 2 [] fourWords) = none ∧ ((copyForm i).any fun f =>
    decide (runFault (copyStrand 2 [] fourWords) 0x5100 16 16 f.stream false = none ∧ 32 = 32 + 16 * (readLocal (curSite (copyStrand 2 [] fourWords)).core 0x5100 1 % 16) ∧
      runFault (copyStrand 2 [] fourWords) 0x5100 32 16 f.stream false = none ∧ badRun (curSite (copyStrand 2 [] fourWords)).core 0x5100 32 = none ∧
      readRun (curSite (copyStrand 2 [] fourWords)).core 0x5100 32 = fourWords)) = true := by decide +kernel
theorem met_CopyPasses : ∀ i ∈ copyForms, ((copyForm i).any fun f => decide (shapeBad fourWords = false ∧
    classBad f.kind (copyJob f (copyStrand 2 [] fourWords) fourWords).shape = false ∧
    copyAlign (copyJob f (copyStrand 2 [] fourWords) fourWords) (copyArray f (copyStrand 2 [] fourWords) fourWords) (copyStrand 2 [] fourWords) = none ∧
    feedRuns (copyJob f (copyStrand 2 [] fourWords) fourWords) (copyArray f (copyStrand 2 [] fourWords) fourWords) (copyStrand 2 [] fourWords) = none ∧
    dstLen (copyJob f (copyStrand 2 [] fourWords) fourWords) (copyArray f (copyStrand 2 [] fourWords) fourWords) % 2 ^ f.esize = 0)) = true := by
  decide +kernel
/-- The root of tree 2 with its own core a member. -/
def copyRoot : State := modSite (copyStrand 2 [] fourWords) 0 fun x => onRouter (fun r => { r with rtree := [(2, 0x100)] }) x
theorem met_CopyMulticast : guardTrap (.cpym 3 8 9 10 0 1 0 2) copyRoot = none ∧ treeParent (curSite copyRoot) 2 = 0 ∧ treeLocal (curSite copyRoot) 2 = true ∧
    shapeBad fourWords = false := by decide +kernel
def busyChan : Chan := { busy := true, ended := false, grp := 0, uid := 7 }
theorem met_CopyChannels : (actGroupVal (copyStrand 0 [] fourWords)).chans = 0 ∧ occupiedNow (copyStrand 2 [] fourWords) < (actGroupVal (copyStrand 2 [] fourWords)).chans ∧
    (actGroupVal (copyStrand 1 [(0, busyChan)] fourWords)).chans ≤ occupiedNow (copyStrand 1 [(0, busyChan)] fourWords) ∧
    lowestFree (copyStrand 2 [] fourWords) 0 ∧ lowestFree (copyStrand 2 [(0, busyChan)] fourWords) 1 ∧ shapeBad (fourWords + 2 ^ 20) = true := by
  unfold lowestFree
  decide +kernel
theorem met_Halo : guardTrap (.halo 3 9 11 5 0) (copyStrand 2 [] fourWords) = none ∧ runFault (copyStrand 2 [] fourWords) 0x5180 48 16 0 false = none ∧
    badRun (curSite (copyStrand 2 [] fourWords)).core 0x5180 48 = none ∧ haloBad (readRun (curSite (copyStrand 2 [] fourWords)).core 0x5180 48) 5 = false ∧
    0x5200 % runAlign 8 = 0 ∧ (∀ l ∈ ((List.range 4).filter (5 : Nat).testBit).map (slabLeg (curSite (copyStrand 2 [] fourWords))
      (readRun (curSite (copyStrand 2 [] fourWords)).core 0x5180 48) 0x5200), l.dbase % runAlign 8 = 0) := by decide +kernel

/-- A strand of group 0, whose unit number is 7, with channel 0 as given and its handle 0 in g4. -/
def handleState (h : Chan) : State := copyStrand 1 [(0, h)] fourWords
def doneChan : Chan := { busyChan with ended := true }
theorem met_CopyHandles : (∀ h ∈ [busyChan, doneChan, { doneChan with status := 5 }], groupsChannel (handleState h) 0 h ∧ guardTrap (.cpyw 3 4) (handleState h) = none ∧
    guardTrap (.cpyq 3 4) (handleState h) = none ∧ guardTrap (.cpyx 4) (handleState h) = none) ∧ ourChan (copyStrand 1 [] fourWords) 0 = none ∧
    (readG (handleState busyChan) 4).toNat = 0 := by
  unfold groupsChannel
  decide +kernel
theorem met_CopyHandles_outs : ∃ o ∈ (curSite (modSite (handleState busyChan) 0 fun x => onCore (fun c => { c with outs := [{ seq := 1, kind := .copyRead 0 0, pkt := {} }] }) x)).core.outs,
    o.kind.chan? = some 0 ∧ o.due = none := by decide +kernel

/-- A feed register bound to a copy of four words that has brought n bytes. -/
def feedChan (off : Nat) : Chan :=
  { busyChan with kind := .cpys, started := true, esize := 2, feed := some 4, legs := [{ sbase := 0x5000, dbase := 0x5200, dims := [(4, 0, 0)] }],
                  wr := { off := off } }
def feedState (off : Nat) : State :=
  modCurCtx (handleState (feedChan off)) fun x => { x with f := [(4, wordN (1 + 2 * 2))] }
theorem met_FeedRegisters : (∀ n ∈ [4, 0, 15], feeds (feedState n) 4 (feedChan n) 4 0 ∧ guardTrap (.fpop 3 4) (feedState n) = none ∧ guardTrap (.fpopv 3 4) (feedState n) = none) ∧
    feedTotal (feedChan 4) / 4 = 4 ∧ (0 + 1) * 4 ≤ feedArrived (feedChan 4) ∧ feedArrived (feedChan 0) < (0 + 1) * 4 ∧ feedArrived (feedChan 15) < min (0 + 128 / 4) 4 * 4 ∧
    elementGood (feedState 4) (feedChan 4) 4 0 ∧ (tget 0 (curCtx (handleState busyChan)).f 4).getLsbD 0 = false := by
  unfold feeds elementGood
  decide +kernel
/-- A register whose copy had its channel before another took it. -/
theorem met_FeedRegisters_past : feeds (modSite (modCurCtx (handleState busyChan) fun x => { x with f := [(4, wordN (1 + 2 * 2))] }) 0
    fun x => onCore (fun c => modStrand c 0 fun st => { st with pastFeeds := [(4, feedChan 4)] }) x) 4 (feedChan 4) 4 0 := by
  unfold feeds
  decide +kernel
theorem met_FeedRegisters_all : (min (0 + 128 / 4) 4) * 4 ≤ feedArrived { feedChan 0 with wr := { leg := 1 } } := by decide +kernel

/-- Site 0 with a copy on channel 0 to be served. -/
def serveState (h : Chan) (k : Nat) : State := coreState (fun c => { c with chans := [(0, h)] }) [0, 0, k]
def freshChan : Chan := { feedChan 0 with kind := .cpy, started := false, feed := none }
def movingChan : Chan := { freshChan with started := true, pieces := [{ id := 0, src := {}, n := 8, data := some 0x1122334455667788 }], legs := [{ sbase := 0x5000, dbase := 0x5218, dims := [(4, 0, 0)] }] }
theorem met_CopyServed : tget? (getSite (serveState freshChan 0) 0).core.chans 0 = some freshChan ∧ freshChan.busy = true ∧ freshChan.ended = false ∧ freshChan.status = 0 ∧
    (getSite (serveState freshChan 0) 0).core.evict.st = .run ∧ (getSite (serveState freshChan 0) 0).life = .live ∧ (getSite (serveState freshChan 0) 0).dead = false ∧
    freshChan.started = false ∧ nextLeg freshChan 0 < freshChan.legs.length ∧ writesDone (getSite (serveState freshChan 0) 0).core 0 0 0 = true := by decide +kernel
theorem met_CopyServed_write : movingChan.kind = .cpy ∧ movingChan.dspace = 0 ∧ movingChan.shape.sf = movingChan.shape.df ∧ movingChan.wr.leg < movingChan.legs.length ∧
    runIn 0 (dstAt (legAt movingChan {}) 0) (dstLen movingChan (legAt movingChan {})) = true ∧ (dstAt (legAt movingChan {}) 0).toNat = 0x5218 ∧
    min (dstLen movingChan (legAt movingChan {}) - 0) (32 - 0x5218 % 32) = 8 ∧ 0 + 8 < dstLen movingChan (legAt movingChan {}) ∧
    gathered movingChan {} 0 8 = some 0x1122334455667788 ∧ engineFault (getSite (serveState movingChan 2) 0) movingChan false true 0x5218 8 = false ∧
    partialWord (getSite (serveState movingChan 2) 0).core 0x5218 8 = none := by decide +kernel

def readingChan (space : Nat) : Chan := { freshChan with started := true, sspace := space }
theorem met_CopyServed_read : ∀ k ∈ [0, 1], ¬((readingChan k).kind = .halo ∧ isNull (legAt (readingChan k) (readingChan k).rd).dname = true) ∧
    (readingChan k).rd.leg < (readingChan k).legs.length ∧ (readingChan k).wr.leg < (readingChan k).legs.length ∧
    runIn k (srcAt (legAt (readingChan k) {}) 0) (srcLen (readingChan k) (legAt (readingChan k) {})) = true ∧ (srcAt (legAt (readingChan k) {}) 0).toNat + 0 = 0x5000 ∧
    min (32 - 0x5000 % 32) (srcLen (readingChan k) (legAt (readingChan k) {}) - 0) = 16 ∧
    min (min (srcLen (readingChan k) (legAt (readingChan k) {}) - 0) (32 * max 1 (msgMax (getSite (serveState (readingChan k) 1) 0)))) (4096 - 0x5000 % 4096) = 16 ∧
    engineFault (getSite (serveState (readingChan k) 1) 0) (readingChan k) true false 0x5000 16 = false ∧
    badRun (getSite (serveState (readingChan k) 1) 0).core 0x5000 16 = none ∧ (getSite (serveState (readingChan k) 1) 0).core.allowQ = [] ∧
    1 ≤ freePlaces (getSite (serveState (readingChan k) 1) 0).core := by decide +kernel
def sendingChan : Chan := { movingChan with dspace := 1, legs := [{ sbase := 0x5000, dbase := 0x5FF8, dims := [(4, 0, 0)] }] }
theorem met_CopyServed_send : runIn 1 (dstAt (legAt sendingChan {}) 0) (dstLen sendingChan (legAt sendingChan {})) = true ∧ (dstAt (legAt sendingChan {}) 0).toNat + 0 = 0x5FF8 ∧
    min (dstLen sendingChan (legAt sendingChan {}) - 0) (min (32 * max 1 (msgMax (getSite (serveState sendingChan 2) 0))) (4096 - 0x5FF8 % 4096)) = 8 ∧
    0 + 8 < dstLen sendingChan (legAt sendingChan {}) ∧ gathered sendingChan {} 0 8 = some 0x1122334455667788 ∧
    (getSite (serveState sendingChan 2) 0).core.allowQ = [] ∧ 1 + (8 + 31) / 32 ≤ freePlaces (getSite (serveState sendingChan 2) 0).core := by decide +kernel

/-- Site 0 with one packet arrived. -/
def arrived (q : Packet) (f : Core → Core) : State := coreState (fun c => f { c with arrivals := [q] }) [0]
def dataPacket : Packet := { kind := kCOPYDATA, len := 1, payload := [0x55], arg0 := 0x5008, cargo := { bytes := 8 } }
theorem met_CopydataArrival : handles (getSite (arrived dataPacket id) 0) dataPacket ∧ ¬(dataPacket.len = 0 ∧ dataPacket.counter ≠ 0) ∧
    dataPacket.arg1.toNat / 2 ^ 17 % 4 = 0 ∧ 0 < dataPacket.cargo.bytes ∧ (getSite (arrived dataPacket id) 0).core.ordReady = [] := by
  unfold handles
  decide +kernel
/-- The packet taken, with its one line still to be written. -/
def landed : State := { after .copydataArrival (arrived dataPacket id) with arg := [0, 0] }
theorem met_CopydataLine : (getSite landed 0).core.landing = some { pkt := dataPacket, left := [0] } ∧ Claims.lineOf 0x5008 8 0 = (0x5008, 8) ∧
    homeAllows (getSite landed 0) dataPacket 0x5008 ∧ partialWord (getSite landed 0).core 0x5008 8 = none ∧ physOf (getSite landed 0).core 0x5008 = 0x1008 ∧
    (getSite landed 0).core.frameLines = [] := by
  unfold homeAllows
  decide +kernel
def countPacket : Packet := { kind := kCOPYDATA, counter := 3 }
def counted : State := arrived countPacket fun c => { c with counters := [(3, { count := 2 })] }
theorem met_CopyCounterPacket : handles (getSite counted 0) countPacket ∧ countPacket.len = 0 ∧ countPacket.counter ≠ 0 ∧
    counterOf (getSite counted 0).core 3 = some { count := 2 } := by
  unfold handles
  decide +kernel
def replyPacket : Packet := { kind := kREPLY, vc := 1, seq := 1, len := 1, payload := [0x99] }
def awaited (k : OKind) (h : Chan) (p : Packet) : State := arrived p fun c => { c with outs := [{ seq := 1, kind := k, pkt := {} }], chans := [(0, h)] }
theorem met_CopyAnswer : nextArrival (getSite (awaited (.copyRead 0 0) movingChan replyPacket) 0) = some replyPacket ∧ replyPacket.kind = kREPLY ∧
    takesAnswers (getSite (awaited (.copyRead 0 0) movingChan replyPacket) 0) = true ∧ malformed (getSite (awaited (.copyRead 0 0) movingChan replyPacket) 0) replyPacket = false ∧
    ((findOut (getSite (awaited (.copyRead 0 0) movingChan replyPacket) 0).core 1).map fun o => o.kind) = some (.copyRead 0 0) ∧
    tget? (getSite (awaited (.copyRead 0 0) movingChan replyPacket) 0).core.chans 0 = some movingChan ∧ movingChan.status = 0 := by decide +kernel
def ackState (pages : List Nat) : State := coreState (fun c => { c with chans := [(0, doneChan)], mboxPages := pages }) [0, 0]
theorem met_CopyackPlacement : tget? (getSite (ackState [2]) 0).core.chans 0 = some doneChan ∧ doneChan.busy = true ∧ doneChan.ended = true ∧
    mqUsed (getSite (ackState [2]) 0).core < 64 ∧ (getSite (ackState [2]) 0).core.strands = [] ∧ mailRoom (getSite (ackState [2]) 0).core 1 = true ∧ mailRoom (getSite (ackState []) 0).core 1 = false := by
  decide +kernel

/-- A tile that comes down the parent's link of a member without children. -/
def tilePacket : Packet := { dataPacket with arg1 := BitVec.ofNat 64 (3 * 2 ^ 17 + 2 * 2 ^ 23) }
def tileState : State :=
  siteState (fun x => onRouter (fun r => { r with rtree := [(2, 0x102)], inq := [(1, 0, tilePacket)] }) { x with core := page5 x.core }) [0, 0]
theorem met_MulticastTileArrival : inputAt tileState 0 0 = some (1, tilePacket) ∧ tilePacket.arg1.toNat / 2 ^ 17 % 4 = 3 ∧ heldFor (getSite tileState 0) tilePacket = false ∧
    portPark (getSite tileState 0) 1 = tilePacket.park ∧ parentPort (getSite tileState 0) 2 = some 1 ∧ childPorts (getSite tileState 0) 2 = [] ∧
    treeLocal (getSite tileState 0) 2 = true ∧ (getSite tileState 0).life = .live ∧ (getSite tileState 0).dead = false ∧ evicted (getSite tileState 0) = false ∧
    homeFault (getSite tileState 0) tilePacket 0x5000 false false true = none ∧ inFirmwareEntries (getSite tileState 0) 0x5008 8 = false := by decide +kernel
/-- The tile waits for its line to be written. -/
def tileLanded : State := { after .multicastTileArrival tileState with arg := [0, 0, 1, 0] }
theorem met_MulticastTileLine : ((getSite tileLanded 0).router.tiles[0]?.any fun w => w.lines == [0] && w.pkt == tilePacket && w.left == 0) = true ∧
    partialWord (getSite tileLanded 0).core 0x5008 8 = none ∧ eValid (pmapAt (getSite tileLanded 0).core 5) = true ∧ eW (pmapAt (getSite tileLanded 0).core 5) = true ∧
    inFirmwareEntries (getSite tileLanded 0) 0x5008 8 = false ∧ (getSite tileLanded 0).core.frameLines = [] := by decide +kernel
theorem test_tile : storeByte (after .multicastTileArrival tileLanded) 0 0x1008 = 0x55 := by decide +kernel
def aTile : TileWait := { tree := 2, pkt := tilePacket, left := 0 }
def creditState : State :=
  siteState (fun x => onRouter (fun r => { r with rtree := [(2, 0x102)], tiles := [aTile] }) { x with regs := [(0x076, wordN (2 ^ 13))] }) [0, 0, 0]
theorem met_MulticastCredit : (getSite creditState 0).router.tiles[0]? = some aTile ∧ aTile.left = 0 ∧ aTile.lines = [] ∧ aTile.counter = 0 ∧ aTile.root = false ∧
    parentPort (getSite creditState 0) 2 = some 1 ∧ linkUp (getSite creditState 0) 1 = true ∧ nbr 0 1 = some 1 := by decide +kernel
/-- A child's credit of status 3 that comes in from the south. -/
def creditPacket : Packet := { kind := kCOPYACK, vc := 1, ks := 3 * 2 ^ 6 }
def creditComes : State := siteState (fun x => onRouter (fun r => { r with tiles := [{ aTile with left := 1 }], inq := [(2, 0, creditPacket)] }) x) [0, 0, 1]
theorem met_MulticastCreditComes : inputAt creditComes 0 0 = some (2, creditPacket) ∧ heldFor (getSite creditComes 0) creditPacket = false ∧
    portPark (getSite creditComes 0) 2 = creditPacket.park ∧ (getSite creditComes 0).router.tiles = [{ aTile with left := 1 }] ∧ tilePacket.seq = creditPacket.seq ∧
    tilePacket.src = creditPacket.dest := by decide +kernel
theorem test_copydata : storeByte (after .copydataArrival landed) 0 0x1008 = 0x55 := by decide +kernel

/-! ### The tensor engine -/

def tconf : TConf := { m := 1, n := 2, k := 4, astride := 16, bstride := 16 }
/-- A strand whose group holds slot 3, in a given state, with addresses in g8 and g9, a K of 4 in g10 and a stride of 8 in g11. -/
def tensorState (y : TSlot) (q : List TOp) : State :=
  withPage [(8, 0x5000), (9, 0x5100), (10, 4), (11, 8), (12, 0x1000000010)] fun c =>
    modGroup { c with tensor := { c.tensor with slots := [(3, y)], queue := q } } 0 fun g => { g with slotsT := [3] }
def anOp : TOp := { kind := .tzero, slot := 3, key := 0, grp := 0 }
theorem met_TensorConfigured : (∀ i ∈ [Instr.tcfg 3 12 10 31 0 0 0 0, .tcfgZ 3 12 10 0 31 8 12 1], (tcfgForm i).isSome = true ∧ guardTrap i (tensorState {} []) = none) ∧
    tensorReady (tensorState {} []) 3 ∧ ¬groupHolds (tensorState {} []) 2 ∧ (tensorSlot (tensorState { live := true } []) 3).live = true ∧
    4 ≤ (curSite (tensorState {} [anOp, anOp, anOp, anOp])).core.tensor.queue.length ∧ (readG (tensorState {} []) 10).toNat % 2 ^ 17 = 4 ∧
    (readG (tensorState {} []) 4).toNat % 2 ^ 17 = 0 ∧ (readG (tensorState {} []) 12).toNat % 4 = 0 ∧ guardTrap (.tzero 3) (tensorState {} []) = none := by
  unfold tensorReady groupHolds
  decide +kernel
theorem met_Tensor_stands (y : TSlot) (h : y = {} ∨ y = { conf := some tconf } ∨ y = { poison := true }) : agentStands (tensorState y []) :=
  stands_of rfl (by obtain rfl | rfl | rfl := h <;> unfold standing <;> decide +kernel)
theorem met_TensorIssued : (∀ i ∈ [Instr.tmma 3 8 9 1, .tldacc 3 8 11 0 1 1, .tdrain 3 8 11 2 0 0, .tdrainF 3 8 11 27 0 0], guardTrap i (tensorState { conf := some tconf } []) = none) ∧
    tensorReady (tensorState { conf := some tconf } []) 3 ∧ (tensorSlot (tensorState { poison := true } []) 3).poison = true ∧
    runsFault (tensorState { conf := some tconf } []) (tensorRuns (tensorState { conf := some tconf } []) 8 16 1) (runBytes 0 4) 4 1 false = none ∧
    runsFault (tensorState { conf := some tconf } []) (tensorRuns (tensorState { conf := some tconf } []) 9 16 2) (runBytes 0 4) 4 1 false = none ∧
    runsFault (tensorState { conf := some tconf } []) (tensorRuns (tensorState { conf := some tconf } []) 8 8 1) (rowBytes 2 0 2) 4 0 true = none ∧
    (rowBytes 27 0 2 + 31) / 32 ≤ msgMax (curSite (tensorState { conf := some tconf } [])) ∧ runFault (tensorState { conf := some tconf } []) 0x5000 1 1 0 false = none := by
  unfold tensorReady groupHolds
  decide +kernel
theorem met_TensorState : guardTrap (.tstat 9 3) (tensorState { conf := some tconf, live := true } []) = none ∧ nameable (tensorState {} []) 9 ∧
    groupHolds (tensorState { conf := some tconf, live := true } []) 3 ∧ ¬groupHolds demo 3 ∧ guardTrap (.tstat 9 3) demo = none :=
  ⟨by decide +kernel, .inl (by decide +kernel), by unfold groupHolds; decide +kernel, by unfold groupHolds; decide +kernel, by decide +kernel⟩
/-- The core with an operation executing and others queued. -/
def engineState (o : Option TOp) (q : List TOp) (arg : List Nat) : State :=
  coreState (fun c => { c with tensor := { c.tensor with cur := o, queue := q, slots := [(3, { conf := some tconf, live := true })] } }) arg
def anMma : TOp := { anOp with kind := .tmma, conf := tconf, data := some 0 }
theorem met_TensorOpStart : ∀ o ∈ [anOp, anMma], (engineState none [o] [0]).arg = [0] ∧ executing (getSite (engineState none [o] [0]) 0).core.tensor = [] ∧
    (getSite (engineState none [o] [0]) 0).core.tensor.queue = [o] ∧ (getSite (engineState none [o] [0]) 0).core.evict.st = .run ∧ o.flags = 0 := by
  decide +kernel
/-- A product that follows one of the same slot whose passes have ended. -/
theorem met_TensorOpStart_next : (getSite (engineState (some anMma) [anMma] [0]) 0).core.tensor.cur = some anMma ∧ anMma.kind = .tmma ∧ anMma.data.isSome = true ∧
    (getSite (engineState (some anMma) [anMma] [0]) 0).core.tensor.queue = [anMma] := by decide +kernel
theorem met_TensorSlotWrite : ∀ o ∈ [anMma, { anMma with bad := true }, { anMma with kind := .tldacc, raw := true }, { anMma with kind := .tldacc, fmt := 2 },
      { anMma with kind := .tldacc, fmt := 13 }],
    executing (getSite (engineState (some o) [] [0]) 0).core.tensor = [o] ∧ o.data = some 0 ∧ (o.kind = .tmma ∨ o.kind = .tldacc) ∧ o.conf.n ≤ 32 := by
  decide +kernel
def aDrain : TOp := { anMma with kind := .tdrain, aAddr := 0x5000, stride := 8, left := some [(0x5000, 4), (0x5004, 4)] }
theorem met_DrainRowWrite : (getSite (engineState (some aDrain) [] [0, 1]) 0).core.tensor.cur = some aDrain ∧ aDrain.left = some [(0x5000, 4), (0x5004, 4)] ∧
    accessFirst (getSite (engineState (some aDrain) [] [0, 1]) 0).core aDrain = true ∧ rowStart aDrain ≤ 0x5004 ∧
    (getSite (engineState (some aDrain) [] [0, 1]) 0).core.frameLines = [] := by decide +kernel
def aSteer : TOp := { anMma with kind := .tdrainF, data := some 1, table := [(5, 0x80000007)] }
theorem met_SteeredRowSend : aSteer.kind = .tdrainF ∧ aSteer.data.isSome = true ∧ steeredWay aSteer 1 ∧ (getSite (engineState (some aSteer) [] [0]) 0).core.allowQ = [] ∧
    1 + (rowLen aSteer + 31) / 32 ≤ freePlaces (getSite (engineState (some aSteer) [] [0]) 0).core := by
  refine ⟨rfl, rfl, ⟨by decide, by decide, by decide +kernel, ?_⟩, by decide +kernel, by decide +kernel⟩
  intro k _ hk
  obtain rfl : k = 0 := by omega
  decide +kernel
def one : Machine.Num := .fin false 1 0
theorem met_TensorSums : one.neg = (one.neg != one.neg) ∧ isBlock 2 = false ∧ isBlock 13 = true ∧
    (∀ t ∈ [decodeFloat fp32 0, one], (-149 : Int) ≤ expo t ∧ (inUnits (-149) t).natAbs < 2 ^ ((0 : Int) + 1 - (-149)).toNat) ∧
    one.isZero = false ∧ 2 ^ ((0 : Int) - (-149)).toNat ≤ (inUnits (-149) one).natAbs ∧ (-149 : Int) ≤ 0 - 40 := by
  unfold expo inUnits one
  decide +kernel
theorem met_TensorSums_finite : isFinite one ∧ isFinite (decodeFloat fp32 (0 : BitVec 32).toNat) ∧ isProduct one one one :=
  ⟨trivial, by unfold isFinite; rw [show decodeFloat fp32 (0 : BitVec 32).toNat = .fin false 0 (-149) by decide +kernel]; trivial, trivial, 0, by decide, by decide, by decide, by decide⟩
/-- The special terms: a NaN, infinities of either sign, and an infinity times a zero. -/
theorem met_TensorSums_special : (decodeFloat fp32 0x7FC00000).isNan = true ∧ decodeFloat fp32 0x7F800000 = .inf false ∧ decodeFloat fp32 0xFF800000 = .inf true ∧
    (decodeFloat fp32 0x7F800000).isInf = true ∧ (decodeFloat fp32 0).isZero = true ∧ (decodeFloat fp32 0x7F800000).isNan = false := by decide +kernel
/-- A negative NaN keeps its sign as the accumulator. -/
theorem test_nan_sign : (chunkSum 1 false 0xFFC00000 [one] [one]).1 = 0xFFC00000 := by decide +kernel
/-! ### Groups and the Tumbler -/

/-- A strand whose group holds slot 3, two channels and page 6 of the pool and claims more; g8 to g13 hold operands. -/
def resState : State :=
  strandWith [(8, 0x0002000100020001), (9, 1), (10, 0x6000), (11, 8), (12, 0x100000), (13, 0xFFFF)] fun c =>
    modGroup { c with pmap := tset c.pmap 6 (wordN (40 + 2 ^ 19)) } 0 fun g => { g with slotsT := [3], chans := 2, claim := { b := 2, l := 3, t := 2, c := 4 } }
def resGroup : Group := (groupOf (curSite resState).core 0).getD { uid := 0 }
theorem met_actsFor : actsFor resState 0 0 resGroup ∧ agentStands resState :=
  ⟨by unfold actsFor; decide +kernel, stands_of rfl (by unfold standing; decide +kernel)⟩
theorem met_Claim : guardTrap (.claim 8) resState = none ∧ (∀ c, c < 4 → (rvecOf (readG resState 8)).at c ≤ resGroup.claim.at c) ∧
    (∀ c, c < 4 → (held (curSite resState) 0).at c ≤ (rvecOf (readG resState 8)).at c) ∧
    ¬(∀ c, c < 4 → (rvecOf (readG resState 13)).at c ≤ resGroup.claim.at c) ∧ (∀ c, c < 4 → (rvecOf (readG resState 9)).at c ≤ resGroup.claim.at c) ∧
    ¬(∀ c, c < 4 → (held (curSite resState) 0).at c ≤ (rvecOf (readG resState 9)).at c) := by decide +kernel
theorem met_ResourcesAsked : ∀ i ∈ [Instr.acqB 3 9, .acqL 3 9, .acqT 3 9, .acqC 3 9, .tacqB 0 9, .tacqL 3 9, .tacqT 3 9, .tacqC 3 9],
    (acqForm i).isSome = true ∧ guardTrap i resState = none := by decide +kernel
theorem met_ResourcesAsked_cases : nameable resState 3 ∧ (∀ c, c < 4 → (readG resState 9).toNat ≤ (need (curSite resState) 0).at c) ∧
    (need (curSite resState) 0).at 3 < (readG resState 13).toNat ∧ (strandBanks (curSite resState).core (actKey resState)).length + 1 ≤ 6 ∧
    ¬(strandBanks (curSite resState).core (actKey resState)).length + (readG resState 13).toNat ≤ 6 ∧ (readG resState 4).toNat = 0 :=
  ⟨.inl (by decide +kernel), by decide +kernel⟩
theorem met_Qres : ∀ b ∈ [0, 1, 2, 3], guardTrap (.qres 3 b) resState = none := by decide +kernel
theorem met_RelL : guardTrap (.relL 10 9) resState = none ∧ (readG resState 10).toNat % 4096 = 0 ∧ ownsPage (curSite resState) 0 6 ∧ ¬ownsPage (curSite resState) 0 0x100 := by
  unfold ownsPage
  decide +kernel
theorem met_RelT : guardTrap (.relT 11) resState = none ∧ groupHolds resState 3 ∧ ¬groupHolds resState 0 := by
  unfold groupHolds
  decide +kernel
theorem met_RelBCall : guardTrap (.relB 4) resState = none ∧ (readG resState 4).toNat = 0 ∧ guardTrap (.relB 13) resState = none ∧ ¬(readG resState 13).toNat < 256 ∧
    guardTrap (.relC 9) resState = none ∧ (readG resState 9).toNat ≤ resGroup.chans - occupied (curSite resState).core 0 ∧
    resGroup.chans - occupied (curSite resState).core 0 < (readG resState 13).toNat ∧ guardTrap .relall resState = none := by decide +kernel
theorem met_RelB_bank : (2, 0) ∈ strandBanks (curSite demoB).core (actKey demoB) := by decide +kernel
theorem met_Exit : standing resState 0 0 ∧ guardTrap .exit resState = none := ⟨by unfold standing; decide +kernel, by decide +kernel⟩
def drainState (a : List Access) : State := coreState (fun c => modGroup { c with accesses := a } 0 fun g => { g with st := .draining, live := [] }) [0, 0]
theorem met_GroupLeavesDraining : ((groupOf (getSite (drainState []) 0).core 0).any fun g => g.st == .draining) = true ∧ drained (getSite (drainState []) 0).core 0 = true ∧
    drained (getSite (drainState [{ id := 0, key := 0, stream := 0, rd := true, wr := false }]) 0).core 0 = false := by decide +kernel

/-- The core with one test of a request for a channel, that finds avail. -/
def aTest (avail : Nat) (wait : Bool) : TTest :=
  { req := .acq 0 0 3 1 wait 8 0 0, vecs := [(0, { c := 2 }, { c := 2 })], avail := { b := 48, l := 300, t := 7, c := avail }, run := true, commits := 0, maps := 0, events := 0, ready := 0 }
def testState (e : TTest) : State :=
  coreState (fun c => modStrand (modGroup { c with tum := { c.tum with tests := [e] } } 0 fun g => { g with chans := 2, claim := { c := 4 } }) 0
    fun y => { y with wait := .tumbler }) [0, 0]
theorem met_TumblerTests : (∀ b ∈ [true, false], (getSite (testState (aTest 5 b)) 0).core.tum.tests[0]? = some (aTest 5 b) ∧ fitsTest (getSite (testState (aTest 5 b)) 0) (aTest 5 b) = true ∧
    safeTest (getSite (testState (aTest 5 b)) 0) (aTest 5 b) = true ∧ (aTest 5 b).commits = (getSite (testState (aTest 5 b)) 0).core.tum.commits ∧
    (groupOf (getSite (testState (aTest 5 b)) 0).core 0).isSome = true ∧ Claims.reaches (testState (aTest 5 b)) 0 0 0 8) ∧
    (∀ b ∈ [true, false], ¬(fitsTest (getSite (testState (aTest 0 b)) 0) (aTest 0 b) = true ∧ safeTest (getSite (testState (aTest 0 b)) 0) (aTest 0 b) = true) ∧
      Claims.reaches (testState (aTest 0 b)) 0 0 0 8 ∧ (∀ r ∈ (getSite (testState (aTest 0 b)) 0).core.tum.waiters, r.order ≠ 0)) := by
  unfold Claims.reaches
  decide +kernel
theorem met_TumblerTests_unsafe : fitsTest (getSite (testState (aTest 1 false)) 0) { aTest 1 false with vecs := [(0, { c := 2 }, { c := 9 })] } = true ∧
    safeTest (getSite (testState (aTest 1 false)) 0) { aTest 1 false with vecs := [(0, { c := 2 }, { c := 9 })] } = false := by decide +kernel
/-- The same for a bank, a page and a slot of the tensor engine. -/
def anyTest (c : Nat) : TTest := { aTest 5 true with req := .acq 0 0 c 1 true 8 0 0, vecs := [(0, { c := 2 }, { b := 2, l := 2, t := 2, c := 2 })] }
theorem met_TumblerTests_classes : ∀ c ∈ [0, 1, 2], fitsTest (getSite (testState (anyTest c)) 0) (anyTest c) = true ∧ safeTest (getSite (testState (anyTest c)) 0) (anyTest c) = true ∧
    stale (getSite (testState (anyTest c)) 0) (anyTest c) = false ∧ stale (getSite (testState { anyTest c with commits := 9 }) 0) { anyTest c with commits := 9 } = true ∧
    1 ≤ (freeNumbers (getSite (testState (anyTest c)) 0).core 0).length ∧ 1 ≤ (freeBanks (getSite (testState (anyTest c)) 0).core).length ∧
    strandBanks (getSite (testState (anyTest c)) 0).core 0 = [] ∧ 1 ≤ (freePool (getSite (testState (anyTest c)) 0)).length ∧
    pageFree (getSite (testState (anyTest c)) 0).core 0 = true := by decide +kernel
/-- A test on a right snapshot. -/
def rightTest (c : Nat) : TTest :=
  let x := getSite (testState (anyTest c)) 0
  { anyTest c with vecs := groupVectors x, avail := unheld x }
def claimState (c : Nat) : State := modSite (testState (rightTest c)) 0 fun x => x
theorem met_GrantsStaySafe : (rightTest 3).vecs = groupVectors (getSite (claimState 3) 0) ∧ (rightTest 3).avail = unheld (getSite (claimState 3) 0) ∧
    (getSite (claimState 3) 0).core.tum.tests[0]? = some (rightTest 3) ∧ fitsTest (getSite (claimState 3) 0) (rightTest 3) = true ∧
    safeTest (getSite (claimState 3) 0) (rightTest 3) = true ∧ stale (getSite (claimState 3) 0) (rightTest 3) = false ∧
    (strandOf (getSite (claimState 3) 0).core 0).saved = none := by decide +kernel
def reevalState : State := coreState (fun c => { c with tum := { c.tum with reeval := true, waiters := [.acq 0 0 3 1 true 8 0 4] } }) [0]
theorem met_TumblerReevaluation : (getSite reevalState 0).core.tum.reeval = true ∧ passing (getSite reevalState 0).core.tum = false := by decide +kernel
def aHead : QEntry := { entry := { pc := 0x6000, nstr := 1, prio := 2, grant := { c := 1 }, claim := { c := 2 } }, wid := 9 }
def admitState (t : Tumbler) (arg : List Nat) : State := coreState (fun c => { c with invq := [(2, [aHead])], tum := t }) arg
theorem met_AdmissionEvaluation : evaluationDue (getSite (admitState { evaluate := true } [0]) 0).core = true ∧ oldestPreempted (getSite (admitState { evaluate := true } [0]) 0).core = none ∧
    headClass (getSite (admitState { evaluate := true } [0]) 0).core = some 2 ∧ headOf (getSite (admitState { evaluate := true } [0]) 0).core 2 = some aHead ∧
    aHead.entry.nstr + 1 ≤ (freeSlots (getSite (admitState { evaluate := true } [0]) 0).core).length ∧ groupOf (getSite (admitState { evaluate := true } [0]) 0).core 1 = none := by
  decide +kernel
def headTest : TTest := { req := .queueHead 2 0, vecs := [(0, {}, {})], avail := { b := 48, l := 300, t := 8, c := 48 }, run := true, commits := 0, maps := 0, events := 0, ready := 0 }
def admitTest : State := admitState { tests := [headTest] } [0, 0]
theorem met_Admission : (getSite admitTest 0).core.tum.tests[0]? = some headTest ∧ headOf (getSite admitTest 0).core 2 = some aHead ∧ fitsTest (getSite admitTest 0) headTest = true ∧
    safeTest (getSite admitTest 0) headTest = true ∧ stale (getSite admitTest 0) headTest = false ∧ aHead.entry.nstr + 1 ≤ (freeSlots (getSite admitTest 0).core).length ∧
    groupOf (getSite admitTest 0).core 1 = none ∧ ∀ h, h < 1 → groupOf (getSite admitTest 0).core h ≠ none := by decide +kernel
def releaseState (q : List TOp) : State :=
  coreState (fun c => { c with tensor := { c.tensor with queue := q }, tum := { c.tum with releases := [.slot 0 3] , zeroing := [{ pages := [40, 41], lines := [1280, 1281], forGrp := some 0 }] } }) [0, 0]
theorem met_ReleasesTakeEffect : (getSite (releaseState []) 0).core.tum.releases[0]? = some (.slot 0 3) ∧ tslotBusy (getSite (releaseState []) 0).core 3 = false ∧
    tslotBusy (getSite (releaseState [anOp]) 0).core 3 = true ∧ (groupOf (getSite (releaseState []) 0).core 0).isSome = true ∧
    (getSite (releaseState []) 0).core.tum.zeroing[0]? = some { pages := [40, 41], lines := [1280, 1281], forGrp := some 0 } ∧
    (getSite (releaseState []) 0).core.frameLines = [] := by decide +kernel
/-- A release of a channel that no copy occupies, and the last line of a page granted to a strand that waits for it. -/
def chanRelease : State :=
  coreState (fun c => modStrand { modGroup c 0 (fun g => { g with chans := 2 }) with
      tum := { c.tum with releases := [.chan 0 1], zeroing := [{ pages := [40], lines := [1280], forKey := some 0 }] } } 0 fun st => { st with wait := .zeroing 8 0x6000 }) [0, 0, 0]
theorem met_ReleasesTakeEffect_last : (getSite chanRelease 0).core.tum.releases[0]? = some (.chan 0 1) ∧ Claims.reaches chanRelease 0 0 0 8 ∧
    (getSite chanRelease 0).core.tum.zeroing = [{ pages := [40], lines := [1280], forKey := some 0 }] ∧ (strandOf (getSite chanRelease 0).core 0).wait = .zeroing 8 0x6000 := by
  unfold Claims.reaches
  decide +kernel
theorem test_exit : (slotOf (getSite (after .exit resState) 0).core 0).st = .free := by decide +kernel
theorem test_qres : leaves (.qres 3 1) resState 3 = some 0x0002000100010000 := by decide +kernel

/-! ### Packets, messages and counters -/

/-- A strand with a descriptor of a DATA packet in g8, of an INVOKE of handler 1 in g9, a null name in g10 and a long packet in g11. -/
def sendState (f : Core → Core) : State :=
  strandWith [(8, 5), (9, wordN (5 + 2 ^ 20)), (10, 0x3FFFF), (11, wordN (5 + 2 ^ 36 * 3)), (12, wordN (5 + 2 ^ 36 * 2))] f
def sendAll (a : Nat) : List Instr :=
  [.send a, .sendt 3 a, .invoke a 4, .invoket 3 a 4, .invokep a 4, .invokei a 4 1 0 0 7 0 0, .invokeiT 3 a 4 1 2 3 0 0 27, .invokeiP a 4 1023 1 0 0 1 0]
/-- An injection buffer with no place left. -/
def fullBuffer (c : Core) : Core := { c with inj0 := (List.range 128).map fun k => { id := k, pkt := {} } }
theorem stands_send : agentStands (sendState id) := stands_of rfl (by unfold standing; decide +kernel)
theorem met_PacketsSent : ∀ i ∈ sendAll 8, i.WellFormed ∧ guardTrap i (sendState id) = none ∧ guardTrap i (sendState fullBuffer) = none ∧
    ((sends (sendState id) i).any fun x => badSending x.p 2 x.shape == none && decide (1 + x.p.len ≤ 3) &&
      decide (freePlaces (curSite (sendState fullBuffer)).core < 1 + x.p.len)) = true := by decide +kernel
theorem met_PacketsSent_parity : buildsGood (sendState id) 10 ∧ firstBadBuild (modCurCtx (sendState id) fun x => { x with parity := [(3, 4)] }) 10 4 := by
  unfold buildsGood firstBadBuild
  decide +kernel
theorem met_PacketsSent_room : ∀ n ∈ [1, 2, 3], roomFor (sendState id) n ∧ ¬roomFor (sendState fullBuffer) n := by
  unfold roomFor
  decide +kernel
theorem met_PacketsSent_bad : ((sends (sendState id) (.send 10)).map fun x => badSending x.p 2 x.shape) = some (some 1) ∧
    ((sends (sendState id) (.send 11)).map fun x => badSending x.p 2 x.shape) = some (some 2) ∧
    ((sends (sendState id) (.invokei 8 4 1 0 0 0 1 0)).map fun x => badSending x.p 2 x.shape) = some (some 4) := by decide +kernel

/-- A strand with a message-queue entry of a copy in slot 0 of the mailbox, that it may hold or not. -/
def mailState (q : List MqEntry) (held : Option Nat) : State :=
  strandWith [(8, wordN (5 + 2 ^ 36 * 1)), (9, 0x5000), (10, 1), (11, 0x5020)] fun c =>
    let c := page5 c
    { modStrand c 0 (fun y => { y with heldCopy := held }) with mq := q, copies := [(0, { start := 0, n := 1 }), (1, { start := 1, n := 1 })], mboxPages := [2] }
theorem met_SendL : guardTrap (.sendl 8 9 1) (mailState [] none) = none ∧ badSending { described (mailState [] none) (readG (mailState [] none) 8).toNat kDATA with stream := 1 }
      (msgMax (curSite (mailState [] none))) false = none ∧ checkHere (mailState [] none) 0x5000 32 32 true false = none ∧ roomFor (mailState [] none) 2 := by
  unfold roomFor
  decide +kernel
theorem met_MessagesTaken : (∀ i ∈ [Instr.recv 3 10, .recvt 3 10, .waitmsg 10], guardTrap i (mailState [{ copy := 0, kind := 0 }] none) = none) ∧
    eligibleFor (curSite (mailState [{ copy := 0, kind := 0 }] none)).core 0 (1 % 8) { copy := 0, kind := 0 } = true ∧
    (∀ e ∈ (curSite (mailState [{ copy := 0, kind := 1 }] none)).core.mq, ¬eligibleFor (curSite (mailState [{ copy := 0, kind := 1 }] none)).core 0 (1 % 8) e = true) ∧
    (strandOf (curSite (mailState [] (some 1))).core 0).heldCopy ≠ some 0 := by decide +kernel
theorem met_Reply : guardTrap (.reply 9 10) (mailState [] none) = none ∧ replyCopy (mailState [] none) (readG (mailState [] none) 9) = none := by decide +kernel
/-- The strand holds copy 0, whose address it has in g9. -/
def heldState : State :=
  let s := mailState [] (some 0)
  modCurCtx s fun x => { x with g := tset x.g 9 (copyAddr (curSite s) 0) }
theorem met_Reply_held : guardTrap (.reply 9 10) heldState = none ∧ replyCopy heldState (readG heldState 9) = some 0 ∧ roomFor heldState 2 := by
  unfold roomFor
  decide +kernel

/-- Counters, and a handler entry 1 in page 0. -/
def cntState (k : Tab Counter) : State :=
  strandWith [(8, wordN (1 + 2 ^ 16 * 4)), (9, 0x5000), (10, 2), (11, wordN (2 ^ 16 * 1 + 2 ^ 32))] fun c =>
    let c := page5 c
    { c with counters := k, pmap := tset c.pmap 0 (wordN (2 + 2 ^ 19)), mem := mwrite c.mem 0x2020 32 (2 ^ 27 + 0x6000) }
theorem met_DependencyCounters : (∀ i ∈ [Instr.dset 1 8 9, .dset 63 8 9, .ddec 1 10 3, .dwait 1], guardTrap i (cntState []) = none) ∧ counterOf (curSite (cntState [])).core 1 = none ∧
    (readG (cntState []) 8).toNat / 2 ^ 16 % 2 ^ 16 = 4 ∧ (readG (cntState []) 4).toNat / 2 ^ 16 % 2 ^ 16 = 0 ∧
    checkHere (cntState []) 0x5000 (8 * 1) 8 false true = none ∧ (readG (cntState []) 11).toNat.testBit 32 = true ∧
    counterOf (curSite (cntState [(1, { count := 3 })])).core 1 = some { count := 3 } ∧ (readG (cntState []) 10).toNat = 2 ∧
    (readEntry (curSite (cntState [])) 1).2.isSome = true ∧ placeFree (curSite (cntState [])).core 0 = true := by decide +kernel

/-- Site 0 with a packet arrived and its handler entry 1. -/
def workState (p : Packet) (f : Core → Core) : State :=
  coreState (fun c => f { c with arrivals := [p], pmap := tset c.pmap 0 (wordN (2 + 2 ^ 19)), mboxPages := [3],
                                 mem := mwrite c.mem 0x2020 32 (2 ^ 27 + 0x6000) }) [0]
def invokePacket : Packet := { kind := kINVOKE, handler := 1 }
theorem met_WorkArrives_invoke : handles (getSite (workState invokePacket id) 0) invokePacket ∧ ((readEntry (getSite (workState invokePacket id) 0) 1).2.any fun e =>
    (launchShape e invokePacket).isSome && decide (invokePacket.park = e.park) && senderOk (getSite (workState invokePacket id) 0) e.senders invokePacket &&
    placeFree (getSite (workState invokePacket id) 0).core e.prio) = true ∧ mailRoom (getSite (workState invokePacket id) 0).core 1 = true ∧
    (readEntry (getSite (workState invokePacket id) 0) 2).2 = none := by
  unfold handles
  decide +kernel
theorem met_WorkArrives_invalid : handles (getSite (workState { invokePacket with handler := 2 } id) 0) { invokePacket with handler := 2 } := by
  unfold handles
  decide +kernel
def launchPacket (k : Nat) : Packet := { kind := k, counter := 3 }
theorem met_CounterLaunch : ∀ k ∈ [kINVOKE, kDATA], handles (getSite (workState (launchPacket k) fun c => { c with counters := [(3, { count := 2 })] }) 0) (launchPacket k) ∧
    counterOf (getSite (workState (launchPacket k) fun c => { c with counters := [(3, { count := 2 })] }) 0).core 3 = some { count := 2 } := by
  unfold handles
  decide +kernel
theorem met_MessageArrival : handles (getSite (workState {} id) 0) {} ∧ (getSite (workState {} id) 0).core.mq.length < 56 ∧ mailRoom (getSite (workState {} id) 0).core 1 = true ∧
    (getSite (workState {} fun c => { c with mq := List.replicate 56 { copy := 0, kind := 0 } }) 0).core.mq.length = 56 ∧ isNull 0 = false := by
  unfold handles
  decide +kernel
theorem met_MessageArrival_recv : ∀ e ∈ (getSite (workState {} id) 0).core.strands, ∀ m d o, e.2.wait ≠ .recv m d o := by
  have h : (getSite (workState {} id) 0).core.strands = [] := by decide +kernel
  rw [h]
  exact fun _ he => absurd he (by simp)

/-- A packet in the injection buffer whose last flit is there. -/
def lastFlit (rep : Bool) : State :=
  { strandWith [] fun c => modStrand { c with inj0 := [{ id := 4, pkt := { seq := 9 }, key := some 0 }] } 0 fun y =>
      { y with wait := .localDone 4 (if rep then none else some (8, 0)) rep } with arg := [0, 0] }
theorem met_PacketLocalComplete : ∀ b ∈ [true, false], ((getSite (lastFlit b) 0).core.inj0[0]?.any fun j => !j.done && !j.reads && decide (j.ready ≤ (lastFlit b).time) &&
    j.key == some 0 && decide ((strandOf (getSite (lastFlit b) 0).core 0).wait = .localDone j.id (if b then none else some (8, 0)) b)) = true ∧
    Claims.reaches (lastFlit b) 0 0 0 8 := by
  unfold Claims.reaches
  decide +kernel
def answerPacket : Packet := { kind := kREPLY, vc := 1, seq := 1, ks := 1 }
def invokedState (k : OKind) : State := arrived answerPacket fun c => { c with outs := [{ seq := 1, kind := k, pkt := {} }] }
theorem met_AnswerArrival : ∀ k ∈ [OKind.invoke, .invoket 8], nextArrival (getSite (invokedState k) 0) = some answerPacket ∧ malformed (getSite (invokedState k) 0) answerPacket = false ∧
    takesAnswers (getSite (invokedState k) 0) = true ∧ ((findOut (getSite (invokedState k) 0).core 1).any fun o => !o.dead && o.kind == k) = true ∧
    Claims.reaches (invokedState k) 0 0 0 8 := by
  unfold Claims.reaches
  decide +kernel
def retryState : State := coreState (fun c => { c with outs := [{ seq := 1, kind := .invoke, pkt := {}, due := some 0 }] }) [0, 0]
theorem met_HardwareRetry : ((getSite retryState 0).core.outs[0]?.any fun o => o.due == some 0) = true ∧ evicted (getSite retryState 0) = false ∧
    (getSite retryState 0).core.allowQ = [] ∧ 1 ≤ freePlaces (getSite retryState 0).core := by decide +kernel
/-- A packet taken, with its flits still to be placed: an INVOKE, one of a counter, and a message. -/
def landing (i : Instr) (p : Packet) (f : Core → Core) : State := { after i (workState p f) with arg := [0, 0] }
def lastCount (n : Nat) (c : Core) : Core := { c with counters := [(3, { count := n, handler := 1 })] }
theorem met_WorkArrives_landing : ∀ e ∈ [(landing .invokeArrival invokePacket id, true), (landing .counterLaunch (launchPacket kDATA) (lastCount 1), true),
      (landing .counterLaunch (launchPacket kINVOKE) (lastCount 2), false), (landing .messageArrival {} id, false)],
    ((getSite e.1 0).core.landing.any fun l => l.left == [0] && l.copy.isSome && l.entry.isSome == e.2) = true ∧
    ((getSite e.1 0).core.landing.any fun l => match l.entry with
      | some e' => decide ((tget [] (getSite e.1 0).core.invq e'.prio).length < 64)
      | none => true) = true ∧ (getSite e.1 0).core.frameLines = [] ∧ (getSite e.1 0).core.strands = [] := by decide +kernel
theorem met_WorkArrives_flits : (getSite (landing .invokeArrival { invokePacket with len := 1, payload := [0] } (fun c => { c with mboxPages := [3] })) 0).core.landing.any (fun l => decide (1 < l.left.length)) = true := by
  decide +kernel
theorem test_invoke_accept : ((getSite (after .invokeArrival (landing .invokeArrival invokePacket id)) 0).core.inj1.map fun p => (p.kind, p.ks)) = [(kREPLY, 1)] := by decide +kernel
theorem test_ddec : leaves (.ddec 1 10 3) (cntState [(1, { count := 3 })]) 3 = some 0 := by decide +kernel

/-! ### Remote accesses and hasps -/

/-- A strand with global addresses: 0x5008 of name 5 in g8, a misaligned one in g9, a null home in g10; g11 is a list of two at 0x5100. -/
def remoteState (f : Core → Core) : State :=
  strandWith [(8, 0x500005008), (9, 0x500005009), (10, 0x3FFFF00000000), (11, 0x5100), (12, 2), (13, 65), (14, 0x100000000)] fun c =>
    let c := page5 c
    f { c with mem := mwrite (mwrite c.mem 0x1100 8 0x500005008) 0x1108 8 0x600005010 }
theorem stands_remote : agentStands (remoteState id) := stands_of rfl (by unfold standing; decide +kernel)
def remoteAll (a o : Nat) : List Instr :=
  [.rld 3 a 1 5 o 3, .rst 3 a 0 0 o 0, .radd 2 a 1 3 o 0, .rmin 2 a 1 3 o 0, .rmax 2 a 1 3 o 1, .rand 2 a 1 3 o 0, .ror 2 a 1 3 o 0, .rxor 2 a 1 3 o 0,
   .rswp 2 a 1 3 o 0, .rcas 2 a 1 3 o 1]
/-- A local access of the strand still to perform. -/
def anAccess (c : Core) : Core := { c with accesses := [{ id := 0, key := 0, stream := 0, rd := true, wr := false }] }
theorem met_RemoteAccesses : ∀ o ∈ [0, 1, 2, 3], ∀ i ∈ remoteAll 8 o, i.WellFormed ∧ guardTrap i (remoteState id) = none ∧ ((remoteForm (remoteState id) i).any fun f =>
    decide (f.home % 2 ^ 18 ≠ 0x3FFFF ∧ f.off % f.size = 0 ∧ (remoteWrites (curSite (remoteState id)).core 0).length < 16 ∧ 1 + f.x.p.len ≤ 2)) = true := by
  decide +kernel
theorem met_RemoteAccesses_first : firstTime (remoteState id) := by unfold firstTime; decide +kernel
def aFault : TrapVal := { cause := 0x0C, pc := 0, info := 3 }
/-- The strand keeps a deferred fault of a write to core 5. -/
def faulted (c : Core) : Core := modStrand c 0 fun st => { st with deferred := some aFault, deferredOf := [(0, 5, 0)] }
theorem met_RemoteAccesses_fault : releaseFault (curSite (remoteState faulted)) 0 (classOf 5) = some aFault ∧ fenceCovers (remoteState faulted) 1 4 aFault ∧
    guardTrap (.fence 1 4) (remoteState faulted) = none ∧ agentStands (remoteState faulted) :=
  ⟨by decide +kernel, by unfold fenceCovers; decide +kernel, by decide +kernel, stands_of rfl (by unfold standing; decide +kernel)⟩
theorem met_RemoteAccesses_release : ∀ c ∈ [0, 3, 5], releasePasses (remoteState id) c ∧ roomFor (remoteState id) 2 ∧
    releaseFault (curSite (remoteState anAccess)) 0 (classOf c) = none ∧ releaseOpen (curSite (remoteState anAccess)) 0 (classOf c) = true := by
  unfold releasePasses roomFor
  decide +kernel
theorem met_Nst : Instr.WellFormed (.nst 3 8 1 5 1 3) ∧ guardTrap (.nst 3 8 1 5 1 3) (remoteState id) = none ∧
    ((remoteForm (modSite (remoteState id) 0 fun x => { x with regs := [(0x079, 5)] }) (.nst 3 14 1 5 1 3)).map fun f => (f.home, f.off)) = some (5, 0) ∧
    ((remoteForm (modSite (remoteState id) 0 fun x => { x with regs := [(0x079, 5)] }) (.nst 3 8 1 5 1 3)).map fun f => (f.off % f.size)) = some 0 := by decide +kernel
theorem met_RemoteAccesses_traps : ((remoteForm (remoteState id) (.rld 3 10 1 5 0 3)).map fun f => f.home % 2 ^ 18) = some 0x3FFFF ∧
    ((remoteForm (remoteState id) (.rld 3 9 1 5 0 3)).map fun f => f.off % f.size) = some 1 := by decide +kernel
theorem met_MulticastStores : guardTrap (.mcst 3 3 11 12 1 5 0) (remoteState id) = none ∧ (readG (remoteState id) 12).toNat = 2 ∧ 64 < (readG (remoteState id) 13).toNat ∧
    (readG (remoteState id) 4).toNat = 0 ∧ checkHere (remoteState id) 0x5100 16 8 true false = none ∧ checkHere (remoteState id) 0x6000 16 8 true false = some (.access 1) ∧
    checkHere (remoteState id) 0x5101 16 8 true false = some .misaligned := by decide +kernel
/-- An instruction whose acquire half has delivered a deferred fault, one of its stores still outstanding or none. -/
def repeating (l : List Outst) : State := remoteState fun c => { modStrand c 0 (fun st => { st with acqAt := some 0x4000 }) with outs := l }
def ownStore : Outst := { seq := 7, kind := .rst, pkt := {}, key := 0, acq := true, pc := 0x4000 }
theorem met_MulticastStores_again : ∀ l ∈ [[], [ownStore]], agentStands (repeating l) ∧ (strandOf (curSite (repeating l)).core (curKey (repeating l))).acqAt = some (curPc (repeating l)) ∧
    (∀ i ∈ [Instr.rst 3 8 0 0 1 0, .nst 3 14 0 5 1 3, .mcst 3 3 11 12 1 5 1], guardTrap i (repeating l) = none) ∧ remoteWrites (curSite (repeating l)).core 0 = l := by
  intro l hl
  refine ⟨stands_of rfl ?_, ?_⟩
  · revert l
    unfold standing
    decide +kernel
  · revert l
    decide +kernel
/-- An MCST of two replicas whose list is being read, and one whose list v has been read. -/
def mcstSend : PendSend := { pkt := {}, out := some .rst, rep := true, pc := 0x4000 }
def listState (w : Wait) (rel v : Option Nat) (l : List Access) : State :=
  { remoteState fun c => { modSlot (modStrand c 0 fun st => { st with wait := w, pend := some (.mcst mcstSend 8 2 rel v) }) 0 (fun sl => { sl with st := .waiting }) with
      accesses := l } with arg := [0, 0, 0, 0] }
def listRead : Access := { id := 0, key := 0, stream := 0, rd := true, wr := false, units := [.read 0x5100 16 0], fin := .list }
theorem met_ListRead : mayGo (listState .list none none [listRead]) 0 0 listRead ∧ badIn (getSite (listState .list none none [listRead]) 0).core.bad 0x1100 16 = none ∧
    physVia (getSite (listState .list none none [listRead]) 0).core [] 0x5100 = 0x1100 ∧
    (strandOf (getSite (listState .list none none [listRead]) 0).core 0).pend = some (.mcst mcstSend 8 2 none none) := by
  refine ⟨⟨by decide +kernel, Nat.zero_le _, ?_⟩, by decide +kernel⟩
  intro y hy
  have h : (List.takeWhile (fun y : Access => y.id != 0) [listRead]) = [] := by decide
  have hy' : y ∈ List.takeWhile (fun y : Access => y.id != 0) [listRead] := hy
  rw [h] at hy'
  exact absurd hy' (by simp)
def goodList : Nat := 0x500005008 + 0x600005010 * 2 ^ 64
theorem met_MulticastStoresGoOn : (∀ w ∈ [Wait.list, .mcst [0x600005010] none], waitsIn (listState w none (some goodList) []) 0 0 0) ∧
    (∀ k < 2, nameIn (BitVec.ofNat 64 (goodList / 2 ^ (64 * k) % 2 ^ 64)) % 2 ^ 18 ≠ 0x3FFFF ∧ offsetIn (BitVec.ofNat 64 (goodList / 2 ^ (64 * k) % 2 ^ 64)) % 8 = 0) ∧
    nameIn (BitVec.ofNat 64 (0x3FFFF00000000 / 2 ^ (64 * 0) % 2 ^ 64)) % 2 ^ 18 = 0x3FFFF ∧ offsetIn (BitVec.ofNat 64 (0x500005009 / 2 ^ (64 * 0) % 2 ^ 64)) % 8 ≠ 0 ∧
    (remoteWrites (getSite (listState .list none (some goodList) []) 0).core 0).length < 16 ∧ 1 ≤ freePlaces (getSite (listState .list none (some goodList) []) 0).core ∧
    (getSite (listState .list none (some goodList) []) 0).core.allowQ = [] ∧ releaseFault (getSite (listState .list (some 5) (some goodList) []) 0) 0 5 = none ∧
    releaseOpen (getSite (listState .list (some 5) (some goodList) []) 0) 0 5 = false := by
  unfold waitsIn
  decide +kernel
theorem test_mcst : ((getSite (wakeUp (listState .list none (some goodList) []) 0 0) 0).core.inj0.map fun j => (j.pkt.dest, j.pkt.ks)) = [(5, 0x5008)] := by decide +kernel
/-- A request of 8 bytes at 0x5008. -/
def request (k : Nat) : Packet := { kind := k, ks := 0x5008, arg0 := 5, arg1 := 3 * 8 }
theorem met_RemoteHomes : (∀ k ∈ [kRLOAD, kRSTORE, kRATOMIC], handles (getSite (arrived (request k) id) 0) (request k)) ∧
    homeFault (getSite (arrived (request kRLOAD) id) 0) (request kRLOAD) 0x5008 false true false = none ∧ (request kRLOAD).arg1.getLsbD 5 = false ∧
    homeFault (getSite (arrived (request kRATOMIC) id) 0) (request kRATOMIC) 0x5008 false true true = none ∧
    homeFault (getSite (arrived (request kRSTORE) id) 0) (request kRSTORE) 0x5008 ((request kRSTORE).ks.testBit 21) false true = none ∧
    badIn (getSite (arrived (request kRLOAD) id) 0).core.bad 0x1008 8 = none ∧ 0x5008 % 8 = 0 ∧ (request kRATOMIC).ks.testBit 21 = false := by
  unfold handles
  decide +kernel
theorem met_RemoteHomes_refused : handles (getSite (arrived { request kRLOAD with ks := 0x6008 } id) 0) { request kRLOAD with ks := 0x6008 } ∧
    homeFault (getSite (arrived { request kRLOAD with ks := 0x6008 } id) 0) { request kRLOAD with ks := 0x6008 } 0x6008 false true false = some (8, 1) := by
  unfold handles
  decide +kernel
theorem met_RemoteHomes_bad : badIn (getSite (arrived (request kRLOAD) fun c => { c with bad := [0x1008] }) 0).core.bad 0x1008 8 ≠ none ∧
    inFirmwareEntries (getSite (arrived (request kRSTORE) id) 0) 0x5008 8 = false := by decide +kernel
/-- A store into the firmware's handler entries, whose page its home allows. -/
def firmStore : Packet := { request kRSTORE with ks := 0x7F00 }
theorem met_RemoteHomes_firm : let x := getSite (arrived firmStore fun c => { c with pmap := tset c.pmap 7 (wordN (2 + 2 ^ 13 + 2 ^ 14 + 2 ^ 17 + 2 ^ 19)) }) 0
    homeFault x firmStore 0x7F00 false false true = none ∧ inFirmwareEntries x 0x7F00 8 = true := by decide +kernel
/-- A copy-form load of 40 bytes, and its lines, the first of them still to be read. -/
def copyLoad : Packet := { kind := kRLOAD, arg0 := 0x5008, arg1 := 2 ^ 5 + 40 * 2 ^ 8 }
def loading (bad : List Nat) : State := { after .remoteRequestArrival (arrived copyLoad fun c => { c with bad := bad }) with arg := [0, 0] }
theorem met_RemoteHomes_lines : handles (getSite (arrived copyLoad id) 0) copyLoad ∧ homeFault (getSite (arrived copyLoad id) 0) copyLoad 0x5008 false true false = none ∧
    (getSite (loading []) 0).core.landing = some { pkt := copyLoad, left := [0, 1] } ∧ (listUnits 0x5008 40)[0]? = some (.read 0x5008 24 0) ∧
    badIn (getSite (loading []) 0).core.bad 0x1008 24 = none ∧ badIn (getSite (loading [0x1008]) 0).core.bad 0x1008 24 ≠ none := by
  unfold handles
  decide +kernel
def nackPacket (r : Nat) : Packet := { kind := kNACK, vc := 1, seq := 1, ks := r }
def remoteOut (k : OKind) (p : Packet) : State := arrived p fun c => { c with outs := [{ seq := 1, kind := k, pkt := {} }] }
theorem met_RemoteAnswers : (∀ p ∈ [(OKind.rld (some 8) 8, answerPacket), (.rst, nackPacket rRETRY), (.rst, nackPacket (rINVALID + 16))],
    nextArrival (getSite (remoteOut p.1 p.2) 0) = some p.2 ∧ malformed (getSite (remoteOut p.1 p.2) 0) p.2 = false ∧ takesAnswers (getSite (remoteOut p.1 p.2) 0) = true ∧
    ((findOut (getSite (remoteOut p.1 p.2) 0).core 1).any fun o => !o.dead && !o.acq && o.kind == p.1) = true ∧ Claims.reaches (remoteOut p.1 p.2) 0 0 0 8 ∧
    lives (getSite (remoteOut p.1 p.2) 0).core 0 = true) ∧ refusalOf (nackPacket rRETRY) = rRETRY ∧ refusalOf (nackPacket (rINVALID + 16)) ≠ rRETRY := by
  unfold Claims.reaches
  decide +kernel

/-- A strand that waits for the answers to two stores of an acquire half, and a load that is refused. -/
def acqState (l : List Outst) (p : Packet) : State :=
  arrived p fun c => { modSlot (modStrand c 0 fun st => { st with wait := .reply 6 7 }) 0 (fun sl => { sl with st := .waiting }) with outs := l }
theorem met_RemoteAnswers_acq : ∀ l ∈ [[{ ownStore with seq := 1 }], [{ ownStore with seq := 1 }, ownStore]], ∀ p ∈ [answerPacket, nackPacket (rINVALID + 16)],
    waitsIn (acqState l p) 0 0 0 ∧ nextArrival (getSite (acqState l p) 0) = some p ∧ malformed (getSite (acqState l p) 0) p = false ∧
    takesAnswers (getSite (acqState l p) 0) = true ∧ findOut (getSite (acqState l p) 0).core p.seq = some { ownStore with seq := 1 } ∧ lives (getSite (acqState l p) 0).core 0 = true ∧
    (∀ y ∈ (getSite (acqState l p) 0).core.outs, y.seq = 7 → isRemoteWrite y = true) ∧ (strandOf (getSite (acqState l p) 0).core 0).deferred = none := by
  unfold waitsIn
  decide +kernel
/-- A strand whose core has hasp 3 as given; g8 is a count and token 1, g9 the word of hasp 3 of name 5. -/
def haspState (h : Hasp) : State := strandWith [(8, 1), (9, 0x500000003), (10, wordN 65535), (11, 0)] fun c => { c with hasps := [(3, h)] }
def openHasp : Hasp := { st := 1, remote := true, phase := 1, expect := 2, left := 2 }
theorem met_HaspsLocal : (∀ i ∈ [Instr.hinit 3 8, .harrive 4 3 0 0, .harrive 4 3 1 5, .hexpect 3 8, .hexpect 3 10, .hwait 3 8, .htest 4 3 8], guardTrap i (haspState openHasp) = none) ∧
    (readG (haspState openHasp) 8).toNat % 2 ^ 16 = 1 ∧ (readG (haspState openHasp) 11).toNat % 2 ^ 16 = 0 ∧ releasePasses (haspState openHasp) 5 ∧
    (haspAt (haspState {}) 3).st = 0 ∧ (haspAt (haspState { st := 2 }) 3).st = 2 ∧ 65535 < (haspAt (haspState openHasp) 3).left + 65535 ∧
    complete openHasp 0 ∧ ¬complete openHasp 1 ∧ ¬complete { openHasp with phase := 0 } (2 ^ 31 - 1) ∧ complete { openHasp with phase := 0 } (2 ^ 31) := by
  unfold releasePasses complete
  decide +kernel
theorem met_noWaits : noWaits (curSite (haspState openHasp)).core 3 := by
  have h : (curSite (haspState openHasp)).core.strands = [] ∧ (curSite (haspState openHasp)).core.rwaits = [] := by decide +kernel
  unfold noWaits
  rw [h.1, h.2]
  exact ⟨fun _ he => absurd he (by simp), fun _ he => absurd he (by simp)⟩
theorem met_HaspsRemote : guardTrap (.harriveRemote 4 9 1 5) (haspState {}) = none ∧ guardTrap (.hwaitRemote 9 8) (haspState {}) = none ∧
    nameIn (readG (haspState {}) 9) % 2 ^ 18 ≠ 0x3FFFF ∧ roomFor (haspState {}) 1 := by
  unfold roomFor
  decide +kernel
def haspPacket (hop : Nat) : Packet := { kind := kRATOMIC, ks := 3 + hop * 32 + 2 ^ 21 }
theorem met_HaspRemoteRequest : ∀ hop ∈ [0, 1, 2], handles (getSite (arrived (haspPacket hop) fun c => { c with hasps := [(3, openHasp)] }) 0) (haspPacket hop) ∧
    (haspPacket hop).ks.testBit 21 = true ∧ (haspPacket hop).ks % 2 ^ 5 = 3 ∧ (haspPacket hop).ks / 2 ^ 5 % 4 = hop ∧ complete openHasp (haspPacket hop).arg0.toNat := by
  unfold handles complete
  decide +kernel
theorem test_rload : ((getSite (after .remoteRequestArrival (arrived (request kRLOAD) fun c => { c with mem := [(0x1009, 7)] })) 0).core.inj1.map fun p => p.arg0) = [0x700] := by
  decide +kernel
/-- The strand while its HARRIVE waits for the cycle that applies it. -/
def arriving (h : Hasp) (drop : Bool) : State := modSite (haspState h) 0 fun x =>
  { x with core := modSlot (modStrand x.core 0 fun st => { st with wait := .arriving 0 4 3 drop }) 0 fun sl => { sl with st := .waiting } }
theorem met_HarriveApplied : ∀ h ∈ [openHasp, { openHasp with left := 1 }, {}, { st := 2 }], waitsIn (arriving h true) 0 0 0 ∧ Claims.reaches (arriving h true) 0 0 0 4 ∧
    (strandOf (getSite (arriving h true) 0).core 0).wait = .arriving 0 4 3 true ∧ 0 ≤ (arriving h true).time ∧
    (getSite (arriving h true) 0).core.strands.map (fun e => e.1) = [0] := by
  unfold waitsIn Claims.reaches
  decide +kernel
theorem test_harrive : readG (wakeUp (arriving openHasp false) 0 0) 4 = 1 ∧ (haspAt (wakeUp (arriving openHasp false) 0 0) 3).left = 1 ∧
    curPc (wakeUp (arriving openHasp false) 0 0) = 0x4004 := by decide +kernel

/-! ### Reductions -/

/-- A strand on tree 2, of which its core is the root, with a descriptor of an FP32 reduction of 4 elements from 0x5000 to 0x5200 at 0x5100. -/
def redDesc : Nat := 0x5000 + 2 * 2 ^ 31 + 0x5200 * 2 ^ 64 + 4 * 2 ^ 85
def redState (v : Nat) (ops : List RedOp) (e : Nat) (word : Word) : State :=
  modSite (strandWith [(8, 0x5100), (9, wordN (2 + 1 * 8))] fun c => let c := page5 c
    { c with mem := mwrite c.mem 0x1100 16 v, redOps := ops, epochs := [(2, e)] }) 0 fun x => onRouter (fun r => { r with rtree := [(2, word)] }) x
theorem stands_red : agentStands (redState redDesc [] 0 0x100) := stands_of rfl (by unfold standing; decide +kernel)
def openOp (n : Nat) : RedOp := { tree := 2, count := n, elems := 4 }
theorem met_ReductionsIssued : (∀ i ∈ [Instr.fred 3 8 1, .fbcast 3 8 1], guardTrap i (redState redDesc [] 0 0x100) = none) ∧
    runFault (redState redDesc [] 0 0x100) 0x5100 16 16 1 false = none ∧ badRun (curSite (redState redDesc [] 0 0x100)).core 0x5100 16 = none ∧
    readRun (curSite (redState redDesc [] 0 0x100)).core 0x5100 16 = redDesc ∧ ¬badDescriptor redDesc false ∧ ¬badDescriptor redDesc true ∧ badDescriptor (redDesc + 2 ^ 37) false ∧
    treeParent (curSite (redState redDesc [] 0 0x100)) 2 = 0 ∧ treeLocal (curSite (redState redDesc [] 0 0x100)) 2 = true ∧ treeParent (curSite demo) 2 = 7 ∧
    (∀ b ∈ [true, false], redRuns (redOpOf redDesc 2 1 b (redState redDesc [] 0 0x100)) (redState redDesc [] 0 0x100) = none) ∧
    treeFree (curSite (redState redDesc [] 0 0x100)).core 2 = true ∧
    treeFree (curSite (redState redDesc [openOp 1, openOp 2, openOp 3, openOp 4] 4 0x100)).core 2 = false := by
  unfold badDescriptor
  decide +kernel
theorem met_Frwait : guardTrap (.frwait 3 9) (redState redDesc [openOp 1] 1 0x100) = none ∧ (readG (redState redDesc [openOp 1] 1 0x100) 9).toNat % 8 = 2 ∧
    (BitVec.ofNat 8 1 - BitVec.ofNat 8 ((readG (redState redDesc [openOp 1] 1 0x100) 9).toNat / 2 ^ 3)).toNat = 0 ∧ redEnded (openOp 1) = false ∧
    redEnded { openOp 1 with sentAll := true } = true ∧ tget 0 (curSite (redState redDesc [] 0 0x100)).core.epochs 2 = 0 ∧
    [openOp 1].find? (fun r => r.tree == 2 && r.count == 1 - 0) = some (openOp 1) := by decide +kernel
theorem met_foldsExactly : ({ e := 130, m := [1, -2] } : RBlock).m.length = ({ e := 130, m := [3, 4] } : RBlock).m.length ∧
    ∀ e ∈ [(1, 3), (-2, 4)], (-2 ^ 23 : Int) ≤ e.1 + e.2 ∧ (e.1 + e.2 : Int) < 2 ^ 23 := by decide
/-- Site 193, of a tree with its parent to the east and one child to the south. -/
def nodeSite (nd : TreeNode) (rt : Word) (q : List (Nat × Nat × Packet)) : State :=
  { modSite (modSite State.reset 193 fun x => { x with life := .live, regs := [(0x076, wordN (2 ^ 13 + 2 ^ 21 + 2 ^ 5))], core := page5 x.core }) 193
      (fun x => onRouter (fun r => { r with rtree := [(2, rt)], trees := [(2, nd)], inq := q }) x) with arg := [193, 0] }
def redPacket : Packet := { kind := kRED, vc := 3, ks := 2 }
def nodeWaits : TreeNode := { head := some (pktBlock redPacket), acc := some (pktBlock redPacket), pos := 1 }
theorem met_ReductionBlocks : inputAt (nodeSite nodeWaits 0x22 [(2, 0, redPacket)]) 193 0 = some (2, redPacket) ∧ redPacket.vc = 3 ∧ redPacket.prb = false ∧
    portPark (getSite (nodeSite nodeWaits 0x22 [(2, 0, redPacket)]) 193) 2 = redPacket.park ∧ 2 ∈ childPorts (getSite (nodeSite nodeWaits 0x22 []) 193) 2 ∧
    parentPort (getSite (nodeSite nodeWaits 0x22 []) 193) 2 = some 1 ∧ linkUp (getSite (nodeSite nodeWaits 0x22 []) 193) 1 = true ∧ nbr 193 1 = some 194 ∧
    (pktBlock redPacket).nblk ≤ 1 ∧ nodeWaits.blk = 0 ∧ nodeWaits.mism = [] ∧ nodeWaits.renorm = [] ∧
    (nodeInputs (getSite (nodeSite nodeWaits 0x22 []) 193) 2).filter (fun j => decide (1 ≤ j)) = [3] ∧ sameRed (pktBlock redPacket) (pktBlock redPacket) = true ∧
    redPacket.cargo.absent = 0 ∧ nodeWaits.mute = [] ∧ (getSite (nodeSite nodeWaits 0x22 []) 193).dead = false ∧ 0 ∉ childPorts (getSite (nodeSite nodeWaits 0x22 []) 193) 2 := by decide +kernel
theorem met_RedStray : inputAt (nodeSite nodeWaits 0x22 [(0, 0, redPacket)]) 193 0 = some (0, redPacket) := by decide +kernel
def renormPacket : Packet := { kind := kRENORM, vc := 3, ks := 2 + 5 * 2 ^ 13 }
theorem met_Renorm : inputAt (nodeSite {} 0x22 [(1, 0, renormPacket)]) 193 0 = some (1, renormPacket) ∧ parentPort (getSite (nodeSite {} 0x22 []) 193) 2 = some 1 ∧
    hasSent (nodeOf (getSite (nodeSite {} 0x22 []) 193) 2) 5 0 = false := by decide +kernel
def bcastPacket : Packet := { kind := kBCAST, vc := 3, ks := 2 + 2 ^ 21, len := 1, payload := [0x77], arg0 := 0x5000, arg1 := 0, cargo := { bytes := 32, last := true } }
theorem met_Bcast : inputAt (nodeSite {} 0x102 [(1, 0, bcastPacket)]) 193 0 = some (1, bcastPacket) ∧ bcastPacket.ks.testBit 21 = true ∧
    childPorts (getSite (nodeSite {} 0x102 []) 193) 2 = [] ∧ treeLocal (getSite (nodeSite {} 0x102 []) 193) 2 = true ∧ (getSite (nodeSite {} 0x102 []) 193).life = .live ∧
    evicted (getSite (nodeSite {} 0x102 []) 193) = false ∧ bcastPacket.arg0.toNat / 2 ^ 41 % 2 ^ 6 = 0 ∧ 0 < bcastPacket.cargo.bytes ∧ 0x5000 % 32 + bcastPacket.cargo.bytes ≤ 32 ∧
    inFirmwareEntries (getSite (nodeSite {} 0x102 []) 193) 0x5000 32 = false ∧ (getSite (nodeSite {} 0x102 []) 193).core.frameLines = [] ∧ (getSite (nodeSite {} 0x102 []) 193).dead = false ∧
    eValid (pmapAt (getSite (nodeSite {} 0x102 []) 193).core 5) = true ∧ eW (pmapAt (getSite (nodeSite {} 0x102 []) 193).core 5) = true := by decide +kernel
def aBcast : RedOp := { tree := 2, count := 1, bcast := true, src := 0x5000, dst := 0x5200, elems := 16, receives := false }
def bcastRoot : State := { modSite (nodeSite {} 0x110 []) 193 fun x => { x with core := { x.core with redOps := [aBcast] } } with arg := [193, 2] }
theorem met_LocalContribution : nextContribution (getSite bcastRoot 193) 2 = some aBcast ∧ childPorts (getSite bcastRoot 193) 2 = [1] ∧ linkUp (getSite bcastRoot 193) 1 = true ∧
    16 ≤ 32 * msgMax (getSite bcastRoot 193) ∧ ∀ e ∈ linePieces 0x5000 16, eValid (pmapAt (getSite bcastRoot 193).core (e.1 / 4096)) = true ∧
      badLocal (getSite bcastRoot 193).core e.1 e.2 = none := by decide +kernel
theorem met_Bcast_counter : let p := { bcastPacket with arg0 := 0x5000 + 3 * 2 ^ 41 }
    p.cargo.last = true ∧ p.arg0.toNat / 2 ^ 41 % 2 ^ 6 = 3 ∧ p.arg0.toNat % 2 ^ 21 = 0x5000 ∧ ({ count := 2 } : Counter).handler = 0 ∧ 1 < ({ count := 2 } : Counter).count := by decide +kernel
/-- A leaf of the tree whose core contributes four FP32 elements. -/
def aRed : RedOp := { tree := 2, count := 1, src := 0x5000, dst := 0x5200, elems := 4, receives := false }
def redLeaf : State := { modSite (nodeSite {} 0x102 []) 193 fun x => { x with core := { x.core with redOps := [aRed] } } with arg := [193, 2] }
theorem met_LocalContribution_block : nextContribution (getSite redLeaf 193) 2 = some aRed ∧ nodeInputs (getSite redLeaf 193) 2 = [0] ∧ parentPort (getSite redLeaf 193) 2 = some 1 ∧
    linkUp (getSite redLeaf 193) 1 = true ∧ nbr 193 1 = some 194 ∧ nodeOf (getSite redLeaf 193) 2 = {} ∧ (getSite redLeaf 193).core.strands = [] ∧
    ∀ e ∈ linePieces 0x5000 (runBytes 0 4), eValid (pmapAt (getSite redLeaf 193).core (e.1 / 4096)) = true ∧ badLocal (getSite redLeaf 193).core e.1 e.2 = none := by decide +kernel
theorem test_bcast : storeByte (after .bcastArrival (nodeSite {} 0x102 [(1, 0, bcastPacket)])) 193 0x1000 = 0x77 := by decide +kernel

/-! ### Routers -/

/-- Site 193 with its links to the north, east and south up, the name 5, and parts of its core and router. -/
def mesh (f : Core → Core) (g : Router → Router) (arg : List Nat) : State :=
  { modSite State.reset 193 fun x => { x with life := .live, regs := [(0x041, 5), (0x072, wordN (64 + 2 ^ 16)), (0x073, wordN (2 ^ 40 + 2 ^ 42)), (0x076, wordN (2 ^ 5 + 2 ^ 13 + 2 ^ 21))],
                                              core := f x.core, router := g x.router } with arg := arg }
theorem met_meshLink : ∀ e ∈ [(0, 1), (1, 194), (2, 385)], meshLink (mesh id id []) 193 e.1 e.2 := by
  unfold meshLink
  decide +kernel
def reqJ (n : Nat) : Inj := { id := 0, pkt := { dest := n }, done := true }
def resolves (n : Nat) : State :=
  mesh (fun c => { c with inj0 := [reqJ n] }) (fun r => { r with nt := [(8 * setOf 7, wordN (7 + 3 * 2 ^ 20 + 1 * 2 ^ 28 + 2 ^ 36 + 2 ^ 42))] }) [193, 0]
theorem met_PacketResolve : (∀ n ∈ [5, 7], (getSite (resolves n) 193).core.inj0 = [reqJ n] ∧ (getSite (resolves n) 193).core.evict.st = .run ∧ isNull n = false ∧
    isAnswer (reqJ n).pkt.kind = false ∧ (reqJ n).pkt.kind ≠ kFLOOD ∧ waferOf (reqJ n).pkt = siteW 193 ∧ (tget {} (getSite (resolves n) 193).router.paths 16).probe = none ∧
    (tget {} (getSite (resolves n) 193).router.paths 16).entries = []) ∧ ownsCore (getSite (resolves 5) 193) 5 = true ∧ portPark (getSite (resolves 5) 193) 4 = (reqJ 5).pkt.park ∧
    owns (resolves 7) 193 7 = false ∧ ((ntLookup (getSite (resolves 7) 193) 7).map fun e => e.2) = some (195, 1) := by decide +kernel
theorem met_recordFree : recordFree (resolves 5) 193 16 5 := by
  unfold recordFree
  refine ⟨by decide +kernel, ?_, by decide +kernel⟩
  have h : (tget {} (getSite (resolves 5) 193).router.paths 16).entries = [] := by decide +kernel
  rw [h]
  exact fun _ he => absurd he (by simp)
def ansPacket : Packet := { dest := 9, kind := kREPLY, vc := 1, ansTo := some 195 }
def answers : State := mesh (fun c => { c with inj1 := [ansPacket] }) id [193, 1]
theorem met_PacketResolve_answer : (getSite answers 193).core.inj1 = [ansPacket] ∧ isNull ansPacket.dest = false ∧ isAnswer ansPacket.kind = true ∧ ansPacket.prb = false ∧
    ansPacket.ansTo = some 195 ∧ siteW 195 = siteW 193 ∧ ansPacket.hop1 = none ∧ routeTo (getSite answers 193) 195 = some 1 := by decide +kernel
/-- A packet at the input from the south. -/
def input (p : Packet) : State := mesh id (fun r => { r with inq := [(2, 0, p)] }) [193, 0]
theorem met_comesIn (p : Packet) (h : p = { dest := 5, tgt := some 193 } ∨ p = { dest := 7, tgt := some 195 } ∨ p = { dest := 7, fld := true } ∨ p = { kind := kFLOOD, vc := 3, tgt := some 193 } ∨
    p = { prb := true, tgt := some 193, origin := 195 } ∨ p = { prb := true, kind := kREPLY, vc := 1, tgt := some 193, arg0 := 3, arg1 := 16 }) : comesIn (input p) 193 0 2 p := by
  unfold comesIn
  obtain rfl | rfl | rfl | rfl | rfl | rfl := h <;> decide +kernel
theorem met_PacketHop : special 193 { dest := 5, tgt := some 193 } = false ∧ special 193 { dest := 7, tgt := some 195 } = false ∧
    routeTo (getSite (input { dest := 7, tgt := some 195 }) 193) 195 = some 1 ∧ waferOf { dest := 5, tgt := some 193 } = siteW 193 ∧
    ownsCore (getSite (input { dest := 5, tgt := some 193 }) 193) 5 = true ∧ portPark (getSite (input { dest := 5, tgt := some 193 }) 193) 4 = 0 := by decide +kernel
/-- A member of the flood tree whose parent is to the north and whose child is to the east. -/
theorem met_FloodsAndProbes : owns (input { dest := 7, fld := true }) 193 7 = false ∧ floodPorts (getSite (input { dest := 7, fld := true }) 193) = some (some 0, [1]) ∧
    waferOf { kind := kFLOOD, vc := 3, tgt := some 193 } = siteW 193 ∧ siteW 195 = siteW 193 ∧ routeTo (getSite (input { prb := true, tgt := some 193, origin := 195 }) 193) 195 = some 1 := by
  decide +kernel
theorem met_FloodCopy : comesIn (mesh id (fun r => { r with inq := [(0, 0, { dest := 7, fld := true })] }) [193, 0]) 193 0 0 { dest := 7, fld := true } := by
  unfold comesIn
  decide +kernel
def probed : State :=
  mesh id (fun r => { r with inq := [(2, 0, { prb := true, kind := kREPLY, vc := 1, tgt := some 193, arg0 := 3, arg1 := 16 })]
                             paths := [(16, { probe := some (4, 3), held := [{ dest := 7, tgt := some 195, hop1 := some 1 }] })] }) [193, 0]
theorem met_ProbeAnswer : comesIn probed 193 0 2 { prb := true, kind := kREPLY, vc := 1, tgt := some 193, arg0 := 3, arg1 := 16 } ∧
    (tget {} (getSite probed 193).router.paths 16).probe = some (4, 3) ∧
    (tget {} (getSite probed 193).router.paths 16).held = [{ dest := 7, tgt := some 195, hop1 := some 1 }] := by
  unfold comesIn
  decide +kernel
theorem met_NameTableTick : regF (getSite (resolves 7) 193) 0x072 15 0 ≠ 0 ∧ regF (getSite (siteState (fun x => { x with regs := [(0x072, 0)] }) []) 0) 0x072 15 0 = 0 ∧
    (getSite (resolves 7) 193).router.nt.length = 1 ∧ (∀ e ∈ (getSite (resolves 7) 193).router.nt, e.2.getLsbD 42 = true ∧ e.2.getLsbD 41 = false ∧ e.2.toNat / 2 ^ 38 % 8 < 7) := by
  decide +kernel
theorem met_NameTableTick_due : (getSite (mesh id (fun r => { r with ticked := true, nt := [(3, wordN (7 * 2 ^ 38 + 2 ^ 42))] }) [193]) 193).router.ticked = true ∧
    tget? (getSite (mesh id (fun r => { r with ticked := true }) [193]) 193).router.ntRank 3 = none := by decide +kernel
/-- A packet whose last flit had not come over the link from site 193 when it failed. -/
def lostPacket : Packet := { dest := 9, src := 4, seq := 3, origin := 385, tgt := some 195, trail := [(193, 1, 5)] }
def losing : State := modSite (modSite (mesh id id [193, 1]) 194 fun x => onRouter (fun r => { r with inq := [(3, 5, lostPacket)] }) x) 385 fun x => { x with life := .live }
theorem met_LinkDown_lost : (getSite losing 194).router.inq = [(3, 5, lostPacket)] ∧ stillCrosses losing 193 1 lostPacket ∧ (losing.sites.map Prod.fst).Nodup ∧
    (getSite losing 193).router.inq = [] ∧ lostPacket.prb = false ∧ isAnswer lostPacket.kind = false ∧ isTree lostPacket.kind = false ∧ lostPacket.kind ≠ kFLOOD ∧ siteW 385 = siteW 193 ∧
    routeTo (endDown 1 (getSite losing 193)) 385 = some 2 ∧ nbr 193 2 = some 385 ∧ (getSite losing 193).router.ntRank ++ (getSite losing 194).router.ntRank = [] := by
  unfold stillCrosses
  decide +kernel
theorem met_ProbeClear : (getSite (resolves 7) 193).router.paths = [] := by decide +kernel
theorem met_LinkDown : nbr 193 1 = some 194 ∧ linkUp (getSite (mesh id id [193, 1]) 193) 1 = true ∧
    (getSite (mesh id id [193, 1]) 193).router.inq ++ (getSite (mesh id id [193, 1]) 194).router.inq = [] := by decide +kernel
def farBridge : Nat := 192 * beyond (48 / 192) (48 % 192 / 48) + 48 * opp (48 % 192 / 48) + 48 % 48
def bridged (u : Bridge) : State := { State.reset with bridges := [(48, u), (farBridge, { present := true })], arg := [48, 0] }
theorem met_BridgeForward : ∀ b ∈ [true, false], (tget {} (bridged { present := b, out := [{ dest := 2 ^ 18 }] }).bridges 48).out = [{ dest := 2 ^ 18 }] ∧ farBridge ≠ 48 ∧
    (tget {} (bridged { present := b }).bridges 48).present = b ∧ (tget {} (bridged { present := b }).bridges farBridge).present = true := by decide +kernel
theorem met_BridgeReinject : (tget {} (bridged { inn := [(0, redPacket)] }).bridges 48).inn = [(0, redPacket)] ∧ isTree redPacket.kind = true ∧ kCOPYACK ≠ kCOPYDATA ∧
    (BitVec.ofNat 64 (3 * 2 ^ 17)).toNat / 2 ^ 17 % 4 = 3 := by decide +kernel
theorem test_hop : ((getSite (after .packetHop (input { dest := 7, tgt := some 195 })) 194).router.inq.map fun e => (e.1, e.2.1)) = [(3, 1)] := by decide +kernel

/-! ### Ports -/

/-- Port 0, whose tables lead address 0 of park 0 to a page of level 2, with a request from site 195 and its rim site's link up. -/
def portState (u : Port) (arg : List Nat) : State :=
  { modSite State.reset (portSite 0) (fun x => { x with regs := [(0x076, wordN (2 ^ 13 + 2 ^ 21))] }) with
    ports := [(0, { u with present := true, mem := mwrite (mwrite u.mem 0x1000 8 (1 + 2 * 4096)) 0x2000 8 15 })], arg := arg }
def loadReq : Packet := { src := 5, kind := kRLOAD, arg0 := 8, arg1 := wordN (2 ^ 5 + 8 * 2 ^ 8), origin := 195 }
def storeReq : Packet := { src := 5, kind := kCOPYDATA, len := 1, payload := [0x66], arg0 := 8, origin := 195, cargo := { bytes := 8 } }
def walks (q : Packet) : State := portState { roots := [(0, 1 + 4096)], arrivals := [q] } [0, 0]
theorem met_PortRequests : (∀ q ∈ [loadReq, storeReq], (getPort (walks q) 0).arrivals = [q] ∧ q.mgmt ≠ .portOp ∧ portTakes q = true ∧ (getPort (walks q) 0).reqs.length < 4096) ∧
    portTakes { loadReq with arg1 := 0 } = false ∧ (tget 0 (getPort (portState { arrivals := [loadReq] } [0, 0]) 0).roots 0).getLsbD 0 = false := by decide +kernel
theorem met_leadsTo : leadsTo (getPort (walks loadReq) 0) 0 8 2 0 true true := by
  refine ⟨fun k => if k = 3 then 1 else 2, by decide +kernel, by decide +kernel, by decide, ?_⟩
  intro k h1 h2
  obtain rfl | rfl : k = 2 ∨ k = 3 := by omega
  all_goals decide +kernel
theorem met_portAnswers : portPark (getSite (walks loadReq) (portSite 0)) 5 = loadReq.park ∧ isNull loadReq.src = false ∧ siteW 195 = siteW (portSite 0) ∧ 195 ≠ portSite 0 ∧
    routeTo (getSite (walks loadReq) (portSite 0)) 195 = some 1 ∧ linkUp (getSite (walks loadReq) (portSite 0)) 1 = true ∧ (nbr (portSite 0) 1).isSome = true ∧
    nbr (portSite 0) 1 ≠ some (portSite 0) := by decide +kernel
def fullPort : State := portState { arrivals := [loadReq], reqs := List.replicate 4096 { pkt := loadReq, phys := 0 } } [0, 0]
theorem met_PortRequests_full : 4096 ≤ (getPort fullPort 0).reqs.length := by
  exact Nat.le_of_eq (List.length_replicate (n := 4096) (a := ({ pkt := loadReq, phys := 0 } : PortReq))).symm
theorem met_PortRequests_kept : let s := portState { roots := [(0, 1 + 4096)], arrivals := [loadReq], cache := [{ park := 0, level := 0, vpn := 0, ppn := 15, r := true, w := false }] } [0, 1]
    (getPort s 0).arrivals = [loadReq] ∧ portTakes loadReq = true ∧ (getPort s 0).reqs.length < 4096 ∧
      (getPort s 0).cache[0]? = some { park := 0, level := 0, vpn := 0, ppn := 15, r := true, w := false } ∧ 0 = loadReq.arg0.toNat % 2 ^ 52 / 2 ^ 12 := by decide +kernel
/-- Two requests in flight, the later with some words left. -/
def secondReq (q : Packet) (l : List Nat) : PortReq := { pkt := q, phys := 0x3008, left := l }
def inFlight2 (q : Packet) (l : List Nat) (bad : List Nat) : State := portState { reqs := [{ pkt := loadReq, phys := 0x3000, left := [0] }, secondReq q l], bad := bad } [0, 1, 0]
def loadReq2 : Packet := { loadReq with arg1 := wordN (2 ^ 5 + 16 * 2 ^ 8) }
theorem met_PortAccesses : ∀ e ∈ [(loadReq, [0]), (storeReq, [0]), (loadReq2, [1, 0])], (getPort (inFlight2 e.1 e.2 []) 0).reqs[1]? = some (secondReq e.1 e.2) ∧
    apart (secondReq e.1 e.2) { pkt := loadReq, phys := 0x3000, left := [0] } ∧ (∃ w, (secondReq e.1 e.2).left[0]? = some w ∧ wordPart (secondReq e.1 e.2) w (0x3008 + 8 * w) (0x3010 + 8 * w)) ∧
    badIn (getPort (inFlight2 e.1 e.2 []) 0).bad 0x3008 8 = none ∧ badIn (getPort (inFlight2 e.1 e.2 [0x3008]) 0).bad 0x3008 8 ≠ none := by
  intro e he
  simp only [List.mem_cons, List.not_mem_nil, or_false] at he
  unfold apart wordPart
  rcases he with rfl | rfl | rfl
  · exact ⟨by decide +kernel, by decide +kernel, ⟨0, by decide +kernel, by decide +kernel⟩, by decide +kernel, by decide +kernel⟩
  · exact ⟨by decide +kernel, by decide +kernel, ⟨0, by decide +kernel, by decide +kernel⟩, by decide +kernel, by decide +kernel⟩
  · exact ⟨by decide +kernel, by decide +kernel, ⟨1, by decide +kernel, by decide +kernel⟩, by decide +kernel, by decide +kernel⟩
def rootOp (n op : Nat) : Packet := { mgmt := .portOp, vc := 2, arg0 := wordN (n + op * 2 ^ 12), arg1 := 1, origin := 195 }
def opState (q : Packet) (inv : List (Nat × Packet)) (r : List PortReq) (arg : List Nat) : State := portState { arrivals := [q], invals := inv, reqs := r } arg
theorem met_PortRootWrite : ∀ op ∈ [1, 2, 3], (getPort (opState (rootOp 0x731 op) [] [] [0]) 0).arrivals = [rootOp 0x731 op] ∧ (rootOp 0x731 op).mgmt = .portOp ∧
    (rootOp 0x731 op).arg0.toNat % 2 ^ 12 = 0x731 ∧ (rootOp 0x731 op).arg0.toNat / 2 ^ 12 % 4 ≠ 0 := by decide +kernel
theorem met_PortInval : (rootOp 0x732 1).arg0.toNat % 2 ^ 12 = 0x732 ∧ (rootOp 0x732 1).arg0.toNat / 2 ^ 12 % 4 = 1 ∧ (rootOp 0x732 1).arg1.getLsbD 0 = true ∧
    (getPort (opState (rootOp 0x732 1) [(0, rootOp 0x732 1)] [] [0, 1]) 0).invals[0]? = some (0, rootOp 0x732 1) ∧
    (∃ r ∈ (getPort (opState (rootOp 0x732 1) [] [{ pkt := loadReq, phys := 0, old := true }] [0, 1]) 0).reqs, r.old = true ∧ r.pkt.park = 0) ∧
    (∀ r ∈ (getPort (opState (rootOp 0x732 1) [] [] [0, 1]) 0).reqs, r.old = false ∨ r.pkt.park ≠ 0) := by decide +kernel
def guardPacket : Packet := { mgmt := .guardDrop, vc := 2, arg0 := 7 }
theorem met_GuardReported : (getMgmt { modMgmt demoM 0 (fun m => { m with arrivals := [guardPacket] }) with arg := [0] } 0).arrivals.head? = some guardPacket ∧
    guardPacket.mgmt = .guardDrop := by decide +kernel
theorem test_port_store : portByte (after .portAccessComplete (inFlight2 storeReq [0] [])) 0 0x3008 = 0x66 := by decide +kernel
def guarded (kind : Nat) : Packet := { src := 7, kind := kind, origin := 195, park := 99 }
theorem met_GuardDropped : ∀ kind ∈ [kRLOAD, kREPLY, kFAULTREP], inputAt (input (guarded kind)) 193 0 = some (2, guarded kind) ∧ special 193 (guarded kind) = false ∧
    heldFor (getSite (input (guarded kind)) 193) (guarded kind) = false ∧ portPark (getSite (input (guarded kind)) 193) 2 ≠ 99 ∧ siteW 195 = siteW 193 ∧
    rimAt (siteW 193) (regF (getSite (input (guarded kind)) 193) 0x073 45 44) 96 ≠ 193 ∧
    (∃ d ∈ [0, 1, 2, 3], routeTo (getSite (input (guarded kind)) 193) (rimAt (siteW 193) (regF (getSite (input (guarded kind)) 193) 0x073 45 44) 96) = some d ∧
      linkUp (getSite (input (guarded kind)) 193) d = true) := by
  intro kind hk
  simp only [List.mem_cons, List.not_mem_nil, or_false] at hk
  rcases hk with rfl | rfl | rfl <;>
    exact ⟨by decide +kernel, by decide +kernel, by decide +kernel, by decide +kernel, by decide +kernel, by decide +kernel, by decide +kernel⟩
/-! ### Power, bring-up and tenant switching -/

/-- Region 3 with a record, in a module with a PWR_VMIN of 650 and 2 steps. -/
def regionState (g : Region) (arg : List Nat) : State := { modRegion State.reset 3 (fun _ => g) with arg := arg }
def steady : Region := { samples := [40, 60], ctl := wordN (128 + 5 * 2 ^ 20 + 2 ^ 26), armed := some 0, ceiling := 100 }
theorem met_StepBoundary : (steady.samples ≠ [] ∧ steady.armed = some 0 ∧ ((regionState steady [3]).time / 320 + 2 ^ 32 - 0) % 2 ^ 32 < 2 ^ 31) ∧ ({ steady with armed := none } : Region).armed = none ∧
    ({ steady with dip := true } : Region).dip = true ∧ modField (regionState steady [3]) (3 / 16) 0x718 15 12 ≠ 0 ∧
    (steady.dip = false ∧ modField (regionState steady [3]) (3 / 16) 0x718 15 12 ≤ steady.clean + 1) ∧
    steady.clean + 1 < modField (modModule (regionState steady [3]) 0 fun u => { u with regs := [(0x718, wordN (650 + 3 * 2 ^ 12))] }) (3 / 16) 0x718 15 12 := by decide +kernel
theorem met_Samples : (regionState steady [3, 101]).arg = [3, 101] ∧ (getRegion (regionState steady [3, 101]) 3).dead = false ∧ (getRegion (regionState steady [3, 101]) 3).ceiling < 101 ∧
    (649 < 2 ^ 12 ∧ 649 < modField (regionState steady [3, 649]) (3 / 16) 0x718 11 0) ∧ modField (regionState steady [3, 650]) (3 / 16) 0x718 11 0 ≤ 650 ∧
    (getRegion (regionState steady [3, 649]) 3).droopT = 0 ∧ (getRegion (regionState { steady with droopT := 5 } [3, 649]) 3).droopT ≠ 0 := by decide +kernel
theorem test_current_throttles : (getRegion (after .currentSample (regionState steady [3, 101])) 3).stepT = 7 := by decide +kernel
theorem test_voltage_droop : (getRegion (after .voltageSample (regionState steady [3, 649])) 3).droopT = 5 := by decide +kernel
/-- A module whose thresholds are 80 and 100, with all its fields at a temperature but field 1. -/
def heatState (v : Nat) : State :=
  { modModule State.reset 0 (fun u => { u with regs := [(0x716, wordN (80 + 100 * 2 ^ 12))] }) with arg := 0 :: 20 :: v :: List.replicate 142 20 }
theorem met_HeatSampled : (heatState 100).arg.tail.length = 144 ∧ (1 ∉ (getModule (heatState 100) 0).alerts ∧
    (BitVec.ofNat 12 (modField (heatState 100) 0 0x716 11 0)).toInt ≤ (BitVec.ofNat 12 100).toInt) ∧
    (BitVec.ofNat 12 (modField (heatState 100) 0 0x716 23 12)).toInt ≤ (BitVec.ofNat 12 100).toInt ∧ regionOfField 1 = 0 := by decide +kernel
theorem test_heat_trips : (getRegion (after .thermalSample (heatState 100)) 0).trip = true ∧ (getRegion (after .thermalSample (heatState 99)) 0).trip = false := by decide +kernel
/-- Site 0, in its wafer's first region, joined and live, with the other regulator of the pair failed or not. -/
def regulators (f : Bool) : State :=
  { modSite (modRegion State.reset 1 fun g => { g with fail := f }) 0 (fun x => { x with life := .live }) with arg := [0] }
theorem met_RegulatorFailed : ∀ f ∈ [true, false], (getRegion (regulators f) 0).fail = false ∧ tget? (regulators f).sites 0 = some (getSite (regulators f) 0) ∧
    regionAt 0 = 0 ∧ (getSite (regulators f) 0).life = .live ∧ (getRegion (regulators f) (0 / 2 * 2 + (1 - 0 % 2))).fail = f := by decide +kernel
theorem test_regulator_hole : (getSite (after .regulatorFail (regulators true)) 0).life = .hole ∧ (getSite (after .regulatorFail (regulators false)) 0).dead = true := by decide +kernel
theorem met_PowerRegisterWrites : (∃ v : Nat, v % 2 ^ 12 ≠ 0 ∧ v / 2 ^ 16 % 2 ^ 4 ≤ 8 ∧ v / 2 ^ 20 % 2 ^ 4 ≠ 0 ∧ v / 2 ^ 20 % 2 ^ 4 ≤ 8) ∧ (∃ v : Nat, v % 2 ^ 12 = 0) ∧
    (getRegion (regionState steady [0, 9]) 3).ctl.getLsbD 26 = true ∧ ¬(getRegion (regionState steady [0, 9]) 4).ctl.getLsbD 26 = true ∧ 143 % 2 ^ 8 ≤ 143 ∧ 143 < 144 % 2 ^ 8 :=
  ⟨⟨8 + 8 * 2 ^ 16 + 8 * 2 ^ 20, by decide +kernel⟩, ⟨0, by decide +kernel⟩, by decide +kernel⟩
theorem test_pwr_go : (getRegion (after .pwrGo (regionState { steady with ctl := steady.ctl + 3 * 2 ^ 12 } [0, 9])) 3).armed = some 12 := by decide +kernel
theorem test_therm_sel : modField (after .thermSelWrite { demoM with arg := [0, 143] }) 0 0x714 8 0 = 143 ∧ modField (after .thermSelWrite { demoM with arg := [0, 144] }) 0 0x714 8 0 = 256 := by
  decide +kernel
/-- Each module's active slot either verifies or does not; so, by cases on what the signatures are, some clause of a start is met. -/
theorem met_ModuleReset (u : Module) (h : u.slotActive = 0) : startSlot u 0 ∨ startSlot u 1 ∨ ∀ k, ¬startSlot u k := by
  unfold startSlot
  rw [h]
  rcases h0 : Config.signatureVerifies (tget [] u.images 0) with _ | _
  · rcases h1 : Config.signatureVerifies (tget [] u.images 1) with _ | _
    · refine .inr (.inr fun k hk => ?_)
      rcases hk with ⟨hv, rfl | ⟨rfl, -⟩⟩
      · rw [h0] at hv; cases hv
      · rw [h1] at hv; cases hv
    · exact .inr (.inl ⟨rfl, .inr ⟨rfl, rfl⟩⟩)
  · exact .inl ⟨rfl, .inl rfl⟩
theorem met_ModuleReset_time : (∀ e ∈ (modModule State.reset 0 fun u => u).modules, e.1 = 0 ∨ e.2.started = false) := by decide +kernel
/-- Module 0 started, and site 1 joined. -/
def joining (tested links : Nat) : State :=
  { modSite (modModule State.reset 0 fun u => { u with started := true }) 1 (fun x => { x with life := .transit }) with arg := [0, tested, links, 0] }
theorem met_SitesJoin : ∀ k ∈ [0, 1, 2], (joining k 2).arg = [0, k, 2, 0] ∧ mayJoin (joining k 2) 0 = true ∧ (getModule (joining k 2) (siteW 0)).cfg.getLsbD 0 = false ∧
    (getModule (joining k 2) (siteW 0)).startLog = [] ∧ hasTester (joining k 2) 0 = true ∧ unpowered (joining k 2) 0 = 0 ∧
    nbr 0 1 = some 1 ∧ (getSite (joining k 2) 1).life = .transit ∧ (2 : Nat).testBit 1 = true ∧ ([0] : List Nat).getD (2 + 1) 0 ≤ 16 := by decide +kernel
/-- A step that the log skips, a region whose regulator has failed, and PORT-FIRST with no test or all but one. -/
def joiningU (sid : Nat) (f : Module → Module) : State := { modModule State.reset 0 (fun u => f { u with started := true }) with arg := [sid, 0, 2, 0] }
def skipping : State := joiningU 0 fun u => { u with startLog := [65536#64] }
theorem met_SitesJoin_skip : mayJoin skipping 0 = true ∧ (getModule skipping 0).startLog = [65536#64] ∧
    (65536#64).toNat % 2 ^ 20 = siteX 0 + siteY 0 * 2 ^ 8 + 1 * 2 ^ 16 := by decide +kernel
theorem met_SitesJoin_dead : unpowered { joining 0 2 with regions := [(0, { dead := true })] } 0 = 1 ∧
    unpowered { joining 0 2 with regions := [(0, { dead := true }), (1, { dead := true })] } 0 = 2 := by decide +kernel
def portFirst (l : List SiteTest) : State := joiningU 95 fun u => { u with cfg := 1, tests := l }
theorem met_SitesJoin_first : mayJoin (portFirst []) 95 = true ∧ (getModule (portFirst []) (siteW 95)).cfg.getLsbD 0 = true ∧
    (getModule (portFirst []) (siteW 95)).tests.length < 2303 := by decide +kernel
theorem met_SitesJoin_last : (getModule (portFirst (List.replicate 2303 { sid := 1 })) (siteW 95)).tests.length = 2303 ∧
    ∀ e ∈ (getModule (portFirst (List.replicate 2303 { sid := 1 })) (siteW 95)).tests, siteW e.sid = siteW 95 ∧ e.sid ≠ 95 := by
  refine ⟨List.length_replicate, fun f hf => ?_⟩
  rw [List.eq_of_mem_replicate (show f ∈ List.replicate 2303 ({ sid := 1 } : SiteTest) from hf)]
  exact ⟨rfl, by decide⟩
theorem test_join : (getSite (after .siteJoin (joining 0 2)) 0).life = .live ∧ tget 0 (getSite (after .siteJoin (joining 0 2)) 0).core.pmap 40 = wordN (24 + 2 ^ 13 + 2 ^ 19) := by
  decide +kernel
def flashState : State :=
  { modModule State.reset 0 fun u => { u with started := true, pending := [(2, 5)], lives := [(2, 2 ^ 64 - 3)] } with ports := [(128, { present := true })], arg := [0, 0] }
theorem met_FlashAndMeasurements : (getModule flashState 0).started = true ∧ (getPort flashState (132 * 0 + 128 + 0)).present = true ∧ (getModule State.reset 0).started = false ∧
    (∃ e ∈ (getModule flashState 0).pending, e.1 = 2) ∧ ¬∃ e ∈ (getModule flashState 0).pending, e.1 = 3 := by decide +kernel
theorem test_life : tget 0 (getModule (after .lifeCounterUpdate flashState) 0).lives 2 = 2 ^ 64 - 1 := by decide +kernel

/-- Management core 0 with a STOP_AREA, and with a packet of its queue. -/
def stopState (p : List Packet) (e : Nat) : State := { modMgmt demoM 0 (fun m => { m with arrivals := p, echoes := e }) with arg := [0] }
def donePacket (code : Nat) : Packet := { mgmt := .stopDone, vc := 2, arg0 := 9, ks := code }
theorem met_StopCommands : (1 ≤ 3 ∧ 3 ≤ 3) ∧ siteW (mgmtSite 0) = (5 + 7 * 2 ^ 8) / 2 ^ 18 % 4 ∧ (5 + 7 * 2 ^ 8) % 2 ^ 8 < 192 ∧ (5 + 7 * 2 ^ 8) / 2 ^ 8 % 2 ^ 8 < 192 ∧
    (∀ c ∈ [0, 5], (getMgmt (stopState [donePacket c] 0) 0).arrivals.head? = some (donePacket c) ∧ (donePacket c).mgmt = .stopDone ∧ (donePacket c).ks % 2 ^ 4 = c) ∧
    (getMgmt (stopState [] 1) 0).echoes ≠ 0 := by decide +kernel
theorem test_stop_completion : stopField (after .stopCompletion (stopState [donePacket 5] 0)) 0 55 32 = 5 + 9 * 16 := by decide +kernel
def stopPacket (op : Nat) : Packet := { kind := kSTOP, vc := 2, ks := op, arg0 := wordN (2 * 2 ^ 21), origin := 96 }
def evictState (e : EvState) (q : List Packet) (f : Core → Core) : State := coreState (fun c => f { c with arrivals := q, evict := { c.evict with st := e, mgr := 96, area := 2 ^ 21 } }) [0]
theorem met_CoresStop : stopNext (getSite (evictState .run [stopPacket 1] id) 0) 1 (stopPacket 1) [] ∧ (getSite (evictState .run [stopPacket 1] id) 0).core.evict.st = .run ∧
    stopNext (getSite (evictState .saving [stopPacket 1] id) 0) 1 (stopPacket 1) [] ∧ (getSite (evictState .saving [stopPacket 1] id) 0).core.evict.st ∉ [.run, .stopped] := by
  unfold stopNext
  decide +kernel
theorem met_CoresStop_again : (getSite (evictState .stopped [stopPacket 1] fun c => { c with evict := { c.evict with failed := true } }) 0).core.evict.failed = true ∧
    mgmtAt (stopPacket 1).origin = some 0 := by decide +kernel
theorem met_Quiescence : let x := getSite (evictState .stopping [] id) 0
    x.core.evict.st = .stopping ∧ x.core.scalars = [] ∧ x.core.vectors = [] ∧ x.core.landing = none ∧ x.core.ordReady = [] ∧ toWrite x.core.tensor = none ∧
    x.router.tiles = [] ∧ x.core.arrivals = [] ∧ x.core.accesses = [] ∧ mgmtAt x.core.evict.mgr = some 0 := by decide +kernel
theorem met_StoppedEnd : (getSite (evictState .stopped [] id) 0).core.evict.st = .stopped ∧ (getSite (evictState .stopped [] id) 0).core.evict.failed = false ∧
    (getSite (evictState .stopped [] id) 0).core.outs = [] ∧ (evictState .stopped [] id).arg = [0] := by decide +kernel
/-- The same at the site of host port 0, which the port answers. -/
def evictPort (e : EvState) (q : List Packet) (f : Core → Core) : State :=
  { modSite State.reset 2 fun x => { x with life := .live, core := f { arrivals := q, evict := { st := e, mgr := 96, area := 2 ^ 21 } } } with arg := [2] }
/-- A site being saved, with its image port present or not, or with an uncorrectable word in its first page. -/
def savingState (b : Bool) (bad : List Nat) : State := { evictPort .saving [] (fun c => { c with bad := bad }) with ports := [(0, { present := b })] }
theorem met_CoresAreSaved : (∀ b ∈ [true, false], (getSite (savingState b []) 2).core.evict.st = .saving ∧ memWf (getSite (savingState b []) 2).core.mem = true ∧
    Machine.portAnswers (savingState b []) 2 (132 * siteW 2 + (getSite (savingState b []) 2).core.evict.area.toNat % 2 ^ 7) = b) ∧
    (¬∃ b ∈ (getSite (savingState true []) 2).core.bad, b / 4096 ∈ savedPages (getSite (savingState true []) 2)) ∧
    ∃ b ∈ (getSite (savingState true [8]) 2).core.bad, b / 4096 ∈ savedPages (getSite (savingState true [8]) 2) := by decide +kernel
/-- The fields of an empty core's image lie within the area. -/
theorem met_CoresAreSaved_slots : ∀ k ∈ upto 16, ∀ f ∈ frameFields {} {} 0, slotOffset k + f.1 + f.2.1 ≤ 2 ^ 21 := by decide +kernel
theorem met_CoresAreSaved_sup : ∀ f ∈ supFields {}, f.1 + f.2.1 ≤ 2 ^ 21 := by decide +kernel
theorem met_CoresAreSaved_unit : ∀ o ∈ unitOffsets, o + 1 ≤ 2 ^ 21 := by
  intro o ho
  obtain ⟨i, hi, rfl⟩ := List.mem_map.1 ho
  have := List.mem_range.1 hi
  omega
theorem met_CoresAreSaved_fields (n : Nat) (x : Site) (h1 : x.core.tensor.slots = []) (h2 : x.core.slots = []) (h3 : x.core.pool = []) (h4 : x.core.pmap = [])
    (h5 : x.core.sup = {}) (h6 : x.core.traps = []) : ∀ f ∈ imageFields x n, f.1 + f.2.1 ≤ 2 ^ 21 := by
  have hs : ∀ k, (slotOf x.core k).st = .free := fun k => by unfold slotOf; rw [h2]; rfl
  have hp : supFields x.core = supFields {} := by unfold supFields; rw [h5, h6]
  intro f hf
  unfold imageFields at hf
  simp only [h1, h3, h4, hp, List.flatMap_nil, List.map_nil, List.nil_append, List.append_nil, List.mem_append, or_assoc] at hf
  rcases hf with h | h | h | h
  · obtain ⟨k, hk, h⟩ := List.mem_flatMap.1 h
    obtain ⟨e, he, rfl⟩ := List.mem_map.1 h
    rw [hs] at he
    exact met_CoresAreSaved_slots k hk e he
  · exact met_CoresAreSaved_sup f h
  · obtain ⟨o, ho, rfl⟩ := List.mem_map.1 h
    exact met_CoresAreSaved_unit o ho
  · simp only [List.mem_cons, List.not_mem_nil, or_false] at h
    rcases h with rfl | rfl | rfl | rfl <;> simp only <;> omega
/-- What an image that a save wrote looks like: some memory holds the bytes asked of it. -/
theorem holds_bytes (g : Nat → Byte) (b : Nat) : ∀ l : List Nat, ∃ m : Mem, memWf m = true ∧ ∀ o ∈ l, mget m (b + o) = g o := by
  intro l
  induction l with
  | nil => exact ⟨[], rfl, fun o ho => absurd ho (by simp)⟩
  | cons a l ih =>
    obtain ⟨m, hm, h⟩ := ih
    refine ⟨mset m (b + a) (g a), memWf_mset hm _ _, fun o ho => ?_⟩
    rw [mget_mset]
    split
    · next he => rw [show o = a by omega]
    · next he =>
      refine h o ?_
      rcases List.mem_cons.1 ho with rfl | h1
      · exact absurd rfl he
      · exact h1
/-- An image of an empty core, and one of a core that waited for the answer of an INVOKE. -/
def emptyImage (lost : Bool) : Image :=
  let o : Outst := { seq := 0, kind := .invoke, key := 0, pkt := {} }
  { serial := 4, regs := [(0x041, 77)]
    core := if lost then { slots := [(0, { st := .waiting })], evict := { lost := [o] } } else {} }
/-- A core being restored, whose port holds an image of an empty core that a save wrote. -/
def restoring (l : Bool) (m : Mem) (bad : List Nat) (here : Bool) : State :=
  { modModule (evictPort .restoring [] id) 0 (fun u => { u with cores := [emptyImage l] }) with ports := [(0, { present := here, mem := m, bad := bad })] }
theorem met_findImage (g : Nat → Nat → Byte) (l : List Nat) (m : Mem) (a : Nat) (im : Image) (h : ∀ o ∈ l, mget m (a + o) = g im.serial o) :
    List.find? (fun im => l.all fun o => mget m (a + o) == g im.serial o) [im] = some im :=
  List.find?_cons_of_pos (List.all_eq_true.2 fun o ho => beq_iff_eq.2 (h o ho))
theorem met_CoresAreRestored (l : Bool) : ∃ m : Mem, memWf m = true ∧
    findImage (restoring l m [] true) m (imageAddr (BitVec.ofNat 64 (2 ^ 21))) = some (emptyImage l) := by
  obtain ⟨m, hm, h⟩ := holds_bytes (Config.unitStateByte 4) (imageAddr (BitVec.ofNat 64 (2 ^ 21))) unitOffsets
  refine ⟨m, hm, ?_⟩
  unfold findImage
  have hl : ((restoring l m [] true).modules.flatMap fun u => u.2.cores) = [emptyImage l] := rfl
  rw [hl]
  revert h
  generalize unitOffsets = us
  exact fun h => met_findImage Config.unitStateByte us m _ (emptyImage l) h
theorem met_CoresAreRestored_state (l : Bool) (m : Mem) : (restoring l m [] true).arg = [2] ∧ (getSite (restoring l m [] true) 2).core.evict.st = .restoring ∧
    (getPort (restoring l m [] true) 0).mem = m ∧ (getPort (restoring l m [] true) 0).bad = [] ∧ Machine.portAnswers (restoring l m [] true) 2 0 = true ∧
    (getSite (restoring l m [] true) 2).core.evict.area = BitVec.ofNat 64 (2 ^ 21) ∧ (getSite (restoring l m [] true) 2).router.trees = [] :=
  ⟨rfl, rfl, rfl, rfl, rfl, rfl, rfl⟩
theorem met_CoresAreRestored_lost : (emptyImage false).core.redOps = [] ∧ (emptyImage false).core.evict.lost = [] ∧ tget? (emptyImage false).regs 0x041 = some 77 ∧
    (emptyImage true).core.redOps = [] ∧ ∃ o, (emptyImage true).core.evict.lost = [o] ∧ o.dead = false ∧ o.kind = .invoke ∧ o.key < 256 ∧
      (strandOf (emptyImage true).core o.key).saved = none ∧ findSlot (emptyImage true).core o.key = some 0 ∧ (slotOf (emptyImage true).core 0).st = .waiting :=
  ⟨rfl, rfl, rfl, rfl, _, rfl, rfl, rfl, by decide, rfl, rfl, rfl⟩
theorem met_CoresAreRestored_fails : Machine.portAnswers (restoring false [] [] false) 2 0 = false ∧ findImage State.reset [] 0 = none ∧
    (getPort (restoring false [] [2 ^ 21 + 0x1FF008] true) 0).bad = [2 ^ 21 + 0x1FF008] := by
  decide +kernel
/-- An idle core sent a RESTORE of an image of a version. -/
def restoreState (v : Nat) (e : EvState) : State :=
  { evictPort e [stopPacket 2] id with ports := [(0, { present := true, mem := mwrite [] (2 * 2 ^ 21 + 0x1FF000) 8 v })] }
theorem met_RestoreArrival (v : Nat) : stopNext (getSite (restoreState v .idle) 2) 2 (stopPacket 2) [] ∧ (getSite (restoreState v .idle) 2).core.evict.st = .idle ∧
    Machine.portAnswers (restoreState v .idle) 2 (132 * siteW 2 + (stopPacket 2).arg0.toNat % 2 ^ 7) = true ∧ (getPort (restoreState v .idle) 0).bad = [] ∧
    mread (getPort (restoreState v .idle) 0).mem (2 * 2 ^ 21 + 0x1FF000) 8 = v % 2 ^ 64 :=
  ⟨⟨rfl, rfl, rfl⟩, rfl, rfl, rfl, mread_mwrite 8 [] _ v⟩
/-- Either version has an image that bears it, whatever this hardware's is. -/
theorem met_RestoreArrival_versions : (Config.unitVersion % 2 ^ 64 = Config.unitVersion % 2 ^ 64) ∧ (Config.unitVersion + 1) % 2 ^ 64 ≠ Config.unitVersion % 2 ^ 64 := ⟨rfl, by omega⟩
theorem met_RestoreArrival_refused : (getSite (restoreState 0 .run) 2).core.evict.st ≠ .idle ∧ Machine.portAnswers (evictPort .idle [stopPacket 2] id) 2 0 = false ∧
    stopNext (getSite (evictState .idle [stopPacket 3] id) 0) 3 (stopPacket 3) [] ∧ (getSite (evictState .idle [stopPacket 3] id) 0).router.hold = none ∧
    (getSite (modSite (evictState .idle [stopPacket 3] id) 0 fun x => onRouter (fun r => { r with hold := some (5, 0) }) x) 0).router.hold ≠ none := by
  unfold stopNext
  decide +kernel
/-! ### Ingress queues -/

/-- The ingress queue 0 of host port 0, bound, with the given state and a mesh about its rim site. -/
def queueState (f : Ingress → Ingress) (arg : List Nat) : State :=
  { modIngress (modSite State.reset 95 fun x => { x with
      regs := [(0x076, wordN (2 ^ 13 + 2 ^ 21 + 2 ^ 29))], router := { nt := [(8 * setOf 7, wordN (7 + 3 * 2 ^ 20 + 1 * 2 ^ 28 + 2 ^ 36 + 2 ^ 42))] } }) 0
        (fun i => f { i with bind := i.bind + wordN (2 ^ 31 + 9) }) with
    ports := [(128, { present := true })], arg := arg }
/-- A record with all its fields: destination 7, a handler, PRIO 1, no counter, WSHAPE 8, work 5, ARG0 11, ARG1 12, and no payload. -/
def recordBytes (h : Nat) : Nat :=
  0x3FF + 7 * 2 ^ 16 + h * 2 ^ 48 + 1 * 2 ^ 64 + 8 * 2 ^ 80 + 5 * 2 ^ 120 + 11 * 2 ^ 184 + 12 * 2 ^ 248
/-- A line: its number, whether it is the first and the last, and its 63 bytes. -/
def line (n : Nat) (first final : Bool) (body : Nat) : Nat := n + (if first then 64 else 0) + (if final then 128 else 0) + 256 * body
def lineState (f : Ingress → Ingress) (data : Nat) : State := queueState f [0, 0, 64, data]
theorem met_LaunchLines : takesLines (lineState id 0) 0 ∧ ((0 : Nat) < 0x1000 ∧ (0 : Nat) % 64 = 0) ∧
    (tget? (getIngress (lineState (fun i => { i with held := [(5, 0)] }) 5) 0).held (lineSeq 5)).isSome = true ∧
    (tget? (getIngress (lineState id 5) 0).held (lineSeq 5) = none ∧ lineSeq 5 ≠ (getIngress (lineState id 5) 0).nextLseq ∧
      tget? (getIngress (lineState id 5) 0).held (getIngress (lineState id 5) 0).nextLseq = none) ∧
    (lineSeq (line 0 false true 0) = (getIngress (lineState id 0) 0).nextLseq ∧ lineFirst (line 0 false true 0) = (getIngress (lineState id 0) 0).isOpen) ∧
    (lineSeq (line 0 true false 0) = 0 ∧ lineFirst (line 0 true false 0) ≠ (getIngress (lineState id 0) 0).isOpen ∧ lineFinal (line 0 true false 0) = false ∧
      tget? (getIngress (lineState id 0) 0).held ((lineSeq (line 0 true false 0) + 1) % 64) = none) ∧
    (getIngress (lineState (fun i => { i with halted := true }) 0) 0).halted = true ∧ (getIngress State.reset 0).bind.getLsbD 31 = false ∧
    (getPort (lineState id 0) (ingPort 0)).present = true := by
  unfold takesLines
  decide +kernel
/-- The name table gives a site and a port for a name. -/
theorem looks_up {x : Site} {n dst d : Nat} (h : (ntLookup x n).map (fun e => e.2) = some (dst, d)) : ∃ x', ntLookup x n = some (x', dst, d) := by
  cases hl : ntLookup x n with
  | none => rw [hl] at h; cases h
  | some e => rw [hl] at h; exact ⟨e.1, by injection h with h; rw [← h]⟩
theorem met_edgeSends : ∃ x', ntLookup (getSite (queueState id []) (ingSite 0)) 7 = some (x', 195, 1) := looks_up (by decide +kernel)
theorem met_edgeSends_mesh : meshLink (queueState id []) (ingSite 0) 1 96 ∧ portPark (getSite (queueState id []) (ingSite 0)) 5 = 0 ∧ owns (queueState id []) (ingSite 0) 7 = false ∧
    recordFree (queueState id []) (ingSite 0) 20 7 ∧ heldFor (getSite (queueState id []) (ingSite 0)) { dest := 7 } = false ∧ siteW (ingSite 0) = 7 / 2 ^ 18 % 4 ∧ isNull 7 = false := by
  unfold meshLink recordFree
  decide +kernel
def reads (h : Nat) (bytes : List Byte) : Bool :=
  match parseRecord bytes [] with
  | .ok (f, pay) => !(tget 0 f 0).testBit 20 && tget 0 f 0 == 7 && tget 0 f 1 == h && tget 0 f 6 == 11 && pay == []
  | .error _ => false
theorem met_RecordsLaunch : ∀ h ∈ [0, 3], reads h (bytesOf 63 (line 0 true true (recordBytes h) % 2 ^ 512 / 256)) = true ∧ lineSeq (line 0 true true (recordBytes h)) = 0 ∧
    lineFirst (line 0 true true (recordBytes h)) ≠ (getIngress (lineState id 0) 0).isOpen ∧ lineFinal (line 0 true true (recordBytes h)) = true ∧
    (getIngress (lineState id 0) 0).outs = [] ∧ (getIngress (lineState id 0) 0).bytes = [] ∧ (getIngress (lineState id 0) 0).fields = [] := by decide +kernel
theorem met_RecordsLaunch_fault : (match parseRecord (bytesOf 63 (1 * 2 ^ 11)) [] with | .error k => k | .ok _ => 0) = 5 ∧
    (match parseRecord (bytesOf 63 0) [] with | .error k => k | .ok _ => 0) = 1 := by decide +kernel
theorem test_record : ((getIngress (after .launchLineWrite (lineState id (line 0 true true (recordBytes 0)))) 0).outs.map fun o => (o.pkt.dest, o.pkt.src, o.pkt.arg1)) = [(7, 9, 12)] := by
  decide +kernel
theorem test_record_fault : (getIngress (after .launchLineWrite (lineState id (line 0 true true (2 ^ 11)))) 0).cause = 5 := by decide +kernel
def waitingOut (full : Nat) (due : Option Nat) : IngOut := { pkt := { dest := 7, seq := 4 }, sent := true, full := full, due := due }
def answerState (q : Packet) (full : Nat) (h : Bool) : State := queueState (fun i => { i with outs := [waitingOut full none], arrivals := [q], halted := h }) [0]
theorem met_AnswersAndRetries : (∀ e ∈ [(kNACK, 1), (kNACK, 4), (kNACK, 6), (kNACK, 2), (kREPLY, 0)], ∀ full ∈ [15, 16], ∀ h ∈ [true, false],
    let s := answerState { kind := e.1, ks := e.2, seq := 4 } full h
    (getIngress s 0).arrivals = [{ kind := e.1, ks := e.2, seq := 4 }] ∧ (getIngress s 0).outs[0]? = some (waitingOut full none) ∧
      (waitingOut full none).sent = true ∧ (waitingOut full none).due = none ∧ (waitingOut full none).pkt.seq = 4 ∧ (getIngress s 0).halted = h ∧
      (full < (getIngress s 0).bind.toNat / 2 ^ 56 ↔ full = 15)) ∧
    (let s := queueState (fun i => { i with outs := [waitingOut 0 (some 0)] }) [0, 0]
     (getIngress s 0).outs[0]? = some (waitingOut 0 (some 0)) ∧ 0 ≤ s.time ∧ ∀ b ∈ (getIngress s 0).outs, b.sent = true) ∧
    (let s := { queueState (fun i => { i with timers := [(3, 6)] }) [0] with time := 7 }
     ∃ e ∈ (getIngress s 0).timers, e.2 < s.time) ∧ ∀ e ∈ (getIngress (queueState id [0]) 0).timers, (queueState id [0]).time ≤ e.2 := by decide +kernel
theorem test_answer_full : (getIngress (after .ingressAnswer (answerState { kind := kNACK, ks := 1, seq := 4 } 16 false)) 0).cause = 8 := by decide +kernel
theorem test_timer : (getIngress (after .ingressTimerExpiry { queueState (fun i => { i with timers := [(3, 6)] }) [0] with time := 7 }) 0).cause = 2 := by decide +kernel

/-! ### Fetch lines, ages, frames, scrubbing and the remote window -/

/-- The strand of `demo` with page 4 to be run by its group, at a program counter, with no lines. -/
def fetching (pc e : Nat) : State :=
  strandWith [] fun c => modSlot { c with pmap := tset c.pmap 4 (wordN e) } 0 fun sl => { sl with ctx := { sl.ctx with pc := wordN pc, lines := [] } }
def runnable : Nat := 4 + 2 ^ 13 + 2 ^ 15 + 2 ^ 19
theorem met_FetchLinesFilled : ∀ e ∈ [(0x4000, runnable), (0x4000, 0), (0x4002, runnable), (0x200000, 0), (0x4000, runnable + 2 ^ 18)],
    runs (.strand 0 0) (fetching e.1 e.2) = true ∧ lineAt (curCtx (fetching e.1 e.2)) e.1 = none ∧ (curPc (fetching e.1 e.2)).toNat = e.1 ∧ agentOf 0 0 = .strand 0 0 := by
  decide +kernel
/-- With the line of the program counter filled, the next line is filled or its fetch has failed. -/
def prefetching (pc e : Nat) (ab : Option Nat) : State :=
  strandWith [] fun c => modSlot { c with pmap := tset c.pmap 4 (wordN e) } 0 fun sl =>
    { sl with ctx := { sl.ctx with pc := wordN pc, lines := [{ base := pc - pc % 32, data := 0xF0020900 * 2 ^ 224 }], abandoned := ab } }
theorem met_FetchLinesFilled_next : (∀ e ∈ [(0x4000, none), (0x401C, none), (0x401C, some 0x4020)], let u := prefetching e.1 runnable e.2
    runs (.strand 0 0) u = true ∧ (∃ l, lineAt (curCtx u) e.1 = some l ∧ (lineBad l e.1 = false ∧ instrLen (lineWord l e.1) = 8 ∧ e.1 + 4 = 0x4020 ↔ e.1 = 0x401C)) ∧
    lineAt (curCtx u) 0x4020 = none) ∧ lineAt (curCtx (prefetching 0x4FE0 runnable none)) 0x5000 = none := by
  refine ⟨fun e he => ?_, by decide +kernel⟩
  simp only [List.mem_cons, List.not_mem_nil, or_false] at he
  rcases he with rfl | rfl | rfl <;> exact ⟨by decide +kernel, ⟨_, rfl, by decide +kernel⟩, by decide +kernel⟩
/-- The checks of a strand's fetch, as one disjunction that can be decided. -/
def strandFails (s : State) (a sub : Nat) : Prop :=
  (0x200000 ≤ a ∧ sub = 4) ∨ (a < 0x200000 ∧ a % 4 ≠ 0 ∧ sub = 3) ∨
    (a < 0x200000 ∧ a % 4 = 0 ∧ ¬(eValid (pmapAt (curSite s).core (a / 4096)) = true ∧ eOwned (curSite s) (pmapAt (curSite s).core (a / 4096)) (checkGrp s) = true) ∧ sub = 1) ∨
    (a < 0x200000 ∧ a % 4 = 0 ∧ eValid (pmapAt (curSite s).core (a / 4096)) = true ∧ eOwned (curSite s) (pmapAt (curSite s).core (a / 4096)) (checkGrp s) = true ∧
      (eX (pmapAt (curSite s).core (a / 4096)) = false ∨ (checkGrp s).isSome = true ∧ eS (pmapAt (curSite s).core (a / 4096)) = true) ∧ sub = 2)
theorem fetchFails_strand {s : State} {sid k : Nat} (h : s.cur = .strand sid k) (a sub : Nat) : fetchFails s a sub ↔ strandFails s a sub := by
  unfold fetchFails
  rw [h]
  exact Iff.rfl
theorem met_fetchFails : fetchFails (fetching 0x4000 0) 0x4000 1 ∧ fetchFails (fetching 0x4002 runnable) 0x4002 3 ∧ fetchFails (fetching 0x200000 0) 0x200000 4 ∧
    fetchFails (fetching 0x4000 (runnable + 2 ^ 18)) 0x4000 2 := by
  refine ⟨?_, ?_, ?_, ?_⟩ <;> refine (fetchFails_strand (sid := 0) (k := 0) rfl _ _).2 ?_ <;> unfold strandFails <;> decide +kernel
theorem met_fetchFails_none (sub : Nat) : ¬fetchFails (fetching 0x4000 runnable) 0x4000 sub := fun h => by
  have h' := (fetchFails_strand (sid := 0) (k := 0) rfl _ _).1 h
  have hv : pmapAt (curSite (fetching 0x4000 runnable)).core (0x4000 / 4096) = runnable ∧ eValid runnable = true ∧
      eOwned (curSite (fetching 0x4000 runnable)) runnable (checkGrp (fetching 0x4000 runnable)) = true ∧ eX runnable = true ∧ eS runnable = false := by decide +kernel
  obtain ⟨h0, h1, h2, h3, h4⟩ := hv
  unfold strandFails at h'
  rw [h0] at h'
  rcases h' with ⟨h', -⟩ | ⟨-, h', -⟩ | ⟨-, -, h', -⟩ | ⟨-, -, -, -, h', -⟩
  · omega
  · omega
  · exact h' ⟨h1, h2⟩
  · rw [h3, h4] at h'; rcases h' with h' | ⟨-, h'⟩ <;> cases h'
theorem met_Ages : (∀ a ∈ [2048, 2047], (slotOf (getSite (coreState (fun c => modSlot c 0 fun sl => { sl with age := a, boost := 1 }) [0, 0]) 0).core 0).st = .ready ∧
      (slotOf (getSite (coreState (fun c => modSlot c 0 fun sl => { sl with age := a, boost := 1 }) [0, 0]) 0).core 0).age = a) ∧ 1024 * (1 + 1) ≤ 2048 ∧ 2047 < 1024 * (1 + 1) ∧
    (slotOf (getSite (coreState (fun c => modSlot c 0 fun sl => { sl with st := .waiting }) [0, 0]) 0).core 0).st ≠ .ready := by decide +kernel
theorem met_YieldWindow : yieldEnd { after .yield demo with cur := .strand 0 0 } = 17 ∧ (after .yield demo).time < 17 ∧ yieldEnd { demo with cur := .strand 0 0 } ≤ demo.time ∧ agentOf 0 0 = .strand 0 0 := by
  decide +kernel
/-- Frame 0 in page 5, which is physical page 6. -/
def framePages (c : Core) : Core := { c with pmap := tset c.pmap 5 (wordN (6 + 2 ^ 13 + 2 ^ 14 + 2 ^ 18 + 2 ^ 19)) }
def frameState (f : Core → Core) : State := siteState (fun x => { x with regs := [(0x044, wordN (5 + 2 ^ 9))], core := f (framePages x.core) }) [0]
def savedOne (c : Core) : Core :=
  modSlot (modGroup c 0 fun g => { g with victim := true }) 0 fun sl => { sl with st := .saving, ctx := { sl.ctx with g := [(8, 77)] } }
theorem met_FrameSaved : nextSave (getSite (frameState fun c => modGroup c 0 fun g => { g with victim := true }) 0).core = some 0 ∧
    savingNow (getSite (frameState savedOne) 0).core = some 0 ∧
    freeFrames (getSite (frameState savedOne) 0) = [6] ∧ (∀ e ∈ (getSite (frameState savedOne) 0).core.slots, e.1 ≠ 0 → e.2.grp ≠ 0) ∧
    (groupOf (getSite (frameState savedOne) 0).core 0).isSome = true := by decide +kernel
/-- With a trap record, with a wait, or with neither, the frame's status code is 2, 1 or 0. -/
theorem met_FrameSaved_code : (strandOf (getSite (frameState savedOne) 0).core 0).wait = .none ∧ (strandOf (getSite (frameState savedOne) 0).core 0).trapOnResume = none ∧
    (getSite (frameState savedOne) 0).core.traps = [] ∧
    (strandOf (getSite (frameState fun c => modStrand (savedOne c) 0 fun st => { st with wait := .counter 3 }) 0).core 0).wait ≠ .none ∧
    (strandOf (getSite (frameState fun c => modStrand (savedOne c) 0 fun st => { st with trapOnResume := some { cause := 0, pc := 0, info := 0 } }) 0).core 0).trapOnResume ≠ none := by decide +kernel
theorem test_frame_fields : (frameFields (getSite (frameState savedOne) 0).core (slotOf (getSite (frameState savedOne) 0).core 0) 0)[11]? = some (0x20 + 8 * 7, 8, 77) := by
  decide +kernel
def restoredOne (code : Nat) (w : Wait) (c : Core) : Core :=
  let c := { c with restores := [(0, 0)], mem := mwrite c.mem 0x6008 8 (code * 2 ^ 14) }
  modStrand (modSlot c 0 fun sl => { sl with st := .restoring }) 0 fun st => { st with saved := some 6, wait := w }
theorem met_FrameRestored : ∀ e ∈ [(0, Wait.none), (1, .none), (1, .counter 3), (2, .none)],
    (getSite (frameState (restoredOne e.1 e.2)) 0).core.restores = [(0, 0)] ∧
    ((getSite (frameState (restoredOne e.1 e.2)) 0).core.slots.filter fun e => e.2.st == .restoring && e.2.grp == 0 / 16).map (fun e => e.1) = [0] ∧
    slotKey (slotOf (getSite (frameState (restoredOne e.1 e.2)) 0).core 0) = 0 ∧ (strandOf (getSite (frameState (restoredOne e.1 e.2)) 0).core 0).saved = some 6 ∧
    (strandOf (getSite (frameState (restoredOne e.1 e.2)) 0).core 0).trapOnResume = none ∧ (groupOf (getSite (frameState (restoredOne e.1 e.2)) 0).core 0).isSome = true ∧
    (strandOf (getSite (frameState (restoredOne e.1 e.2)) 0).core 0).wait = e.2 ∧ frameWord (frameState (restoredOne e.1 e.2)) 0 6 8 8 / 2 ^ 14 % 4 = e.1 ∧
    ∀ b ∈ (getSite (frameState (restoredOne e.1 e.2)) 0).core.bad, b / 4096 ≠ 6 := by decide +kernel
def foundState (a : List Nat) (bad : List Nat) : State := coreState (fun c => { c with found := [16], correctable := [40], bad := bad, scrub := 1 }) a
theorem met_ErrorsCorrected : 16 ∈ (getSite (foundState [0, 16, 0] []) 0).core.found ∧ 16 ∈ (getMgmt { modMgmt demoM 0 (fun m => { m with found := [16] }) with arg := [0, 16, 1] } 0).found ∧
    (∃ w ∈ (getSite (foundState [0] []) 0).core.correctable, 32 * (getSite (foundState [0] []) 0).core.scrub ≤ w ∧ w < 32 * (getSite (foundState [0] []) 0).core.scrub + 32) ∧
    ∀ w ∈ (getSite (foundState [0] [64]) 0).core.bad, w < 32 ∨ 64 ≤ w := by decide +kernel
theorem test_scrub : (getSite (after .scrubLineRead (foundState [0] [])) 0).core.found.contains 40 = true := by decide +kernel

def windowPacket (n op : Nat) : Packet := { mgmt := .window, vc := 2, arg0 := wordN (n + op * 2 ^ 12), arg1 := 3, origin := 96 }
def windowState (n op : Nat) : State := coreState (fun c => { c with arrivals := [windowPacket n op] }) [0]
theorem met_WindowOperations : (∀ e ∈ [(0x079, 0), (0x079, 1), (0x079, 2), (0x079, 3), (0x001, 1), (0x0FF, 0)], windowNext (windowState e.1 e.2) 0 (windowPacket e.1 e.2) e.1 e.2) ∧
    isContextReg 0x001 = true ∧ (siteRegAccess 0x0FF).isNone = true ∧ (siteRegAccess 0x079).isSome = true ∧ isContextReg 0x079 = false ∧ 0x079 ∉ [0x023, 0x090, 0x091] ∧ 0x079 ∉ ownRule := by
  unfold windowNext
  decide +kernel
def windowReply (ks : Nat) : Packet := { mgmt := .windowAnswer, vc := 2, arg0 := 66, ks := ks }
def awaits (ks : Nat) (w : MWait) : State := { modMgmt demoM 0 (fun m => { m with arrivals := [windowReply ks], wait := w }) with arg := [0] }
theorem met_WindowAnswer : ∀ ks ∈ [0, 2], (getMgmt (awaits ks (.window (some 9))) 0).arrivals.head? = some (windowReply ks) ∧ (windowReply ks).mgmt ∈ [.windowAnswer, .portOpAnswer] ∧
    (getMgmt (awaits ks (.window (some 9))) 0).wait = .window (some 9) ∧ (getMgmt (awaits ks (.port (some 0))) 0).wait = .port (some 0) ∧ (windowReply ks).ks % 2 ^ 4 = ks := by decide +kernel
def lsState (a : Nat) (bad : List Nat) (arg : List Nat) : State := siteState (fun x => { x with regs := [(0x090, wordN a)], core := { x.core with bad := bad } }) arg
theorem met_SiteRegisters : (0x17FFF8 / 8 % 2 ^ 18 * 8 < 0x180000) ∧ 0x180000 ≤ 0x180000 / 8 % 2 ^ 18 * 8 ∧ reg (getSite (lsState 0x17FFF8 [] [0]) 0) 0x090 < 0x180000 ∧
    badIn (getSite (lsState 0x17FFF8 [] [0]) 0).core.bad 0x17FFF8 8 = none ∧ badIn (getSite (lsState 8 [8] [0]) 0).core.bad 8 8 ≠ none ∧
    (getSite (coreState (fun c => { c with sup := { c.sup with st := .halted } }) [0, 1, 2 ^ 21 + 0x4000]) 0).core.sup.st = .halted ∧ (2 ^ 21 + 0x4000).testBit 21 = true := by decide +kernel
theorem test_lsd : storeByte (after .siteLsdWrite (lsState 0x100 [] [0, 0x1234])) 0 0x101 = 0x12 ∧ reg (getSite (after .siteLsdWrite (lsState 0x100 [] [0, 0x1234])) 0) 0x090 = 0x108 := by decide +kernel
theorem test_trap_vec : (getSite (after .trapVecWrite (coreState (fun c => { c with sup := { c.sup with st := .halted } }) [0, 1, 2 ^ 21 + 0x4000])) 0).core.sup.ctx.pc = 0x4000 := by decide +kernel

/-! ### Words of the manual and the instructions they stand for (R79 to R84, and the encodings beside each instruction) -/

/-- What words decode to. -/
def dec (w0 w1 : Nat) : Option Instr := (decodeWords w0 w1).toOption
theorem test_words_scalar : dec 0x04820900 0 = some (.add 8 8 9) ∧ dec 0x04300401 0 = some (.sub 3 0 4) ∧ dec 0x04A2C028 0 = some (.clz 10 11) ∧
    dec 0x0C517FF8 0 = some (.andi 5 5 0x3FF8) ∧ dec 0x1861E003 0 = some (.sari 6 7 3) ∧ dec 0x0851BFFD 0 = some (.addi 5 6 0x3FFD) ∧ dec 0x1081_0005 0 = some (.ori 8 4 5) ∧
    dec 0x04810517 0 = some (.remn 8 4 5) ∧ dec 0x0482CC19 0 = some (.max 8 11 12) ∧ dec 0x1C81C004 0 = some (.slti 8 7 4) ∧ dec 0x24800049 0 = some (.lui 8 73) ∧
    dec 0x08823456 0 = some (.addi 8 8 (2 ^ 14 - 2986)) := by decide
theorem test_words_control : dec 0x2C500005 0 = some (.beq 5 0 5) ∧ dec 0x30503FFD 0 = some (.bne 5 0 0x3FFD) ∧ dec 0x38B30003 0 = some (.bge 11 12 3) ∧ dec 0x44900010 0 = some (.jal 9 16) ∧
    dec 0x440FFFFB 0 = some (.jal 0 0xFFFFB) ∧ dec 0x48024000 0 = some (.jalr 0 9 0) ∧ dec 0x4C000000 0 = some .nop ∧ dec 0x4C000001 0 = some .yield ∧ dec 0x4C000002 0 = some .exit ∧
    dec 0x4C900408 0 = some (.wid 9 4) ∧ dec 0x4CA00009 0 = some (.time 10) := by decide
theorem test_words_local : dec 0x50920003 0 = some (.ldb 9 8 0 3) ∧ dec 0x60710804 0 = some (.ldw 7 4 2 4) ∧ dec 0x68E2C000 0 = some (.ldd 14 11 0 0) ∧ dec 0x78520400 0 = some (.std 5 8 1 0) ∧
    dec 0x7C920518 0 = some (.ladd 9 8 5 3) ∧ dec 0x7C920507 0 = some (.lcas 9 8 5 0) ∧ dec 0x7C002082 0 = some (.fence 8 2) ∧ dec 0x7C908088 0 = some (.fpop 9 2) ∧
    dec 0x88308000 0 = some (.fpopv 3 2) ∧ dec 0x80320002 0 = some (.vld 3 8 0 2) ∧ dec 0x84230401 0 = some (.vst 2 12 1 1) ∧ dec 0x88304441 0 = some (.vgath 3 1 4 0 1) := by decide
theorem test_words_vector : dec 0x8C108300 0 = some (.vadd 1 2 3 0) ∧ dec 0x8C414651 0 = some (.vfma 4 5 6 1) ∧ dec 0x8C71C6B0 0 = some (.vtanh 7 7 0) ∧ dec 0x8C1083E9 0 = some (.vperm 1 2 3 2) ∧
    dec 0x8C90CAE6 0 = some (.vext 9 3 10 1) ∧ dec 0x8C108190 0 = some (.vcmpLt 1 2 1 0) ∧ dec 0x8C2041E0 0 = some (.vsel 2 1 1 0) ∧ dec 0x8C2000F0 0 = some (.vbcast 2 0 0) ∧
    dec 0x8C4080C0 0 = some (.vsum 4 2 0) ∧ dec 0x90308600 0 = some (.vcvt 3 2 3 0 0) ∧ dec 0x90824803 0 = some (.vcvtLane 8 9 4 0 0) ∧ dec 0x9051AC15 0 = some (.vqnt 5 6 22 1 1) := by decide
theorem test_words_tensor : dec 0xF0020900 0x00008421 = some (.tcfg 0 8 9 1 1 1 1 0) ∧ dec 0x94028B01 0 = some (.tmma 0 10 11 1) ∧ dec 0xF0030D10 0x00000041 = some (.tdrain 0 12 13 1 0 1) ∧
    dec 0x94300010 0 = some (.tzero 3) ∧ dec 0x94908020 0 = some (.tstat 9 2) ∧ dec 0xF0020900 0x000B5820 = some (.tcfg 0 8 9 0 1 22 22 0) := by decide
theorem test_words_resources : dec 0x98928022 0 = some (.tacqT 9 10) ∧ dec 0x98B28012 0 = some (.acqT 11 10) ∧ dec 0x98030032 0 = some (.relT 12) ∧ dec 0x98D00150 0 = some (.qres 13 1) ∧
    dec 0x98000040 0 = some .relall := by decide
theorem test_words_messages : dec 0x9C014000 0 = some (.send 5) ∧ dec 0x9C914001 0 = some (.sendt 9 5) ∧ dec 0x9C014C12 0 = some (.sendl 5 12 2) ∧ dec 0x9C014620 0 = some (.invoke 5 6) ∧
    dec 0x9C914621 0 = some (.invoket 9 5 6) ∧ dec 0x9C014622 0 = some (.invokep 5 6) ∧ dec 0x9CA2C030 0 = some (.recv 10 11) ∧ dec 0x9CA2C031 0 = some (.recvt 10 11) ∧
    dec 0x9C02C032 0 = some (.waitmsg 11) ∧ dec 0x9C004D38 0 = some (.reply 1 13) ∧ dec 0xF8914601 0x00054425 = some (.invokeiT 9 5 6 37 1 0 5 0 1) ∧
    dec 0xA0520900 0 = some (.dset 5 8 9) ∧ dec 0xA0528B01 0 = some (.ddec 5 10 11) ∧ dec 0xA0500002 0 = some (.dwait 5) := by decide
theorem test_words_remote : dec 0xA49184B8 0 = some (.rld 9 6 1 1 1 3) ∧ dec 0xA451869A 0 = some (.rst 5 6 1 5 0 3) ∧ dec 0xA47209DA 0 = some (.rst 7 8 2 3 2 3) ∧ dec 0xA4528A94 0 = some (.nst 5 10 2 5 0 2) ∧
    dec 0xA8518280 0 = some (.radd 5 6 0 5 0 0) ∧ dec 0xA8824177 0 = some (.rcas 8 9 0 2 3 1) ∧ dec 0xF8528B83 0x00000053 = some (.mcst 3 5 10 11 3 5 0) := by decide
theorem test_words_hasps : dec 0xAC00C800 0 = some (.hinit 3 8) ∧ dec 0xAC90C013 0 = some (.harrive 9 3 0 3) ∧ dec 0xAC918025 0 = some (.harriveRemote 9 6 0 5) ∧ dec 0xAC00C930 0 = some (.hwait 3 9) ∧
    dec 0xAC018931 0 = some (.hwaitRemote 6 9) ∧ dec 0xAC00CA40 0 = some (.hexpect 3 10) ∧ dec 0xACB0C950 0 = some (.htest 11 3 9) ∧ dec 0xB0928001 0 = some (.fred 9 10 1) ∧
    dec 0xB0930010 0 = some (.fbcast 9 12 0) ∧ dec 0xB0B24020 0 = some (.frwait 11 9) := by decide
theorem test_words_copies : dec 0xF4928B00 0x0000080C = some (.cpy 9 10 11 12 0 0 2 0) ∧ dec 0xF4D24008 0 = some (.cpyw 13 9) ∧ dec 0xF4628B00 0x0001418C = some (.cpy 6 10 11 12 2 1 0 5) := by decide
theorem test_words_system : dec 0xE0102000 0 = some (.sysr 1 0x020) ∧ dec 0xE0502101 0 = some (.sysw 5 0x021) ∧ dec 0xE0602002 0 = some (.sysset 6 0x020) ∧ dec 0xE0700103 0 = some (.sysclr 7 0x001) ∧
    dec 0xE0000110 0 = some (.trap 1) ∧ dec 0xE0000711 0 = some (.brk 7) ∧ dec 0xE4000000 0 = some .eret ∧ dec 0xE4000001 0 = some .halt ∧ dec 0xE4000002 0 = some .wfi := by decide
/-- An unowned major, a function no chapter assigns, and a field outside its range are no instructions (R82). -/
theorem test_words_refused : dec 0xFFFFFFFF 0 = none ∧ dec 0 0 = none ∧ dec 0x0482093F 0 = none ∧ dec 0x4C900708 0 = none ∧ dec 0xA8518380 0 = none := by decide

/-! ### Ill-formed instructions -/

theorem test_illFormed_registers : ¬Instr.WellFormed (.add 64 0 0) ∧ ¬Instr.WellFormed (.vadd 16 0 0 0) ∧ ¬Instr.WellFormed (.vsel 0 0 8 0) ∧ ¬Instr.WellFormed (.vcmpEq 0 1 2 0) ∧
    ¬Instr.WellFormed (.tzero 8) ∧ ¬Instr.WellFormed (.dwait 0) ∧ ¬Instr.WellFormed (.dwait 64) ∧ ¬Instr.WellFormed (.hwait 32 0) := by decide
theorem test_illFormed_fields : ¬Instr.WellFormed (.addi 0 0 16384) ∧ ¬Instr.WellFormed (.shli 0 0 64) ∧ ¬Instr.WellFormed (.lui 0 1048576) ∧ ¬Instr.WellFormed (.wid 0 7) ∧
    ¬Instr.WellFormed (.ldd 0 0 16 0) ∧ ¬Instr.WellFormed (.ldd 0 0 0 1024) ∧ ¬Instr.WellFormed (.fence 65536 0) ∧ ¬Instr.WellFormed (.fence 0 8) ∧ ¬Instr.WellFormed (.rld 0 0 0 6 0 0) ∧
    ¬Instr.WellFormed (.rld 0 0 0 0 4 0) ∧ ¬Instr.WellFormed (.radd 0 0 0 0 0 2) ∧ ¬Instr.WellFormed (.cpy 0 0 0 0 4 0 0 0) ∧ ¬Instr.WellFormed (.trap 4096) := by decide
theorem test_illFormed_formats : ¬Instr.WellFormed (.vadd 0 0 0 3) ∧ ¬Instr.WellFormed (.vfma 0 0 0 4) ∧ ¬Instr.WellFormed (.vshl 0 0 0 0) ∧ ¬Instr.WellFormed (.vabs 0 0 5) ∧
    ¬Instr.WellFormed (.vcvt 0 0 13 0 0) ∧ ¬Instr.WellFormed (.vcvt 0 0 3 0 4) ∧ ¬Instr.WellFormed (.vqnt 0 0 22 1 3) ∧ ¬Instr.WellFormed (.vqnt 0 0 1 1 0) ∧
    ¬Instr.WellFormed (.tcfg 0 0 0 0 0 28 1 0) ∧ ¬Instr.WellFormed (.tcfg 0 0 0 0 0 0 1 0) ∧ ¬Instr.WellFormed (.tcfg 0 0 0 0 0 1 1 1) ∧ ¬Instr.WellFormed (.tdrain 0 0 0 1 1 0) ∧
    ¬Instr.WellFormed (.invokei 0 0 0 0 0 0 0 0) ∧ ¬Instr.WellFormed (.invokei 0 0 1 0 0 0 1 0) ∧ ¬Instr.WellFormed .quiescence := by decide

/-! ### Words, steps and the whole machine -/

theorem met_EncodingsAgree : Instr.WellFormed (.tcfg 0 8 9 1 1 1 1 0) ∧ (decodeWords 0xF0020900 0x00008421).toOption = some (.tcfg 0 8 9 1 1 1 1 0) ∧ 0xF0020900 < 2 ^ 32 ∧ instrLen 0xF0020900 = 8 ∧
    instrLen 0x04820900 = 4 := by decide
/-- The words that the fetch lines give an agent, where they give words. -/
def wordsAt (s : State) : Option (Nat × Nat × Nat) :=
  match fetched (curCtx s) with
  | .word w0 w1 len => some (w0, w1, len)
  | _ => none
theorem wordsAt_word {s : State} {w0 w1 len : Nat} (h : wordsAt s = some (w0, w1, len)) : fetched (curCtx s) = .word w0 w1 len := by
  unfold wordsAt at h
  split at h
  · next e => injection h with h; injection h with h1 h; injection h with h2 h3; rw [e, h1, h2, h3]
  · cases h
def stepping (w : Nat) : State := State.reset.withFetchWord 64 w
theorem met_StepRunsTheInstruction : ∀ w ∈ [(0x04820900, 4), (0, 4)], runs (.strand 0 0) { { stepping w.1 with agenda := [] } with cur := .strand 0 0 } = true ∧
    dueCheck { { stepping w.1 with agenda := [] } with cur := .strand 0 0 } = none ∧
    wordsAt { { stepping w.1 with agenda := [] } with cur := .strand 0 0 } = some (w.1, 0, w.2) := by decide +kernel
theorem met_doesNext : doesNext (stepping 0x04820900) (.issue (.strand 0 0)) { stepping 0x04820900 with agenda := [] } ∧
    doesNext { State.reset with agenda := [.op { instr := .quiescence, arg := [0] }] } (.op { instr := .quiescence, arg := [0] }) { State.reset with agenda := [] } :=
  ⟨.inl ⟨[], rfl, rfl⟩, .inl ⟨[], rfl, rfl⟩⟩
/-- A line whose word at the program counter was uncorrectable, and a wait that ends in the next step. -/
def badLine : State := { modSite (stepping 4) 0 fun x => { x with core := modSlot x.core 0 fun sl => { sl with ctx := { sl.ctx with lines := [{ base := 0x4000, data := 0, bad := [0] }] } } } with agenda := [.issue (.strand 0 0)] }
theorem met_StepRunsTheInstruction_bad : doesNext badLine (.issue (.strand 0 0)) { badLine with agenda := [] } ∧
    runs (.strand 0 0) { { badLine with agenda := [] } with cur := .strand 0 0 } = true ∧ dueCheck { { badLine with agenda := [] } with cur := .strand 0 0 } = none ∧
    agentStands { { badLine with agenda := [] } with cur := .strand 0 0 } ∧ fetched (curCtx { { badLine with agenda := [] } with cur := .strand 0 0 }) = .bad 0x4000 ∧
    doesNext { State.reset with agenda := [.wake 0 0] } (.wake 0 0) { State.reset with agenda := [] } :=
  ⟨.inl ⟨[], rfl, rfl⟩, by decide +kernel, by decide +kernel, stands_of rfl (by unfold standing; decide +kernel), rfl, .inl ⟨[], rfl, rfl⟩⟩
/-- The first instruction after reset: ADDI g9, g0, 7, and its place after it. -/
theorem test_first_step : (match step (State.reset.withFetchWord 32 0x08900007) with
    | .next t => some (readG t 9, curPc t)
    | _ => none) = some (7, 0x4004) := by decide +kernel
theorem met_memories : memoriesCanonical State.reset ∧ memoriesCanonical (stepping 0x04820900) ∧ ∃ t, step (stepping 0x04820900) = .next t := by
  refine ⟨⟨?_, ?_, ?_, ?_⟩, ⟨?_, ?_, ?_, ?_⟩, ?_⟩
  · exact fun e he => absurd he (by simp [State.reset])
  · exact fun e he => absurd he (by simp [State.reset])
  · exact fun e he => absurd he (by simp [State.reset])
  · exact fun e he => absurd he (by simp [State.reset])
  · decide +kernel
  · decide +kernel
  · decide +kernel
  · decide +kernel
  · have h : (match step (stepping 0x04820900) with | .next _ => true | _ => false) = true := by decide +kernel
    split at h
    · next t e => exact ⟨t, e⟩
    · cases h
/-! ### Further forms of accesses, lanes and registers -/

theorem met_DiscardedAccesses : mayGo (accState (acc true false [.read 0x5000 1 0] (.load 1 true none)) []) 0 0 (acc true false [.read 0x5000 1 0] (.load 1 true none)) ∧
    mayGo (accState { loadAcc with key := supKey } []) 0 0 { loadAcc with key := supKey } ∧ mayGo (accState (acc true true [.rmw 0x5000 0 1 0] (.atomic none)) []) 0 0 (acc true true [.rmw 0x5000 0 1 0] (.atomic none)) ∧
    mayGo (accState { rmwAcc with key := supKey } []) 0 0 { rmwAcc with key := supKey } ∧ badIn (getSite (accState rmwAcc []) 0).core.bad 0x1000 8 = none ∧
    badIn (getSite (accState loadAcc []) 0).core.bad 0x1000 1 = none ∧ lineFree (accState rmwAcc []) 0 0x1000 :=
  ⟨mayGo_one _ _ ⟨rfl, rfl⟩, mayGo_one _ _ ⟨rfl, rfl⟩, mayGo_one _ _ ⟨rfl, rfl⟩, mayGo_one _ _ ⟨rfl, rfl⟩, by decide +kernel, by decide +kernel, by unfold lineFree; decide +kernel⟩
theorem test_ladd_discarded : storeByte (after .localAccessPerform (accState (acc true true [.rmw 0x5000 0 1 0] (.atomic none)) [])) 0 0x1000 = 0x81 := by decide +kernel
/-- Management core 0 with one access to its store, and its uncorrectable words. -/
def mgmtAcc (x : Access) (bad : List Nat) : State := { modMgmt demoM 0 (fun m => { m with accesses := [x], bad := bad, store := [(0x100, 0x80)] }) with arg := [0, 0, 0, 1] }
theorem met_ManagementAccessesPerform : ∀ x ∈ [acc true false [.read 0x100 2 0] (.load 2 true (some 8)), acc false true [.write 0x100 4 7] .none,
      acc true true [.rmw 0x100 0 1 0] (.atomic (some 8)), acc true true [.rmw 0x100 7 1 0] (.atomic none)],
    (getMgmt (mgmtAcc x []) 0).accesses.find? (fun y => y.id == 0) = some x ∧ x.ready ≤ (mgmtAcc x []).time ∧
    ((getMgmt (mgmtAcc x []) 0).accesses.takeWhile fun y => y.id != 0) = [] ∧ x.acc = 0 ∧ badIn (getMgmt (mgmtAcc x []) 0).bad 0x100 8 = none ∧
    badIn (getMgmt (mgmtAcc x [0x100]) 0).bad 0x100 8 = some 0x100 ∧ badIn (getMgmt (mgmtAcc x [0x100]) 0).bad 0x100 2 = some 0x100 := by decide +kernel
theorem test_mgmt_load : leaves .localAccessPerform (mgmtAcc (acc true false [.read 0x100 1 0] (.load 1 true (some 8))) []) 8 = some 0xFFFFFFFFFFFFFF80 := by decide +kernel
/-- A gather of two lanes, and a scatter of two with another line to follow or none. -/
def gatherAcc : Access := acc true false [.gather [(0, 0x5000, 4), (1, 0x5004, 4)]] (.vec (some 3))
def scatterAcc (rest : List AUnit) : Access := acc false true (.scatter [(0, 0x5000, 4, 1), (1, 0x5002, 4, 2)] :: rest) .none
theorem met_GatherScatterPerform : mayGo (accState gatherAcc []) 0 0 gatherAcc ∧ mayGo (accState (scatterAcc []) []) 0 0 (scatterAcc []) ∧
    mayGo (accState (scatterAcc [.scatter [(2, 0x5020, 4, 3)]]) []) 0 0 (scatterAcc [.scatter [(2, 0x5020, 4, 3)]]) ∧ Claims.reaches (accState gatherAcc []) 0 0 0 0 ∧
    (∀ a ∈ [0x5000, 0x5002, 0x5004], badIn (getSite (accState gatherAcc []) 0).core.bad (physVia (getSite (accState gatherAcc []) 0).core [] a) 4 = none) ∧
    (getSite (accState (scatterAcc []) []) 0).core.frameLines = [] :=
  ⟨mayGo_one _ _ ⟨rfl, rfl⟩, mayGo_one _ _ ⟨rfl, rfl⟩, mayGo_one _ _ ⟨rfl, rfl⟩, by unfold Claims.reaches; decide +kernel, by decide +kernel, by decide +kernel⟩
/-- The later lane of a scatter wins where two overlap. -/
theorem test_scatter : (List.range 6).map (fun k => storeByte (after .localAccessPerform (accState (scatterAcc []) [])) 0 (0x1000 + k)) = [1, 0, 2, 0, 0, 0] := by decide +kernel
theorem met_UncorrectableLoad_word : 0x1000 % 8 = 0 ∧ physVia (getSite (accState loadAcc [0x1000]) 0).core [] 0x5000 % 8 + 1 ≤ 8 ∧ (0 : Nat) < 1 := by decide +kernel

/-- Infinities, a zero and one: sums and products that are invalid, infinite or neither. -/
theorem met_laneIs : (laneInvalid (.inf false) (.inf true) one (.vadd 3 1 2 0) ∧ laneInvalid (.inf true) (.inf true) one (.vsub 3 1 2 0) ∧
      laneInvalid (.fin false 0 0) (.inf true) one (.vmul 3 1 2 0) ∧ laneInvalid (.inf false) one (.inf true) (.vfma 3 1 2 0)) ∧
    (¬laneInvalid (.inf false) one one (.vadd 3 1 2 0) ∧ laneInfinite (.inf false) one one (.vadd 3 1 2 0) = some false) ∧
    (¬laneInvalid one (.inf false) one (.vsub 3 1 2 0) ∧ laneInfinite one (.inf false) one (.vsub 3 1 2 0) = some true) ∧
    (¬laneInvalid one one (.inf true) (.vfma 3 1 2 0) ∧ laneInfinite one one (.inf true) (.vfma 3 1 2 0) = some true) ∧
    (∀ v ∈ laneOperands (.inf false) one one (.vfma 3 1 2 0), v.isNan = false) := by
  unfold laneInvalid laneInfinite
  decide +kernel
/-- v1 with infinities of both signs, v2 with one. -/
def infState : State := strandWith [] fun c => modSlot c 0 fun sl => { sl with ctx := { sl.ctx with v := [(1, 0xFF8000007F800000), (2, 0xFF800000)] } }
def lanesOf (a : Nat) : List Machine.Num := (List.range 32).map fun k => laneVal 0 k (vGet (curCtx infState) a)
theorem met_VectorFloatReductions_inf : (∀ x ∈ lanesOf 1 ++ lanesOf 2, x.isNan = false) ∧ (∃ x ∈ lanesOf 1, x.isInf = true ∧ x.neg = false) ∧ (∃ x ∈ lanesOf 1, x.isInf = true ∧ x.neg ≠ false) ∧
    (∃ x ∈ lanesOf 2, x.isInf = true ∧ x.neg = true) ∧ (∀ x ∈ lanesOf 2, x.isInf = true → x.neg = true) ∧ guardTrap (.vsum 3 1 0) infState = none := by decide +kernel
theorem test_vsum_inf : vecOut (.vsum 3 1 0) infState = some (0x7FC00000, 1) ∧ vecOut (.vsum 3 2 0) infState = some (0xFF800000, 0) := by decide +kernel
/-- One third, and one over the root of three, overflow in no mode. -/
theorem met_FunctionValues : ∀ f ∈ [fp32, bf16, fp16], ∀ mode ∈ [0, 1, 4, 5], (transKind .rcp f (.fin false 3 0) mode 0).2.testBit 1 = false ∧
    (transKind .rsq f (.fin false 3 0) mode 0).2.testBit 1 = false ∧ (transKind .rcp f (.fin true 4 0) mode 0).2.testBit 1 = false := by decide +kernel
theorem test_vrsq : transKind .rsq fp32 (.fin false 4 0) 0 0 = (0x3F000000, 0) := by decide +kernel

theorem met_TableWrites_refused : ¬entryTowards (getSite (eastUp [0, 5]) 0) 0 0 1 ∧ ¬entryTowards (getSite (eastUp [0, 5]) 0) 1 0 2 ∧ (2 ^ 42 + 5).testBit 42 = true ∧
    6 % 8 = 6 ∧ treePort (eastUp [0, 4]) 0 3 = false ∧ (4 % 8 = 3 + 1) ∧ (2 % 8 = 1 + 1 ∧ (2 + 2 ^ 4).testBit (1 + 3) = true) ∧ (getSite (eastUp [0, 4]) 0).dead = false := by
  unfold entryTowards
  decide +kernel
theorem test_nt_refused : reg (getSite (after .ntDataWrite (eastUp [0, 2 ^ 42 + 5])) 0) 0x070 / 2 ^ 9 % 2 = 1 ∧ (getSite (after .ntDataWrite (eastUp [0, 2 ^ 42 + 5])) 0).router.nt = [] := by decide +kernel
/-- A write of the page map while no packet lands, and while a copy-form load does. -/
theorem met_PmapWriteEffect_landing : (∀ l, (getSite (pmapDue []) 0).core.landing = some l → l.pkt.kind ≠ kRLOAD ∧ l.pkt.kind ≠ kCOPYDATA) ∧
    ((getSite (loading []) 0).core.landing.map fun l => l.pkt.kind) = some kRLOAD := by
  have h : (getSite (pmapDue []) 0).core.landing = none := by decide +kernel
  rw [h]
  exact ⟨fun _ hl => by simp at hl, by decide +kernel⟩
theorem met_ErrorsCorrected_line : ([32, 40, 48, 56].filter fun w => w ∈ (getSite (foundState [0] [40, 56, 64]) 0).core.bad).length = 2 ∧ 56 ∈ (getSite (foundState [0] [40, 56, 64]) 0).core.bad ∧
    (∀ w' ∈ (getSite (foundState [0] [40, 56, 64]) 0).core.bad, 56 < w' → 32 + 32 ≤ w') := by decide +kernel
theorem test_scrub_bad : regF (getSite (after .scrubLineRead (foundState [0] [40, 56, 64])) 0) 0x052 47 32 = 2 := by decide +kernel
/-- A window operation on SITE_LSD with SITE_LSA at a, from a site to the east. -/
def lsdWindow (op a : Nat) (bad : List Nat) : State :=
  siteState (fun x => { x with regs := [(0x090, wordN a), (0x076, wordN (2 ^ 13))], core := { x.core with bad := bad, arrivals := [{ windowPacket 0x091 op with origin := 1 }] } }) [0]
theorem met_SiteLsdWindow : (∀ op ∈ [0, 1, 2], ∀ a ∈ [8, 0x180000], windowNext (lsdWindow op a []) 0 { windowPacket 0x091 op with origin := 1 } 0x091 op ∧ reg (getSite (lsdWindow op a []) 0) 0x090 = a) ∧
    badIn (getSite (lsdWindow 0 8 []) 0).core.bad 8 8 = none ∧ badIn (getSite (lsdWindow 0 8 [8]) 0).core.bad 8 8 ≠ none ∧ lineFree (lsdWindow 1 8 []) 0 8 := by
  unfold windowNext lineFree
  decide +kernel
theorem test_lsd_window : storeByte (after .remoteWindowAccess (lsdWindow 1 8 [])) 0 8 = 3 ∧ ((getSite (after .remoteWindowAccess (lsdWindow 1 8 [])) 1).router.inq.map fun e => e.2.2.mgmt) = [.windowAnswer] := by decide +kernel

/-! ### Further forms of remote accesses and of the fabric -/

theorem met_MulticastStores_full : (∀ i ∈ [Instr.rst 3 8 0 0 1 0, .nst 3 14 0 5 1 3], guardTrap i (repeating (List.replicate 16 ownStore)) = none) ∧
    16 ≤ (remoteWrites (curSite (repeating (List.replicate 16 ownStore))).core (curKey (repeating (List.replicate 16 ownStore)))).length := by decide +kernel
/-- The fault of one of the acquire half's stores has come before the strand resumes, and one of another half's. -/
def faultedAt (b : Nat) : State := modSite (repeating []) 0 fun x => onCore (fun c => modStrand c 0 fun st => { st with deferred := some aFault, deferredOf := [(0, 5, b)] }) x
theorem met_MulticastStores_fault : (∃ e ∈ (strandOf (curSite (faultedAt 0)).core 0).deferredOf, e.2.2 = (strandOf (curSite (faultedAt 0)).core 0).acqBorn) ∧
    (∀ e ∈ (strandOf (curSite (faultedAt 1)).core 0).deferredOf, e.2.2 ≠ (strandOf (curSite (faultedAt 1)).core 0).acqBorn) ∧
    (strandOf (curSite (faultedAt 0)).core 0).acqAt = some (curPc (faultedAt 0)) ∧ (strandOf (curSite (faultedAt 0)).core 0).deferred = some aFault := by decide +kernel
theorem met_MulticastStores_born : ∀ w ∈ remoteWrites (curSite (repeating [ownStore])).core 0, w.acq = true ∧ w.born = (strandOf (curSite (repeating [ownStore])).core 0).acqBorn := by decide +kernel
theorem met_RemoteHomes_turn : ∀ k ∈ [kRLOAD, kRSTORE, kRATOMIC], behindRetry (arrived (request k) id) (request k) = false := by decide +kernel
/-- The strand's earlier write to the same home has been answered RETRY, and waits to be sent again. -/
def behind (k : Nat) : State := arrived { request k with src := 4, seq := 2 } fun c =>
  { c with outs := [{ seq := 1, kind := .rst, pkt := {}, tries := 1, due := some 9 }, { seq := 2, kind := .rst, pkt := {} }] }
theorem met_RemoteHomes_behind : ∀ k ∈ [kRLOAD, kRSTORE, kRATOMIC],
    let s := modSite (behind k) 0 fun x => { x with life := .live, regs := [(0x041, 4)] }
    handles (getSite s 0) { request k with src := 4, seq := 2 } ∧ behindRetry s { request k with src := 4, seq := 2 } = true := by
  unfold handles
  decide +kernel
theorem met_RemoteHomes_bad_words : ∀ w ∈ (getSite (arrived (request kRLOAD) fun c => { c with bad := [0x1008] }) 0).core.bad, w % 8 = 0 := by decide +kernel
theorem met_RemoteAnswers_born : ∀ p ∈ [answerPacket, nackPacket (rINVALID + 16)], (strandOf (getSite (acqState [{ ownStore with seq := 1 }] p) 0).core 0).acqBorn = ownStore.born ∧
    (∀ y ∈ remoteWrites (getSite (acqState [{ ownStore with seq := 1 }] p) 0).core 0, y.seq ≠ 1 → ¬(y.acq = true ∧ y.born = ownStore.born)) ∧
    ∃ y ∈ remoteWrites (getSite (acqState [{ ownStore with seq := 1 }, ownStore] p) 0).core 0, y.seq ≠ 1 ∧ y.acq = true ∧ y.born = ownStore.born := by decide +kernel

/-- A flooded packet at each kind of node: from a child, at a leaf, from a port that is no branch, and where there is no tree. -/
def floodAt (tree port : Nat) (p : Packet) : State :=
  mesh id (fun r => { r with inq := [(port, 0, p)] }) [193, 0] |> fun s => modSite s 193 fun x => { x with regs := tset x.regs 0x073 (wordN tree) }
def flooded : Packet := { dest := 7, fld := true }
theorem met_Flood_nodes : (∀ t ∈ [3 * 2 ^ 40, 2 ^ 40, 2 ^ 40 + 2 ^ 42 + 2 ^ 43], ∀ q ∈ [0, 1, 2], inputAt (floodAt t q flooded) 193 0 = some (q, flooded)) ∧
    floodPorts (getSite (floodAt (3 * 2 ^ 40) 0 flooded) 193) = none ∧ floodPorts (getSite (floodAt (2 ^ 40) 0 flooded) 193) = some (some 0, []) ∧
    floodPorts (getSite (floodAt (2 ^ 40 + 2 ^ 42 + 2 ^ 43) 1 flooded) 193) = some (some 0, [1, 2]) ∧ owns (floodAt (2 ^ 40) 0 flooded) 193 7 = false := by decide +kernel
theorem met_Flood_comes : comesIn (floodAt (2 ^ 40 + 2 ^ 42 + 2 ^ 43) 1 flooded) 193 0 1 flooded ∧ (∀ e ∈ [(0, 1), (2, 385)], meshLink (floodAt (2 ^ 40 + 2 ^ 42 + 2 ^ 43) 1 flooded) 193 e.1 e.2) := by
  unfold comesIn meshLink
  decide +kernel
theorem test_flood_child : ((getSite (after .floodCopyArrival (floodAt (2 ^ 40 + 2 ^ 42 + 2 ^ 43) 1 flooded)) 385).router.inq.map fun e => e.2.2.dest) = [7] ∧
    reg (getSite (after .floodCopyArrival (floodAt (2 ^ 40) 0 flooded)) 193) 0x075 = 1 := by decide +kernel
/-- The owner of DEST, where the packet came from the west of its park. -/
def floodOwner : Packet := { dest := 5, src := 9, fld := true, origin := 195 }
theorem met_Flood_owner : ownsCore (getSite (floodAt (2 ^ 40) 0 floodOwner) 193) 5 = true ∧ portPark (getSite (floodAt (2 ^ 40) 0 floodOwner) 193) 4 = floodOwner.park ∧ isNull 9 = false ∧
    siteW 195 = siteW 193 ∧ routeTo (getSite (floodAt (2 ^ 40) 0 floodOwner) 193) 195 = some 1 ∧ meshLink (floodAt (2 ^ 40) 0 floodOwner) 193 1 194 ∧ floodOwner.kind ≠ kSTOP ∧ floodOwner.mgmt = .none := by
  unfold meshLink
  decide +kernel

/-- What still crosses a link, of the whole fabric. -/
def crossing (s : State) (a d : Nat) : List (Nat × Nat × Nat × Packet) :=
  (s.sites.map fun y => (y.2.router.inq.filter fun w => w.2.2.trail.any fun e => e.1 == a && e.2.1 == d && decide (s.time < e.2.2)).map fun w => (y.1, w)).flatten
theorem met_LinkDown_quiet : crossing (mesh id id [193, 1]) 193 1 = [] ∧ crossing (mesh id id [193, 1]) 194 3 = [] ∧ crossing losing 194 3 = [] ∧ crossing losing 193 1 = [(194, 3, 5, lostPacket)] := by
  decide +kernel

/-- Blocks of unequal exponents, in range and out of it, and at the greatest exponent. -/
def blockOf (e : Nat) (l : List Int) : RBlock := { e := e, m := l }
theorem met_foldsBlocks : (∀ m ∈ [1, -3] ++ [2 ^ 22, 5], (-2 ^ 23 : Int) ≤ m ∧ m < 2 ^ 23) ∧ (∀ j, j < 2 → -2 ^ 23 ≤ folded 130 (blockOf 130 [1, -3]) (blockOf 129 [2 ^ 22, 5]) j + folded 130 (blockOf 129 [2 ^ 22, 5]) (blockOf 130 [1, -3]) j ∧
      folded 130 (blockOf 130 [1, -3]) (blockOf 129 [2 ^ 22, 5]) j + folded 130 (blockOf 129 [2 ^ 22, 5]) (blockOf 130 [1, -3]) j < 2 ^ 23) ∧
    (∀ e ∈ [130, 254], ¬(folded e (blockOf e [2 ^ 23 - 1]) (blockOf e [2 ^ 22]) 0 + folded e (blockOf e [2 ^ 22]) (blockOf e [2 ^ 23 - 1]) 0 < 2 ^ 23)) := by decide +kernel
theorem test_folds : combine (blockOf 130 [1, -3]) (blockOf 129 [7, 5]) = blockOf 130 [5, -1] ∧ (combine (blockOf 130 [2 ^ 23 - 1, 6]) (blockOf 130 [2 ^ 22, 1])).e = 131 ∧
    (combine (blockOf 130 [2 ^ 23 - 1, 6]) (blockOf 130 [2 ^ 22, 1])).m = [6291456, 4] := by decide +kernel
/-- The root of the tree, whose core awaits the result of its last input. -/
def awaiting : RedOp := { tree := 2, count := 1, dst := 0x5200, elems := 4, receives := true }
def rootSite (r : RedOp) (nd : TreeNode) : State :=
  modSite (nodeSite nd 0x120 [(2, 0, redPacket)]) 193 fun x => { x with core := { page5 x.core with redOps := [r] } }
theorem met_ReductionBlocks_root : treeParent (getSite (rootSite awaiting nodeWaits) 193) 2 = 0 ∧ treeLocal (getSite (rootSite awaiting nodeWaits) 193) 2 = true ∧
    (getSite (rootSite awaiting nodeWaits) 193).life = .live ∧ evicted (getSite (rootSite awaiting nodeWaits) 193) = false ∧ landsOnCounter (getSite (rootSite awaiting nodeWaits) 193).core = false ∧
    (getSite (rootSite awaiting nodeWaits) 193).core.redOps.find? (fun r => r.tree == 2 && r.receives && !r.delivered) = some awaiting ∧ (getSite (rootSite awaiting nodeWaits) 193).core.strands = [] ∧
    (nodeInputs (getSite (rootSite awaiting nodeWaits) 193) 2).filter (fun j => decide (nodeWaits.pos ≤ j)) = [3] ∧ 0x5200 % 4096 + runBytes 0 (min 32 (4 - 0)) ≤ 4096 ∧
    routerMay (getSite (rootSite awaiting nodeWaits) 193) (some (0, 0)) 5 = true ∧ routerMay (getSite (rootSite awaiting nodeWaits) 193) (some (0, 0)) 6 = false ∧
    (∀ e ∈ linePieces 0x5200 16, inFirmwareEntries (getSite (rootSite awaiting nodeWaits) 193) e.1 e.2 = false) ∧ (getSite (rootSite awaiting nodeWaits) 193).core.frameLines = [] := by decide +kernel
theorem test_root_delivers : ((getSite (after .redBlockArrival (rootSite awaiting nodeWaits)) 193).core.redOps.map fun r => r.delivered) = [true] := by decide +kernel
/-- A root whose children are to the east and to the south, that waits for both. -/
def nodeMore : TreeNode := { head := some (pktBlock redPacket), acc := some (pktBlock redPacket), pos := 0 }
def renormState : State := modSite (nodeSite nodeMore 0x30 [(1, 0, redPacket)]) 193 fun x => x
theorem met_ReductionBlocks_renorm : (nodeInputs (getSite renormState 193) 2).filter (fun j => decide (nodeMore.pos ≤ j)) = [2, 3] ∧ linkUp (getSite renormState 193) 2 = true ∧ nbr 193 2 = some 385 ∧
    treeParent (getSite renormState 193) 2 = 0 ∧ evicted (getSite renormState 193) = false ∧ 1 ∈ childPorts (getSite renormState 193) 2 ∧
    (∀ e ∈ (getSite renormState 193).router.inq, ¬(e.1 = 2 ∧ e.2.2.kind = kRED ∧ e.2.2.ks % 2 ^ 3 = 2)) := by decide +kernel
/-- A block of a result that comes down to a leaf whose core awaits it. -/
def resultPacket : Packet := { redPacket with kind := kBCAST }
def resultLeaf : State := modSite (nodeSite {} 0x102 [(1, 0, resultPacket)]) 193 fun x => { x with core := { x.core with redOps := [awaiting] } }
theorem met_BcastBlock : inputAt resultLeaf 193 0 = some (1, resultPacket) ∧ resultPacket.ks.testBit 21 = false ∧ parentPort (getSite resultLeaf 193) 2 = some 1 ∧ childPorts (getSite resultLeaf 193) 2 = [] ∧
    treeLocal (getSite resultLeaf 193) 2 = true ∧ (getSite resultLeaf 193).core.redOps.find? (fun r => r.tree == 2 && r.receives && !r.delivered) = some awaiting ∧
    (getSite resultLeaf 193).core.strands = [] ∧ landsOnCounter (getSite resultLeaf 193).core = false := by decide +kernel
theorem test_result : ((getSite (after .bcastArrival resultLeaf) 193).core.redOps.map fun r => r.delivered) = [true] := by decide +kernel

end Sys2Proof.Tests
end

/-! SUPPORT. System registers written: the bits of a masked write (R7), a site's registers after one, and the instructions
SYSW, SYSSET and SYSCLR by the kind of the register they name (R396). -/

namespace Sys2Proof.Laws

open Sys2Proof Sys2Proof.Machine Sys2Proof.Claims

/-! ### Bits of a masked write -/

/-- Numbers without a common bit add without a carry. -/
theorem add_eq_or_of_and_eq_zero : ∀ {a b : Nat}, a &&& b = 0 → a + b = a ||| b := by
  intro a
  induction a using Nat.strongRecOn with
  | ind a ih =>
    intro b h
    rcases Nat.eq_zero_or_pos a with rfl | ha
    · simp
    · have hhalf : a / 2 + b / 2 = (a ||| b) / 2 := by
        rw [Nat.or_div_two]
        exact ih (a / 2) (by omega) (by rw [← Nat.and_div_two, h])
      have hlow : ¬(a % 2 = 1 ∧ b % 2 = 1) := by
        rw [← Nat.and_mod_two_eq_one, h]
        decide
      have hor : (a ||| b) % 2 = 1 ↔ a % 2 = 1 ∨ b % 2 = 1 := Nat.or_mod_two_eq_one
      omega

/-- A number less its bits under a mask has the bits outside the mask. -/
theorem testBit_sub_and (a m k : Nat) : (a - (a &&& m)).testBit k = (a.testBit k && !m.testBit k) := by
  have hdisj : (a ^^^ (a &&& m)) &&& (a &&& m) = 0 := by
    apply Nat.eq_of_testBit_eq
    intro j
    simp only [Nat.testBit_and, Nat.testBit_xor, Nat.zero_testBit]
    cases a.testBit j <;> cases m.testBit j <;> rfl
  have hsum : (a ^^^ (a &&& m)) + (a &&& m) = a := by
    rw [add_eq_or_of_and_eq_zero hdisj]
    apply Nat.eq_of_testBit_eq
    intro j
    simp only [Nat.testBit_or, Nat.testBit_and, Nat.testBit_xor]
    cases a.testBit j <;> cases m.testBit j <;> rfl
  have hsub : a - (a &&& m) = a ^^^ (a &&& m) := by omega
  rw [hsub, Nat.testBit_xor, Nat.testBit_and]
  cases a.testBit k <;> cases m.testBit k <;> rfl

/-- R7: a masked write takes the bits under the mask from the value and keeps the others. -/
theorem testBit_masked (a m v k : Nat) :
    ((a - (a &&& m)) + (v &&& m)).testBit k = if m.testBit k then v.testBit k else a.testBit k := by
  have hdisj : (a - (a &&& m)) &&& (v &&& m) = 0 := by
    apply Nat.eq_of_testBit_eq
    intro j
    simp only [Nat.testBit_and, testBit_sub_and, Nat.zero_testBit]
    cases a.testBit j <;> cases v.testBit j <;> cases m.testBit j <;> rfl
  rw [add_eq_or_of_and_eq_zero hdisj, Nat.testBit_or, testBit_sub_and, Nat.testBit_and]
  cases a.testBit k <;> cases v.testBit k <;> cases m.testBit k <;> rfl

/-- R396: SYSSET (2) sets the bits under the mask that are 1 in the value. -/
theorem testBit_applyOp_set (m a v k : Nat) :
    (applyOp 2 m a v).testBit k = if m.testBit k then a.testBit k || v.testBit k else a.testBit k := by
  simp only [applyOp, testBit_masked]
  simp [Nat.testBit_or]
/-- R396: SYSCLR (3) clears them. -/
theorem testBit_applyOp_clear (m a v k : Nat) :
    (applyOp 3 m a v).testBit k = if m.testBit k then a.testBit k && !v.testBit k else a.testBit k := by
  simp only [applyOp, testBit_masked]
  simp [testBit_sub_and]

/-! ### A site's registers -/

@[simp] theorem reg_onCore (f : Core → Core) (x : Site) (m : Nat) : reg (onCore f x) m = reg x m := rfl
theorem reg_setReg (x : Site) (n v m : Nat) : reg (setReg x n v) m = if m = n then v % 2 ^ 64 else reg x m := by
  simp only [reg, setReg, tget?_tset]
  by_cases h : m = n
  · simp [h, wordN]
  · simp [h]

@[simp] theorem storeReg_id (n v : Nat) (x : Site) : (storeReg n v x).id = x.id := rfl
@[simp] theorem storeReg_life (n v : Nat) (x : Site) : (storeReg n v x).life = x.life := rfl
@[simp] theorem storeReg_dead (n v : Nat) (x : Site) : (storeReg n v x).dead = x.dead := rfl
@[simp] theorem storeReg_core (n v : Nat) (x : Site) : (storeReg n v x).core = x.core := rfl
@[simp] theorem storeReg_router (n v : Nat) (x : Site) : (storeReg n v x).router = x.router := rfl
theorem reg_storeReg_other {n m : Nat} (h : m ≠ n) (v : Nat) (x : Site) : reg (storeReg n v x) m = reg x m := by
  rw [storeReg, reg_setReg, if_neg h]
/-- R7: the bits of a register after its RW fields are replaced. -/
theorem testBit_storeReg (n v : Nat) (x : Site) {k : Nat} (hk : k < 64) :
    (reg (storeReg n v x) n).testBit k = if (rwMask n).testBit k then v.testBit k else (reg x n).testBit k := by
  rw [storeReg, reg_setReg, if_pos rfl, Nat.testBit_mod_two_pow, testBit_masked, decide_eq_true hk, Bool.true_and]

/-- A register without a rule of its own reads as it is stored. -/
theorem readReg_of_not_ownRule (x : Site) {n : Nat} (h : n ∉ ownRule) : readReg x n = reg x n := by
  unfold readReg
  split
  case h_10 => rfl
  all_goals exact absurd (by decide) h
/-- A register without a rule of its own takes a write in its RW fields. -/
theorem writeReg_of_not_ownRule (l : Level) (wo : Bool) {n : Nat} (v sid : Nat) (s : State) (h : n ∉ ownRule) :
    writeReg l wo n v sid s = some (modSite s sid (storeReg n v)) := by
  unfold writeReg
  split
  case h_15 => rfl
  all_goals exact absurd (by decide) h

/-! ### Memories, registers and sites after a change of a site or of the agent's context -/

theorem sameMemory_trans {s t u : State} (h : sameMemory s t) (h' : sameMemory t u) : sameMemory s u := by
  obtain ⟨hs, hm, hp, hi⟩ := h
  obtain ⟨hs', hm', hp', hi'⟩ := h'
  exact ⟨fun a p => (hs' a p).trans (hs a p), fun k a => (hm' k a).trans (hm k a), fun p a => (hp' p a).trans (hp p a),
    fun w n a => (hi' w n a).trans (hi w n a)⟩
theorem sameMemory_modSite {s : State} {a : Nat} {f : Site → Site}
    (h : (f (getSite s a)).core.mem = (getSite s a).core.mem) : sameMemory s (modSite s a f) := by
  refine ⟨fun n p => ?_, fun _ _ => rfl, fun _ _ => rfl, fun _ _ _ => rfl⟩
  simp only [storeByte, getSite_modSite]
  split
  · next e => rw [h, e]
  · rfl
theorem sameMemory_modMgmt {s : State} {k : Nat} {f : Mgmt → Mgmt}
    (h : (f (getMgmt s k)).store = (getMgmt s k).store) : sameMemory s (modMgmt s k f) := by
  refine ⟨fun _ _ => rfl, fun j a => ?_, fun _ _ => rfl, fun _ _ _ => rfl⟩
  simp only [mgmtByte, getMgmt_modMgmt]
  split
  · next e => rw [h, e]
  · rfl
/-- No memory changes with the agent's context. -/
theorem sameMemory_modCurCtx (s : State) (f : Ctx → Ctx) : sameMemory s (modCurCtx s f) := by
  unfold modCurCtx
  split
  · exact sameMemory_modSite rfl
  · exact sameMemory_modSite rfl
  · exact sameMemory_modMgmt rfl
theorem sameMemory_advance (s : State) (n : Nat) : sameMemory s (advance s n) := sameMemory_modCurCtx s _

/-- A change of a site that keeps its core keeps the core of every site, and the agent's context and registers. -/
theorem core_modSite_of_core {s : State} {a : Nat} {f : Site → Site} (h : (f (getSite s a)).core = (getSite s a).core)
    (n : Nat) : (getSite (modSite s a f) n).core = (getSite s n).core := by
  rw [getSite_modSite]
  split
  · next e => rw [h, e]
  · rfl
theorem curCtx_modSite_of_core {s : State} {a : Nat} {f : Site → Site} (h : (f (getSite s a)).core = (getSite s a).core) :
    curCtx (modSite s a f) = curCtx s := by
  simp only [curCtx, modSite_cur, core_modSite_of_core h, getMgmt_modSite]
theorem readG_modSite_of_core {s : State} {a : Nat} {f : Site → Site} (h : (f (getSite s a)).core = (getSite s a).core)
    (r : Nat) : readG (modSite s a f) r = readG s r := by
  have hcore : (curSite (modSite s a f)).core = (curSite s).core := core_modSite_of_core h (curSid s)
  simp only [readG, modSite_cur, getMgmt_modSite, hcore, curCtx_modSite_of_core h]
@[simp] theorem curSid_modSite (s : State) (a : Nat) (f : Site → Site) : curSid (modSite s a f) = curSid s := rfl

/-- A core with the context of one of its agents changed. -/
def onAgent (a : Agent) (f : Ctx → Ctx) (c : Core) : Core :=
  match a with
  | .strand _ k => modSlot c k fun sl => { sl with ctx := f sl.ctx }
  | .sup _ => { c with sup := { c.sup with ctx := f c.sup.ctx } }
  | .mgmt _ => c
/-- A change of the context of a strand or a supervisor is one of its site's core. -/
theorem modCurCtx_eq_onAgent {s : State} (hc : ∀ k, s.cur ≠ .mgmt k) (f : Ctx → Ctx) :
    modCurCtx s f = modSite s (curSid s) (onCore (onAgent s.cur f)) := by
  cases h : s.cur with
  | strand sid k => simp only [modCurCtx, curSid, h]; rfl
  | sup sid => simp only [modCurCtx, curSid, h]; rfl
  | mgmt k => exact absurd h (hc k)

/-! ### SYSW, SYSSET and SYSCLR -/

theorem exec_sysInstr {op : Nat} (hop : op ∈ [1, 2, 3]) (d n : Nat) (s : State) :
    exec (sysInstr op d n) s = issue (sysInstr op d n) s (sysOp (sysInstr op d n) op d n) := by
  simp only [List.mem_cons, List.not_mem_nil, or_false] at hop
  rcases hop with rfl | rfl | rfl <;> rfl

/-- A register of a site without a rule of its own is no context's register and lies in no window. -/
theorem isContextReg_of_plainReg {n : Nat} (h : plainReg n) : isContextReg n = false := by
  rcases h with ⟨-, h⟩ | h
  · exact h
  · revert n; decide
theorem isCtxNumber_iff {n : Nat} :
    isCtxNumber n = true ↔ n = 0x001 ∨ n = 0x002 ∨ n = 0x003 ∨ 0x010 ≤ n ∧ n ≤ 0x019 := by
  simp [isCtxNumber]
  omega
theorem isCtxNumber_of_isContextReg {n : Nat} (h : isContextReg n = false) : isCtxNumber n = false := by
  simp [isContextReg, isCtxNumber] at h ⊢
  omega
theorem inStrandWindow_of_isContextReg {n : Nat} (h : isContextReg n = false) : inStrandWindow n = false := by
  simp [isContextReg, inStrandWindow] at h ⊢
  omega

/-- R396: what an operation stores in the RW fields of a register that reads old. -/
def opValue (op n old v : Nat) : Nat := if op = 1 then v else applyOp op (rwMask n) old v
/-- The bits of a register after an operation on it. -/
theorem testBit_opValue {op : Nat} (hop : op ∈ [1, 2, 3]) (n v : Nat) (x : Site) {k : Nat} (hk : k < 64) :
    (reg (storeReg n (opValue op n (reg x n) v) x) n).testBit k = newBit op (rwMask n) (reg x n) v k := by
  rw [testBit_storeReg n _ x hk, newBit]
  split
  · next hm =>
    simp only [List.mem_cons, List.not_mem_nil, or_false] at hop
    rcases hop with rfl | rfl | rfl
    · rfl
    · simp [opValue, testBit_applyOp_set, hm]
    · simp [opValue, testBit_applyOp_clear, hm]
  · rfl

/-- A strand's or a supervisor's operation on a register of its site without a rule of its own. -/
theorem coreOp_plain {n : Nat} (hp : plainReg n) (ho : n ∉ ownRule) (op v : Nat) (s : State) :
    coreOp op n v s = some (modSite s (curSid s) (storeReg n (opValue op n (reg (curSite s) n) v))) := by
  have hx := isContextReg_of_plainReg hp
  simp only [coreOp, isCtxNumber_of_isContextReg hx, inStrandWindow_of_isContextReg hx, Bool.false_eq_true, if_false,
    regOp, writeReg_of_not_ownRule _ _ _ _ _ ho, readReg_of_not_ownRule _ ho, opValue]
  rfl
/-- A strand's or a supervisor's operation that waits for nothing and traps at nothing. -/
theorem sysOp_of_coreOp {s t : State} {op d n : Nat} (i : Instr) (hc : ∀ k, s.cur ≠ .mgmt k) (hw : sysWaits n s = false)
    (hp : op = 1 ∨ windowParity s n = none) (h : coreOp op n (readG s d).toNat s = some t) :
    sysOp i op d n s = .next (advance t 4) := by
  have hnone : (if op = 1 then none else windowParity s n) = none := by
    split
    · rfl
    · next h1 => exact hp.resolve_left h1
  unfold sysOp
  rw [hw, if_neg Bool.false_ne_true]
  cases hcur : s.cur with
  | mgmt k => exact absurd hcur (hc k)
  | strand sid k => simp only [hnone, h, done]
  | sup sid => simp only [hnone, h, done]

/-- SYSW of a context's register, by any agent, changes that register of its context. -/
theorem sysOp_ctx {s : State} {n : Nat} (i : Instr) (d : Nat) (hw : sysWaits n s = false) (hn : isCtxNumber n = true) :
    sysOp i 1 d n s = .next (advance (modCurCtx s fun x => setCtxReg x n (readG s d).toNat) 4) := by
  rcases Classical.em (∃ k, s.cur = .mgmt k) with ⟨k, hk⟩ | hc
  · have hlt : n < 0x710 := by
      have := isCtxNumber_iff.mp hn
      omega
    have hport : isPortReg n = false := by
      simp [isPortReg]
      omega
    simp [sysOp, hw, hk, show ¬0x800 ≤ n by omega, hport, done, mgmtOp, hn, modCurCtx]
  · exact sysOp_of_coreOp i (fun k hk => hc ⟨k, hk⟩) hw (.inl rfl) (by simp only [coreOp, hn, if_true])

@[simp] theorem setCtxReg_pc (x : Ctx) (n v : Nat) : (setCtxReg x n v).pc = x.pc := by unfold setCtxReg; split <;> rfl
@[simp] theorem setCtxReg_g (x : Ctx) (n v : Nat) : (setCtxReg x n v).g = x.g := by unfold setCtxReg; split <;> rfl
@[simp] theorem setCtxReg_banks (x : Ctx) (n v : Nat) : (setCtxReg x n v).banks = x.banks := by unfold setCtxReg; split <;> rfl
/-- R199: FPFLAGS keeps bits 5 to 0. -/
theorem setCtxReg_fpflags (x : Ctx) (n v : Nat) :
    (setCtxReg x n v).fpflags = if n = 0x001 then wordN (v % 2 ^ 6) else x.fpflags := by
  unfold setCtxReg
  split
  case h_4 h _ _ => rw [if_neg h]; rfl
  all_goals rfl
/-- R200: FPCTL keeps its rounding mode and its trap enables. -/
theorem setCtxReg_fpctl (x : Ctx) (n v : Nat) :
    (setCtxReg x n v).fpctl =
      if n = 0x002 then wordN ((if v % 8 = 7 then 0 else v % 8) + v / 16 % 64 * 16) else x.fpctl := by
  unfold setCtxReg
  split
  case h_4 _ h _ => rw [if_neg h]; rfl
  all_goals rfl
/-- R196: LFSR_STATE keeps bits 31 to 0. -/
theorem setCtxReg_lfsr (x : Ctx) (n v : Nat) :
    (setCtxReg x n v).lfsr = if n = 0x003 then wordN (v % 2 ^ 32) else x.lfsr := by
  unfold setCtxReg
  split
  case h_4 _ _ h => rw [if_neg h]; rfl
  all_goals rfl
/-- R279: MBUILDn takes the whole word. -/
theorem mGet_setCtxReg (x : Ctx) {n : Nat} (hn : isCtxNumber n = true) (v m : Nat) :
    mGet (setCtxReg x n v) m = if 0x010 ≤ n ∧ m = n - 0x010 then wordN v else mGet x m := by
  unfold setCtxReg
  split
  case h_4 h1 h2 h3 =>
    obtain ⟨hge, -⟩ := (((isCtxNumber_iff.mp hn).resolve_left h1).resolve_left h2).resolve_left h3
    simp [hge]
  all_goals rfl

end Sys2Proof.Laws

/-! Obligations of the family 00_scope: system registers written (O16). -/

namespace Sys2Proof.Proofs

open Sys2Proof Sys2Proof.Machine Sys2Proof.Claims Sys2Proof.Laws

/-- A masked write of a site's register by an agent of the site, and the agent's program counter moved on, change
nothing else. -/
theorem onlyRegister_storeReg {s : State} (hc : ∀ k, s.cur ≠ .mgmt k) (n v : Nat) :
    onlyRegister s (advance (modSite s (curSid s) (storeReg n v)) 4) (curSid s) n := by
  rw [advance, modCurCtx_eq_onAgent (s := modSite s (curSid s) (storeReg n v)) hc, curSid_modSite]
  refine ⟨rfl, fun m hm => by simp [hm], fun m hm => ?_, by simp, by simp, by simp, by simp⟩
  simp [reg_storeReg_other hm]

theorem siteRegisterWritten : SiteRegisterWritten := by
  intro s op d n hop hc hplain hown hguard ⟨hwaits, hparity, _⟩
  let v := opValue op n (reg (curSite s) n) (readG s d).toNat
  have hcore : (storeReg n v (getSite s (curSid s))).core = (getSite s (curSid s)).core := rfl
  refine ⟨advance (modSite s (curSid s) (storeReg n v)) 4, ?_, onlyRegister_storeReg hc n v, ?_, ?_, fun r => ?_, ?_, fun k hk => ?_⟩
  · rw [exec_sysInstr hop, issue_acts hguard]
    exact sysOp_of_coreOp _ hc hwaits (.inr hparity) (coreOp_plain hplain hown op _ s)
  · rw [curPc_advance, curPc, curCtx_modSite_of_core hcore]
    rfl
  · simp only [advance, modCurCtx_eq_onAgent hc, modCurCtx_eq_onAgent (s := modSite s (curSid s) (storeReg n v)) hc]
    simp [curSite]
  · rw [readG_advance, readG_modSite_of_core hcore]
  · exact sameMemory_trans (sameMemory_modSite (congrArg Core.mem hcore)) (sameMemory_advance _ 4)
  · rw [advance, modCurCtx_eq_onAgent (s := modSite s (curSid s) (storeReg n v)) hc, curSid_modSite]
    simp only [getSite_modSite, if_true, reg_onCore]
    exact testBit_opValue hop n _ (curSite s) hk

theorem contextRegisterWritten : ContextRegisterWritten := by
  intro s d n hguard hwaits hn
  let f : Ctx → Ctx := fun x => setCtxReg x n (readG s d).toNat
  have hctx : curCtx (advance (modCurCtx s f) 4) = { f (curCtx s) with pc := (f (curCtx s)).pc + wordN 4 } := by
    rw [advance, curCtx_modCurCtx, curCtx_modCurCtx]
  refine ⟨advance (modCurCtx s f) 4, ?_, ?_, fun r => ?_, ?_, ?_, ?_, ?_, fun m => ?_⟩
  · rw [exec_sysw, execSysw, issue_acts hguard]
    exact sysOp_ctx _ d hwaits hn
  · rw [curPc, hctx]
    simp only [f, setCtxReg_pc]
    rfl
  · rw [readG_advance, readG_modCurCtx s f r (setCtxReg_g _ _ _) (setCtxReg_banks _ _ _)]
  · exact sameMemory_trans (sameMemory_modCurCtx s f) (sameMemory_advance _ 4)
  · rw [hctx]
    exact setCtxReg_fpflags _ n _
  · rw [hctx]
    exact setCtxReg_fpctl _ n _
  · rw [hctx]
    exact setCtxReg_lfsr _ n _
  · rw [hctx]
    have hword : wordN (readG s d).toNat = readG s d := BitVec.ofNat_toNat _ _
    rw [← hword]
    exact mGet_setCtxReg (curCtx s) hn _ m

/-- Settles O16: by a masked write of the site's register, and by a write of the agent's context. -/
theorem systemRegistersWritten : Obligations.SystemRegistersWritten :=
  ⟨siteRegisterWritten, contextRegisterWritten⟩

end Sys2Proof.Proofs

/-! SUPPORT. Bring-up: tables cut down by key, bits of a replaced field, and what the steps of MODULE_RESET and SITE_JOIN leave
of sites, modules and management cores (R438 to R444). -/

namespace Sys2Proof.Laws

open Sys2Proof Sys2Proof.Machine Sys2Proof.Claims

/-! ### Tables -/

/-- A table cut down to the keys that pass reads as before at those and lists no other. -/
theorem tget?_filter_key {α : Type} (p : Nat → Bool) (t : Tab α) (n : Nat) :
    tget? (t.filter fun e => p e.1) n = if p n = true then tget? t n else none := by
  induction t with
  | nil => simp [tget?]
  | cons e t ih =>
    obtain ⟨k, v⟩ := e
    by_cases hk : p k = true
    · by_cases hn : n = k
      · simp [tget?, hn, hk]
      · simp [tget?, hn, hk, ih]
    · by_cases hn : n = k
      · subst hn; simp [hk, ih]
      · simp [tget?, hn, hk, ih]
theorem tget_filter_key {α : Type} (d : α) (p : Nat → Bool) (t : Tab α) (n : Nat) :
    tget d (t.filter fun e => p e.1) n = if p n = true then tget d t n else d := by
  simp only [tget, tget?_filter_key]
  split <;> rfl
/-- A function tabulated over a list of keys. -/
theorem tget_map_key {α : Type} (d : α) (f : Nat → α) (l : List Nat) (n : Nat) :
    tget d (l.map fun v => (v, f v)) n = if n ∈ l then f n else d := by
  induction l with
  | nil => rfl
  | cons a l ih =>
    by_cases h : n = a
    · simp [tget, tget?, h]
    · simpa [tget, tget?, h] using ih
/-- A change of every value that keeps the keys and a part of the values keeps that part at every key. -/
theorem part_tget_map {α β : Type} (part : α → β) {g : Nat × α → Nat × α} (hkey : ∀ e, (g e).1 = e.1)
    (hpart : ∀ e, part (g e).2 = part e.2) (d : α) (t : Tab α) (n : Nat) :
    part (tget d (t.map g) n) = part (tget d t n) := by
  induction t with
  | nil => rfl
  | cons e t ih =>
    by_cases h : n = e.1
    · simp [tget, tget?, hkey, hpart, h]
    · simpa [tget, tget?, hkey, h] using ih
/-- An entry of a table with a key set is the one set or an entry from before. -/
theorem mem_tset {α : Type} {t : Tab α} {n : Nat} {x : α} {e : Nat × α} (h : e ∈ tset t n x) : e = (n, x) ∨ e ∈ t := by
  induction t with
  | nil => simpa [tset] using h
  | cons a t ih =>
    obtain ⟨k, v⟩ := a
    simp only [tset] at h
    split at h
    · simpa using h
    · split at h
      · next hk => subst hk; exact (List.mem_cons.1 h).imp_right (List.mem_cons_of_mem _)
      · rcases List.mem_cons.1 h with rfl | h
        · exact .inr List.mem_cons_self
        · exact (ih h).imp_right (List.mem_cons_of_mem _)

/-! ### Bits of a field -/

theorem bitN_eq_testBit (x i : Nat) : bitN x i = x.testBit i := by
  rw [Nat.testBit_eq_decide_div_mod_eq, bitN, Bool.beq_eq_decide_eq]
theorem bit_eq_getLsbD (w : Word) (i : Nat) : bit w i = w.getLsbD i := bitN_eq_testBit _ _
/-- A number with a field replaced has the new bits in the field and its own outside. -/
theorem testBit_setBitsN (x v k : Nat) {hi lo : Nat} (h : lo ≤ hi) :
    (setBitsN x hi lo v).testBit k = if lo ≤ k ∧ k ≤ hi then v.testBit (k - lo) else x.testBit k := by
  let n := hi + 1 - lo
  have split_at (y : Nat) : y = 2 ^ lo * (2 ^ n * (y / 2 ^ lo / 2 ^ n) + y / 2 ^ lo % 2 ^ n) + y % 2 ^ lo := by
    rw [Nat.div_add_mod, Nat.div_add_mod]
  have hset : setBitsN x hi lo v = 2 ^ lo * (2 ^ n * (x / 2 ^ lo / 2 ^ n) + v % 2 ^ n) + x % 2 ^ lo := by
    have hx := split_at x
    simp only [setBitsN, show hi + 1 - lo = n from rfl]
    rw [Nat.mul_add] at hx ⊢
    rw [Nat.mul_comm (x / 2 ^ lo % 2 ^ n), Nat.mul_comm (v % 2 ^ n)]
    omega
  rw [hset, Nat.testBit_two_pow_mul_add _ (Nat.mod_lt _ (Nat.two_pow_pos _)),
    Nat.testBit_two_pow_mul_add _ (Nat.mod_lt _ (Nat.two_pow_pos _))]
  by_cases h1 : k < lo
  · simp [h1, Nat.testBit_mod_two_pow, show ¬lo ≤ k by omega]
  · by_cases h2 : k ≤ hi
    · simp [h1, h2, Nat.testBit_mod_two_pow, show k - lo < n by omega, show lo ≤ k by omega]
    · have hk : lo + (n + (k - lo - n)) = k := by omega
      simp only [h1, h2, if_false, and_false, show ¬k - lo < n by omega]
      rw [Nat.testBit_div_two_pow, Nat.testBit_div_two_pow]
      congr 1
      omega

/-! ### Changes of management cores alone -/

/-- From s to t nothing has changed but management cores. -/
def onlyMgmts (s t : State) : Prop := { t with mgmts := [] } = { s with mgmts := [] }
theorem onlyMgmts.reads {s t : State} (h : onlyMgmts s t) {α : Type} (f : State → α)
    (hf : ∀ r : State, f { r with mgmts := [] } = f r) : f t = f s := by
  rw [← hf t, ← hf s, h]
theorem onlyMgmts_foldl_modMgmt (num : Nat → Nat) (f : Nat → Mgmt → Mgmt) (l : List Nat) :
    ∀ s, onlyMgmts s (l.foldl (fun s i => modMgmt s (num i) (f i)) s) := by
  induction l with
  | nil => exact fun _ => rfl
  | cons i l ih => exact fun s => ih (modMgmt s (num i) (f i))
/-- Management cores replaced by one record. -/
theorem getMgmt_foldl_modMgmt_const (num : Nat → Nat) (m : Mgmt) {l : List Nat} {i : Nat} (hi : i ∈ l) :
    ∀ s, getMgmt (l.foldl (fun s i => modMgmt s (num i) fun _ => m) s) (num i) = m := by
  have keeps (l : List Nat) : ∀ s, getMgmt s (num i) = m →
      getMgmt (l.foldl (fun s i => modMgmt s (num i) fun _ => m) s) (num i) = m := by
    induction l with
    | nil => exact fun _ h => h
    | cons j l ih => exact fun s h => ih _ (by rw [getMgmt_modMgmt, h, ite_self])
  induction hi with
  | head l => exact fun s => keeps l _ (by simp)
  | tail j _ ih => exact fun s => ih _

/-! ### MODULE_RESET -/

theorem getSite_clearWafer (w : Nat) (s : State) (sid : Nat) :
    getSite (clearWafer w s) sid = if siteW sid = w then { id := sid } else getSite s sid := by
  have h : tget? (clearWafer w s).sites sid = _ := tget?_filter_key (fun k => siteW k != w) s.sites sid
  by_cases hw : siteW sid = w <;> simp [getSite, h, hw]
theorem getMgmt_clearWafer (w : Nat) (s : State) (k : Nat) :
    getMgmt (clearWafer w s) k = if k / 4 = w then {} else getMgmt s k := by
  have h : getMgmt (clearWafer w s) k = if (k / 4 != w) = true then getMgmt s k else {} :=
    tget_filter_key (α := Mgmt) {} (fun j => j / 4 != w) s.mgmts k
  by_cases hw : k / 4 = w <;> simp [h, hw]
theorem getModule_clearWafer (w : Nat) (s : State) (v : Nat) :
    getModule (clearWafer w s) v = if v = w then resetModule (getModule s w) else getModule s v :=
  getModule_modModule s w v resetModule
theorem portByte_clearWafer (w : Nat) (s : State) (p a : Nat) : portByte (clearWafer w s) p a = portByte s p a := by
  refine congrArg (fun m => mget m a) (part_tget_map Port.mem (fun e => ?_) (fun e => ?_) {} s.ports p)
  all_goals split <;> rfl
theorem imageByte_clearWafer (w : Nat) (s : State) (v n a : Nat) : imageByte (clearWafer w s) v n a = imageByte s v n a := by
  rw [imageByte, imageByte, getModule_clearWafer]
  split
  · next h => rw [h]; rfl
  · rfl

/-- R444: the slot that a start runs is the active one where it verifies, else the other where that does. -/
theorem bootSlot_eq_some_iff {u : Module} {k : Nat} : bootSlot u = some k ↔ startSlot u k := by
  constructor
  · intro h
    simp only [bootSlot] at h
    split at h
    · next hactive => cases h; exact ⟨hactive, .inl rfl⟩
    · next hactive =>
      split at h
      · next hother => cases h; exact ⟨hother, .inr ⟨rfl, by simpa using hactive⟩⟩
      · cases h
  · rintro ⟨hk, rfl | ⟨rfl, hactive⟩⟩
    · simp [bootSlot, hk]
    · simp [bootSlot, hk, hactive]

/-- The bytes of a management core's store after a start: its image's, as far as the store goes. -/
theorem mget_bootMgmt_store (image : Mem) (a : Nat) :
    mget (bootMgmt image).store a = if a < 0x40000 then mget image a else 0 := by
  have h : mget (bootMgmt image).store a = if decide (a < 0x40000) = true then mget image a else 0 :=
    tget_filter_key 0 (fun b => decide (b < 0x40000)) image a
  rw [h]
  simp

/-- The machine with a wafer cleared, and its wafer time: 0 where no other module has started. -/
def resetWafer (w : Nat) (s : State) : State :=
  if (clearWafer w s).modules.any fun e => e.1 != w && e.2.started then clearWafer w s
  else { clearWafer w s with time := 0 }
/-- A module started from a firmware slot. -/
def startModule (w k : Nat) (s : State) : State :=
  (upto 4).foldl (fun t i => modMgmt t (4 * w + i) fun _ => bootMgmt (tget [] (getModule s w).images k))
    (modModule s w fun u => updateLives 1 { u with started := true, slotActive := k })
theorem bootSlot_resetWafer (w : Nat) (s : State) : bootSlot (getModule (resetWafer w s) w) = bootSlot (getModule s w) := by
  have h : getModule (resetWafer w s) w = resetModule (getModule s w) := by
    rw [resetWafer]
    split <;> exact (getModule_clearWafer w s w).trans (if_pos rfl)
  rw [h]
  rfl
theorem exec_moduleReset_of_none {s : State} {w : Nat} (hs : s.arg = [w]) (h : bootSlot (getModule s w) = none) :
    exec .moduleReset s = .next (resetWafer w s) := by
  have h' := (bootSlot_resetWafer w s).trans h
  simp only [exec_moduleReset, execModuleReset, argAt, hs, List.getD_cons_zero]
  split
  · rfl
  · next e => cases h'.symm.trans e
theorem exec_moduleReset_of_some {s : State} {w k : Nat} (hs : s.arg = [w]) (h : bootSlot (getModule s w) = some k) :
    exec .moduleReset s = .next (startModule w k (resetWafer w s)) := by
  have h' := (bootSlot_resetWafer w s).trans h
  simp only [exec_moduleReset, execModuleReset, argAt, hs, List.getD_cons_zero]
  split
  · next e => cases h'.symm.trans e
  · next e => cases h'.symm.trans e; rfl

/-- What MODULE_RESET of a wafer does in any case: sites as before bring-up, memory behind ports and firmware images kept, and
wafer time 0 where no other module has started. -/
def wafersUnitsReset (w : Nat) (s t : State) : Prop :=
  (∀ sid, siteW sid = w → getSite t sid = { id := sid }) ∧ (∀ sid, siteW sid ≠ w → getSite t sid = getSite s sid) ∧
  (∀ p a, portByte t p a = portByte s p a) ∧ (∀ v n a, imageByte t v n a = imageByte s v n a) ∧
  ((∀ e ∈ s.modules, e.1 = w ∨ e.2.started = false) → t.time = 0)

/-- What does not depend on wafer time reads in a reset wafer as in a cleared one. -/
theorem resetWafer_reads {α : Type} (f : State → α) (hf : ∀ t : State, f { t with time := 0 } = f t) (w : Nat) (s : State) :
    f (resetWafer w s) = f (clearWafer w s) := by
  rw [resetWafer]
  split
  · rfl
  · exact hf _
theorem time_resetWafer {w : Nat} {s : State} (h : ∀ e ∈ s.modules, e.1 = w ∨ e.2.started = false) :
    (resetWafer w s).time = 0 := by
  rw [resetWafer, if_neg]
  intro hany
  obtain ⟨e, he, hstarted⟩ := List.any_eq_true.1 hany
  rcases mem_tset he with rfl | he
  · simp at hstarted
  · rcases h e he with hw | hw <;> simp [hw] at hstarted
theorem resetWafer_resets (w : Nat) (s : State) : wafersUnitsReset w s (resetWafer w s) := by
  have hsite (sid : Nat) := (resetWafer_reads (getSite · sid) (fun _ => rfl) w s).trans (getSite_clearWafer w s sid)
  exact ⟨fun sid h => (hsite sid).trans (if_pos h), fun sid h => (hsite sid).trans (if_neg h),
    fun p a => (resetWafer_reads (portByte · p a) (fun _ => rfl) w s).trans (portByte_clearWafer w s p a),
    fun v n a => (resetWafer_reads (imageByte · v n a) (fun _ => rfl) w s).trans (imageByte_clearWafer w s v n a),
    time_resetWafer⟩
theorem getModule_resetWafer_self (w : Nat) (s : State) : getModule (resetWafer w s) w = resetModule (getModule s w) :=
  (resetWafer_reads (getModule · w) (fun _ => rfl) w s).trans ((getModule_clearWafer w s w).trans (if_pos rfl))
theorem getMgmt_resetWafer {w i : Nat} (hi : i < 4) (s : State) : getMgmt (resetWafer w s) (4 * w + i) = {} :=
  (resetWafer_reads (getMgmt · (4 * w + i)) (fun _ => rfl) w s).trans
    ((getMgmt_clearWafer w s _).trans (if_pos (by omega)))

theorem startModule_onlyMgmts (w k : Nat) (s : State) :
    onlyMgmts (modModule s w fun u => updateLives 1 { u with started := true, slotActive := k }) (startModule w k s) :=
  onlyMgmts_foldl_modMgmt _ _ _ _
theorem getModule_startModule (w k : Nat) (s : State) (v : Nat) : getModule (startModule w k s) v =
    if v = w then updateLives 1 { getModule s w with started := true, slotActive := k } else getModule s v := by
  rw [(startModule_onlyMgmts w k s).reads (getModule · v) fun _ => rfl, getModule_modModule]
theorem startModule_resets {w : Nat} {s t : State} (h : wafersUnitsReset w s t) (k : Nat) :
    wafersUnitsReset w s (startModule w k t) := by
  obtain ⟨hsite, hother, hport, himage, htime⟩ := h
  have hsites : (startModule w k t).sites = t.sites := (startModule_onlyMgmts w k t).reads State.sites fun _ => rfl
  have hports : (startModule w k t).ports = t.ports := (startModule_onlyMgmts w k t).reads State.ports fun _ => rfl
  have hnow : (startModule w k t).time = t.time := (startModule_onlyMgmts w k t).reads State.time fun _ => rfl
  refine ⟨?_, ?_, ?_, fun v n a => ?_, ?_⟩
  · simpa only [getSite, hsites] using hsite
  · simpa only [getSite, hsites] using hother
  · simpa only [portByte, getPort, hports] using hport
  · rw [← himage, imageByte, imageByte, getModule_startModule]
    split
    · next hv => rw [hv]; rfl
    · rfl
  · rwa [hnow]
theorem getMgmt_startModule {i : Nat} (hi : i < 4) (w k : Nat) (s : State) :
    getMgmt (startModule w k s) (4 * w + i) = bootMgmt (tget [] (getModule s w).images k) :=
  getMgmt_foldl_modMgmt_const (fun i => 4 * w + i) _ (List.mem_range.2 hi) _

/-! ### What the steps of a join keep -/

/-- What bring-up counts and reads of a module is the same: the boot log's growth and the life counters are not among it. -/
structure ModuleKept (u v : Module) : Prop where
  settled : v.settled = u.settled
  joined : v.joined = u.joined
  tests : v.tests = u.tests
  startLog : v.startLog = u.startLog
/-- What a join settles of a site is the same, but for some of its registers. -/
structure SiteKept (but : List Nat) (x y : Site) : Prop where
  life : y.life = x.life
  pmap : y.core.pmap = x.core.pmap
  sup : y.core.sup = x.core.sup
  reg : ∀ m, m ∉ but → reg y m = reg x m
/-- Every site and module is kept, but for some registers of the sites. -/
structure Kept (but : List Nat) (s t : State) : Prop where
  sites : ∀ n, SiteKept but (getSite s n) (getSite t n)
  modules : ∀ w, ModuleKept (getModule s w) (getModule t w)

theorem ModuleKept.refl (u : Module) : ModuleKept u u := ⟨rfl, rfl, rfl, rfl⟩
theorem ModuleKept.trans {u v w : Module} (h : ModuleKept u v) (h' : ModuleKept v w) : ModuleKept u w :=
  ⟨h'.settled.trans h.settled, h'.joined.trans h.joined, h'.tests.trans h.tests, h'.startLog.trans h.startLog⟩
theorem SiteKept.refl (but : List Nat) (x : Site) : SiteKept but x x := ⟨rfl, rfl, rfl, fun _ _ => rfl⟩
theorem SiteKept.trans {but : List Nat} {x y z : Site} (h : SiteKept but x y) (h' : SiteKept but y z) : SiteKept but x z :=
  ⟨h'.life.trans h.life, h'.pmap.trans h.pmap, h'.sup.trans h.sup, fun m hm => (h'.reg m hm).trans (h.reg m hm)⟩
theorem SiteKept.weaken {x y : Site} (h : SiteKept [] x y) (but : List Nat) : SiteKept but x y :=
  ⟨h.life, h.pmap, h.sup, fun m _ => h.reg m (by simp)⟩
theorem SiteKept.linkUp {x y : Site} (h : SiteKept [] x y) (d : Nat) : linkUp y d = linkUp x d := by
  rw [Machine.linkUp, h.reg _ (by simp), Machine.linkUp]

section Kept
variable {but : List Nat} {s t : State}

theorem Kept.refl (but : List Nat) (s : State) : Kept but s s := ⟨fun _ => .refl but _, fun _ => .refl _⟩
theorem Kept.trans {r : State} (h : Kept but s t) (h' : Kept but t r) : Kept but s r :=
  ⟨fun n => (h.sites n).trans (h'.sites n), fun w => (h.modules w).trans (h'.modules w)⟩
theorem Kept.weaken (h : Kept [] s t) (but : List Nat) : Kept but s t := ⟨fun n => (h.sites n).weaken but, h.modules⟩
theorem kept_of_eq (hs : t.sites = s.sites) (hm : t.modules = s.modules) : Kept but s t :=
  ⟨fun n => by simp only [getSite, hs]; exact .refl but _, fun w => by simp only [getModule, hm]; exact .refl _⟩
theorem kept_modModule (s : State) (w : Nat) {f : Module → Module} (h : ModuleKept (getModule s w) (f (getModule s w))) :
    Kept but s (modModule s w f) := by
  refine ⟨fun n => .refl but _, fun v => ?_⟩
  rw [getModule_modModule]
  split
  · next hv => rw [hv]; exact h
  · exact .refl _
theorem kept_modSite (s : State) (sid : Nat) {f : Site → Site} (h : SiteKept but (getSite s sid) (f (getSite s sid))) :
    Kept but s (modSite s sid f) := by
  refine ⟨fun n => ?_, fun _ => .refl _⟩
  rw [getSite_modSite]
  split
  · next hn => rw [hn]; exact h
  · exact .refl but _
theorem kept_foldl {α : Type} {f : State → α → State} (h : ∀ s a, Kept but s (f s a)) (l : List α) :
    ∀ s, Kept but s (l.foldl f s) := by
  induction l with
  | nil => exact .refl but
  | cons a l ih => exact fun s => (h s a).trans (ih _)

end Kept

/-! ### The boot log -/

theorem logEntry_nil (sid unit : Nat) : logEntry [] sid unit = none := rfl
theorem skips_of_startLog_nil {u : Module} (h : u.startLog = []) (sid unit : Nat) : skips u sid unit = false := by
  rw [skips, h, logEntry_nil]
/-- R441: a start skips a step whose one entry in the log is not alternate. -/
theorem skips_of_entry {u : Module} {sid unit : Nat} {e : Word} (he : e ∈ u.startLog)
    (hkey : e.toNat % 2 ^ 20 = logKey sid unit) (hlow : logKey sid unit < 2 ^ 19)
    (hone : ∀ e' ∈ u.startLog, e'.toNat % 2 ^ 19 = e.toNat % 2 ^ 19 → e' = e) : skips u sid unit = true := by
  have hmod : e.toNat % 2 ^ 19 = logKey sid unit := by omega
  have hfind : u.startLog.find? (fun e => e.toNat % 2 ^ 19 == logKey sid unit) = some e := by
    cases hf : u.startLog.find? (fun e => e.toNat % 2 ^ 19 == logKey sid unit) with
    | none => exact absurd (List.find?_eq_none.1 hf e he) (by rw [hmod, beq_self_eq_true]; simp)
    | some e' =>
      have hkey' := List.find?_some hf
      rw [beq_iff_eq, ← hmod] at hkey'
      rw [hone e' (List.mem_of_find?_eq_some hf) hkey']
  have hbit : bitN e.toNat 19 = false := by
    rw [bitN, beq_eq_false_iff_ne]
    omega
  rw [skips, logEntry, hfind, Option.map_some]
  simp only [hbit, Bool.not_false]
theorem logKey_lt (sid unit : Nat) (h : unit < 8) : logKey sid unit < 2 ^ 19 := by
  have hx : siteX sid < 192 := Nat.mod_lt _ (by omega)
  have hy : siteY sid < 192 := Nat.div_lt_of_lt_mul (Nat.mod_lt _ (by decide))
  rw [logKey]
  omega

theorem addLog_kept (e : Nat) (u : Module) : ModuleKept u (addLog e u) := by
  unfold addLog
  split <;> exact ⟨rfl, rfl, rfl, rfl⟩
theorem logFail_kept (sid unit action : Nat) (u : Module) : ModuleKept u (logFail sid unit action u) := by
  unfold logFail
  split
  · exact ⟨rfl, rfl, rfl, rfl⟩
  · exact addLog_kept _ u
theorem logPass_kept (sid unit : Nat) (u : Module) : ModuleKept u (logPass sid unit u) := by
  unfold logPass
  split <;> exact ⟨rfl, rfl, rfl, rfl⟩

theorem raiseAll_onlyMgmts (w b : Nat) (s : State) : onlyMgmts s (raiseAll w b s) :=
  onlyMgmts_foldl_modMgmt (fun k => 4 * w + k) _ _ s
theorem raiseAll_kept (but : List Nat) (w b : Nat) (s : State) : Kept but s (raiseAll w b s) :=
  kept_of_eq ((raiseAll_onlyMgmts w b s).reads State.sites fun _ => rfl)
    ((raiseAll_onlyMgmts w b s).reads State.modules fun _ => rfl)
theorem bootStep_sites (sid unit action : Nat) (ok : Bool) (s : State) : (bootStep sid unit action ok s).sites = s.sites := by
  simp only [bootStep]
  split
  · rfl
  · split
    · rfl
    · exact (raiseAll_onlyMgmts _ _ _).reads State.sites fun _ => rfl
theorem bootStep_kept (sid unit action : Nat) (ok : Bool) (s : State) : Kept [] s (bootStep sid unit action ok s) := by
  simp only [bootStep]
  split
  · exact .refl [] s
  · split
    · exact kept_modModule s _ (logPass_kept sid unit _)
    · exact (kept_modModule s _ (logFail_kept sid unit action _)).trans (raiseAll_kept [] _ _ _)

/-! ### The capability list and the core of bring-up -/

theorem writePhys_foldl {α : Type} (p n v : α → Nat) (l : List α) : ∀ c : Core,
    (l.foldl (fun c e => writePhys c (p e) (n e) (v e)) c).pmap = c.pmap ∧
      (l.foldl (fun c e => writePhys c (p e) (n e) (v e)) c).sup = c.sup := by
  induction l with
  | nil => exact fun _ => ⟨rfl, rfl⟩
  | cons e l ih => exact fun c => ih (writePhys c (p e) (n e) (v e))
theorem putCapList_kept (s : State) (sid : Nat) : Kept [] s (putCapList s sid) := by
  obtain ⟨hpmap, hsup⟩ := writePhys_foldl (fun e : Nat × Nat => 0x7000 + 8 * e.2) (fun _ => 8) (fun e => e.1)
    (capList s (siteW sid)).zipIdx (getSite s sid).core
  exact kept_modSite s sid ⟨rfl, hpmap, hsup, fun _ _ => rfl⟩
theorem finishBoot_kept (w : Nat) (s : State) : Kept [] s (finishBoot w s) := by
  have hlist (l : List (Nat × Site)) (s : State) := kept_foldl (fun s (e : Nat × Site) => putCapList_kept s e.1) l s
  simp only [finishBoot]
  refine Kept.trans ?_ (hlist _ _)
  split
  · exact (kept_modModule s w (addLog_kept _ _)).trans (raiseAll_kept [] w 4 _)
  · exact .refl [] s

/-- An entry of bring-up, by the sum of its page and its permissions' bits. -/
theorem bootEntry_eq_of_sum {p n : Nat} {r w x sv : Bool}
    (h : p + b2n r * 2 ^ 13 + b2n w * 2 ^ 14 + b2n x * 2 ^ 15 + b2n sv * 2 ^ 18 + 2 ^ 19 = n) :
    bootEntry p r w x sv = BitVec.ofNat 64 n := congrArg wordN h
theorem bootEntry_eq_joinedPage {v : Nat} (hv : v < 48) :
    (if v < 7 then bootEntry v true true true true
      else if v = 7 then bootEntry 7 true false false false
      else if v < 16 then bootEntry v true true false true
      else bootEntry (16 + (v - 16) % 16) true false false false) = BitVec.ofNat 64 (joinedPage v) := by
  have h1 : b2n true = 1 := rfl
  have h0 : b2n false = 0 := rfl
  rw [joinedPage]
  by_cases h7 : v < 7
  · rw [if_pos h7, if_pos h7]
    exact bootEntry_eq_of_sum (by omega)
  · rw [if_neg h7, if_neg h7]
    by_cases he : v = 7
    · rw [if_pos he, if_pos he]
      exact bootEntry_eq_of_sum rfl
    · rw [if_neg he, if_neg he]
      by_cases h16 : v < 16
      · rw [if_pos h16, if_pos h16]
        exact bootEntry_eq_of_sum (by omega)
      · rw [if_neg h16, if_neg h16, if_pos hv]
        exact bootEntry_eq_of_sum (by omega)
/-- R439: the page map of bring-up. -/
theorem tget_bootPmap (v : Nat) : tget 0 bootPmap v = BitVec.ofNat 64 (joinedPage v) := by
  rw [bootPmap, tget_map_key]
  split
  · next h => exact bootEntry_eq_joinedPage (List.mem_range.1 h)
  · next h =>
    have hv : 48 ≤ v := by simpa [upto] using h
    rw [joinedPage, if_neg (by omega), if_neg (by omega), if_neg (by omega), if_neg (by omega)]
    rfl
theorem bootCore_pmap : bootCore.pmap = bootPmap :=
  (writePhys_foldl (fun k => 0x8000 + 32 * (1000 + k)) (fun _ => 32) (fun k => firmwareEntry (1000 + k)) _ _).1
theorem bootCore_sup : bootCore.sup = {} :=
  (writePhys_foldl (fun k => 0x8000 + 32 * (1000 + k)) (fun _ => 32) (fun k => firmwareEntry (1000 + k)) _ _).2

/-! ### Links -/

theorem linkUp_setLink (x : Site) {d : Nat} (hd : d < 4) (spares e : Nat) :
    linkUp (setLink d spares x) e = (decide (e = d) || linkUp x e) := by
  by_cases he : e < 4
  · have hk : 8 * e + 5 < 64 := by omega
    simp only [linkUp, setLink, bitN_eq_testBit, reg_setReg, if_true, Nat.testBit_mod_two_pow]
    rw [testBit_setBitsN _ _ _ (Nat.le_refl _), testBit_setBitsN _ _ _ (by omega)]
    by_cases h : e = d
    · subst h
      simp [he, hk]
    · rw [if_neg (by omega), if_neg (by omega)]
      simp [h, he, hk]
  · simp [linkUp, he, show e ≠ d by omega]
theorem setLink_kept (x : Site) (d spares : Nat) : SiteKept [0x076] x (setLink d spares x) :=
  ⟨rfl, rfl, rfl, fun m hm => by rw [setLink, reg_setReg, if_neg (by simpa using hm)]⟩
theorem opp_lt (d : Nat) : opp d < 4 := Nat.mod_lt _ (by omega)
theorem nbr_ne_self {sid d n : Nat} (h : nbr sid d = some n) : n ≠ sid := by
  have hx : siteX sid ≤ sid := Nat.le_trans (Nat.mod_le _ _) (Nat.mod_le _ _)
  have hy : siteY sid ≤ sid := Nat.le_trans (Nat.div_le_self _ _) (Nat.mod_le _ _)
  simp only [nbr] at h
  split at h
  case h_5 => cases h
  all_goals
    split at h
    · cases h
    · simp only [Option.some.injEq] at h
      omega

/-- Whether a start tests the link of a site to a neighbour: both have joined, and the log skips it at neither end. -/
def linkTested (s : State) (sid d n : Nat) : Bool :=
  !(!hasJoined (getSite s sid) || !hasJoined (getSite s n) || skips (getModule s (siteW sid)) sid (2 + d) ||
    skips (getModule s (siteW sid)) n (2 + opp d))
/-- R69: a link that is tested and passes, with at most 16 failed wires, comes up at both ends; no site changes otherwise. -/
theorem getSite_joinLink {sid d n : Nat} (hn : nbr sid d = some n) (up : Bool) (spares action : Nat) (s : State) (k : Nat) :
    getSite (joinLink sid d up spares action s) k =
      if linkTested s sid d n = true ∧ up = true ∧ spares ≤ 16 then
        if k = n then setLink (opp d) spares (getSite s n)
        else if k = sid then setLink d spares (getSite s sid) else getSite s k
      else getSite s k := by
  have hstep (a b c : Nat) (ok : Bool) : getSite (bootStep a b c ok s) = getSite s := by
    funext j
    simp only [getSite, bootStep_sites]
  have hguard : (!hasJoined (getSite s sid) || !hasJoined (getSite s n) || skips (getModule s (siteW sid)) sid (2 + d) ||
      skips (getModule s (siteW sid)) n (2 + opp d)) = !linkTested s sid d n := (Bool.not_not _).symm
  simp only [joinLink, hn, hguard]
  by_cases htested : linkTested s sid d n = true
  · by_cases hup : up = true ∧ spares ≤ 16
    · simp [htested, hup, getSite_modSite, hstep, nbr_ne_self hn]
    · have hdown : (up && decide (spares ≤ 16)) = false := by simpa using hup
      simp [htested, hup, hdown, hstep]
  · simp [htested]
theorem joinLink_none {sid d : Nat} (hn : nbr sid d = none) (up : Bool) (spares action : Nat) (s : State) :
    joinLink sid d up spares action s = s := by
  simp only [joinLink, hn]

theorem joinLink_kept (sid d : Nat) (up : Bool) (spares action : Nat) (s : State) :
    Kept [0x076] s (joinLink sid d up spares action s) := by
  simp only [joinLink]
  split
  · exact .refl _ s
  · split
    · exact .refl _ s
    · split
      · exact (((bootStep_kept _ _ _ _ s).weaken _).trans (kept_modSite _ _ (setLink_kept _ _ _))).trans
          (kept_modSite _ _ (setLink_kept _ _ _))
      · exact (bootStep_kept _ _ _ _ s).weaken _

/-- A link that is up stays up. -/
theorem linkUp_joinLink_mono {s : State} {k e d : Nat} (hd : d < 4) (h : linkUp (getSite s k) e = true) (sid : Nat) (up : Bool)
    (spares action : Nat) : linkUp (getSite (joinLink sid d up spares action s) k) e = true := by
  cases hn : nbr sid d with
  | none => rwa [joinLink_none hn]
  | some n =>
    rw [getSite_joinLink hn]
    split
    · split
      · next hk => rw [linkUp_setLink _ (opp_lt d), ← hk, h, Bool.or_true]
      · split
        · next hk => rw [linkUp_setLink _ hd, ← hk, h, Bool.or_true]
        · exact h
    · exact h
/-- The step of another side leaves a side of the joining site as it is. -/
theorem linkUp_joinLink_other {d e : Nat} (hd : d < 4) (he : e ≠ d) (sid : Nat) (up : Bool) (spares action : Nat) (s : State) :
    linkUp (getSite (joinLink sid d up spares action s) sid) e = linkUp (getSite s sid) e := by
  cases hn : nbr sid d with
  | none => rw [joinLink_none hn]
  | some n =>
    rw [getSite_joinLink hn, if_neg (nbr_ne_self hn).symm, if_pos rfl]
    split
    · simp [linkUp_setLink _ hd, he]
    · rfl
/-- A tested link comes up at both ends where its test passes with at most 16 failed wires, and stays as it is otherwise. -/
theorem linkUp_joinLink_tested {sid d n : Nat} {s : State} {spares : Nat} (hd : d < 4) (hn : nbr sid d = some n)
    (htested : linkTested s sid d n = true) (hspares : spares ≤ 16) (up : Bool) (action : Nat) :
    linkUp (getSite (joinLink sid d up spares action s) sid) d = (up || linkUp (getSite s sid) d) ∧
      (up = true → linkUp (getSite (joinLink sid d up spares action s) n) (opp d) = true) := by
  have hne := (nbr_ne_self hn).symm
  simp only [getSite_joinLink hn, htested, hspares, hne, true_and, and_true, if_true, if_false]
  cases up with
  | false => simp
  | true => simp [linkUp_setLink _ hd, linkUp_setLink _ (opp_lt d)]

/-! ### SITE_JOIN of one site -/

theorem joinAttach_kept (sid : Nat) (up : Bool) (action : Nat) (s : State) : Kept [] s (joinAttach sid up action s) := by
  unfold joinAttach
  split
  · exact .refl [] s
  · have hstep : Kept [] s (if ((getSite s sid).life != .hole) = true then bootStep sid 6 action up s else s) := by
      split
      · exact bootStep_kept _ _ _ _ s
      · exact .refl [] s
    refine hstep.trans (kept_of_eq ?_ ?_)
    all_goals
      dsimp only
      split <;> split <;> rfl

/-- A site as the outcome of its tests leaves it. -/
def siteOf (sid outcome : Nat) : Site :=
  match outcome with
  | 0 => bootSite sid
  | 1 => { id := sid, life := .transit }
  | _ => { id := sid, life := .hole }
/-- The machine with the core's and the router's tests logged, and the site placed. -/
def placeSite (t : SiteTest) (s : State) : State :=
  setSite (if (skips (getModule s (siteW t.sid)) t.sid 1 || !hasTester s t.sid) = true then s
    else bootStep t.sid 1 t.action (decide (outcomeOf s t < 2)) (bootStep t.sid 0 t.action (decide (outcomeOf s t < 1)) s))
    t.sid (siteOf t.sid (outcomeOf s t))
/-- The links of some sides of a site, one after another. -/
def joinLinks (t : SiteTest) (l : List Nat) (s : State) : State :=
  l.foldl (fun s d => joinLink t.sid d (bitN t.links d) (t.spares.getD d 0) t.action s) s
/-- A module with one site more settled. -/
def countSite (sid outcome : Nat) (u : Module) : Module :=
  { u with
    settled := u.settled + 1
    joined := u.joined + (if outcome = 0 then 1 else 0)
    lives := if outcome = 0 then u.lives else addLife u.lives (2 + fieldOf sid) 1 }
/-- A join up to the count of its site, and with it. -/
def joinTested (t : SiteTest) (s : State) : State :=
  joinAttach t.sid t.attach t.action (joinLinks t (upto 4) (placeSite t s))
def joinCounted (t : SiteTest) (s : State) : State :=
  modModule (joinTested t s) (siteW t.sid) (countSite t.sid (outcomeOf s t))
theorem joinSite_eq (t : SiteTest) (s : State) :
    joinSite t s = if outcomeOf s t = 0 then putCapList (joinCounted t s) t.sid else joinCounted t s := rfl
theorem joinSite_kept (t : SiteTest) (s : State) : Kept [] (joinCounted t s) (joinSite t s) := by
  rw [joinSite_eq]
  split
  · exact putCapList_kept _ _
  · exact .refl [] _

theorem joinLinks_kept (t : SiteTest) (l : List Nat) (s : State) : Kept [0x076] s (joinLinks t l s) :=
  kept_foldl (fun s d => joinLink_kept t.sid d (bitN t.links d) (t.spares.getD d 0) t.action s) l s
theorem placeSite_module (t : SiteTest) (s : State) (w : Nat) :
    ModuleKept (getModule s w) (getModule (placeSite t s) w) := by
  unfold placeSite
  split
  · exact .refl _
  · exact ((bootStep_kept _ _ _ _ s).trans (bootStep_kept _ _ _ _ _)).modules w
theorem getSite_placeSite (t : SiteTest) (s : State) (n : Nat) :
    getSite (placeSite t s) n = if n = t.sid then siteOf t.sid (outcomeOf s t) else getSite s n := by
  rw [placeSite, getSite_setSite]
  split
  · rfl
  · split
    · rfl
    · simp only [getSite, bootStep_sites]

/-- The count of a site and its capability list change no site otherwise. -/
theorem joinSite_site (t : SiteTest) (s : State) (n : Nat) :
    SiteKept [] (getSite (joinLinks t (upto 4) (placeSite t s)) n) (getSite (joinSite t s) n) := by
  exact ((joinAttach_kept t.sid t.attach t.action _).sites n).trans ((joinSite_kept t s).sites n)
theorem joinSite_self (t : SiteTest) (s : State) :
    SiteKept [0x076] (siteOf t.sid (outcomeOf s t)) (getSite (joinSite t s) t.sid) := by
  have h := ((joinLinks_kept t (upto 4) (placeSite t s)).sites t.sid).trans ((joinSite_site t s t.sid).weaken _)
  rwa [getSite_placeSite, if_pos rfl] at h
theorem joinSite_other (t : SiteTest) (s : State) {n : Nat} (hn : n ≠ t.sid) :
    SiteKept [0x076] (getSite s n) (getSite (joinSite t s) n) := by
  have h := ((joinLinks_kept t (upto 4) (placeSite t s)).sites n).trans ((joinSite_site t s n).weaken _)
  rwa [getSite_placeSite, if_neg hn] at h
theorem countSite_kept {u v : Module} (h : ModuleKept u v) (sid outcome : Nat) :
    ModuleKept (countSite sid outcome u) (countSite sid outcome v) :=
  ⟨congrArg (· + 1) h.settled, congrArg (· + if outcome = 0 then 1 else 0) h.joined, h.tests, h.startLog⟩
/-- The site's module counts it; what bring-up counts and reads of modules is the same otherwise. -/
theorem joinSite_module (t : SiteTest) (s : State) (w : Nat) :
    ModuleKept (if w = siteW t.sid then countSite t.sid (outcomeOf s t) (getModule s w) else getModule s w)
      (getModule (joinSite t s) w) := by
  have htested : ModuleKept (getModule s w) (getModule (joinTested t s) w) :=
    ((placeSite_module t s w).trans ((joinLinks_kept t (upto 4) _).modules w)).trans ((joinAttach_kept _ _ _ _).modules w)
  refine ModuleKept.trans ?_ ((joinSite_kept t s).modules w)
  rw [joinCounted, getModule_modModule]
  split
  · next hw => subst hw; exact countSite_kept htested _ _
  · exact htested

/-! ### The links of a site that joins -/

theorem linkTested_of_kept {but : List Nat} {s t : State} (h : Kept but s t) (sid d n : Nat) :
    linkTested t sid d n = linkTested s sid d n := by
  simp only [linkTested, hasJoined, skips, (h.sites _).life, (h.modules _).startLog]
theorem linkUp_joinLinks_mono (t : SiteTest) {l : List Nat} (hl : ∀ d ∈ l, d < 4) {k e : Nat} :
    ∀ {s : State}, linkUp (getSite s k) e = true → linkUp (getSite (joinLinks t l s) k) e = true := by
  induction l with
  | nil => exact fun h => h
  | cons d l ih =>
    rw [List.forall_mem_cons] at hl
    exact fun h => ih hl.2 (linkUp_joinLink_mono hl.1 h _ _ _ _)
theorem linkUp_joinLinks_other (t : SiteTest) {l : List Nat} (hl : ∀ d ∈ l, d < 4) {e : Nat} (he : e ∉ l) :
    ∀ s, linkUp (getSite (joinLinks t l s) t.sid) e = linkUp (getSite s t.sid) e := by
  induction l with
  | nil => exact fun _ => rfl
  | cons d l ih =>
    rw [List.forall_mem_cons] at hl
    rw [List.mem_cons, not_or] at he
    exact fun s => (ih hl.2 he.2 _).trans (linkUp_joinLink_other hl.1 he.1 _ _ _ _ s)
/-- A tested link among those of some sides: what its own step does, the steps before and after keep. -/
theorem linkUp_joinLinks (t : SiteTest) {l : List Nat} (hl : ∀ d ∈ l, d < 4) (hnodup : l.Nodup) {d n : Nat} (hd : d ∈ l)
    (hn : nbr t.sid d = some n) (hspares : t.spares.getD d 0 ≤ 16) :
    ∀ {s : State}, linkTested s t.sid d n = true →
      linkUp (getSite (joinLinks t l s) t.sid) d = (bitN t.links d || linkUp (getSite s t.sid) d) ∧
      (bitN t.links d = true → linkUp (getSite (joinLinks t l s) n) (opp d) = true) := by
  induction l with
  | nil => cases hd
  | cons e l ih =>
    rw [List.forall_mem_cons] at hl
    rw [List.nodup_cons] at hnodup
    intro s htested
    by_cases hde : d = e
    · subst hde
      obtain ⟨hself, hother⟩ := linkUp_joinLink_tested hl.1 hn htested hspares (bitN t.links d) t.action
      exact ⟨(linkUp_joinLinks_other t hl.2 hnodup.1 _).trans hself, fun h => linkUp_joinLinks_mono t hl.2 (hother h)⟩
    · have hkept := joinLink_kept t.sid e (bitN t.links e) (t.spares.getD e 0) t.action s
      obtain ⟨hself, hother⟩ := ih hl.2 hnodup.2 ((List.mem_cons.1 hd).resolve_left hde)
        ((linkTested_of_kept hkept _ _ _).trans htested)
      exact ⟨hself.trans (by rw [linkUp_joinLink_other hl.1 hde]), hother⟩
theorem linkUp_siteOf (sid outcome d : Nat) : linkUp (siteOf sid outcome) d = false := by
  have hreg : reg (siteOf sid outcome) 0x076 = 0 := by
    unfold siteOf
    split <;> rfl
  rw [linkUp, hreg, bitN_eq_testBit, Nat.zero_testBit, Bool.and_false]
theorem hasJoined_siteOf (sid : Nat) {outcome : Nat} (h : outcome < 2) : hasJoined (siteOf sid outcome) = true := by
  rcases show outcome = 0 ∨ outcome = 1 by omega with rfl | rfl <;> rfl
/-- R69, R438: a side of a site that joins, to a neighbour that has joined, where the log skips nothing. -/
theorem linkUp_joinSite {t : SiteTest} {s : State} {d n : Nat} (hd : d < 4) (hn : nbr t.sid d = some n)
    (hlog : (getModule s (siteW t.sid)).startLog = []) (houtcome : outcomeOf s t < 2) (hjoined : hasJoined (getSite s n) = true)
    (hspares : t.spares.getD d 0 ≤ 16) :
    linkUp (getSite (joinSite t s) t.sid) d = bitN t.links d ∧
      (bitN t.links d = true → linkUp (getSite (joinSite t s) n) (opp d) = true) := by
  have hskips (j unit : Nat) : skips (getModule (placeSite t s) (siteW t.sid)) j unit = false :=
    skips_of_startLog_nil ((placeSite_module t s _).startLog.trans hlog) j unit
  have htested : linkTested (placeSite t s) t.sid d n = true := by
    simp [linkTested, hskips, getSite_placeSite, nbr_ne_self hn, hjoined, hasJoined_siteOf t.sid houtcome]
  have hlinks := linkUp_joinLinks t (l := upto 4) (fun e he => List.mem_range.1 he) List.nodup_range (List.mem_range.2 hd)
    hn hspares htested
  rw [(joinSite_site t s t.sid).linkUp, (joinSite_site t s n).linkUp]
  simpa [getSite_placeSite, linkUp_siteOf] using hlinks

/-! ### The outcome of a site's tests -/

/-- R441, log 157: a site whose router's step the log skips, or that nothing tests, is a hole. -/
theorem outcomeOf_untested {s : State} {t : SiteTest}
    (h : hasTester s t.sid = false ∨ skips (getModule s (siteW t.sid)) t.sid 1 = true) : outcomeOf s t = 2 := by
  rcases h with h | h <;> simp [outcomeOf, h]
/-- R429, R438: the outcome of a site that is tested with nothing skipped. -/
theorem outcomeOf_tested {s : State} {t : SiteTest} (hlog : (getModule s (siteW t.sid)).startLog = [])
    (htester : hasTester s t.sid = true) : outcomeOf s t = max (min 2 t.outcome) (unpowered s t.sid) := by
  simp [outcomeOf, htester, skips_of_startLog_nil hlog]
theorem unpowered_le (s : State) (sid : Nat) : unpowered s sid ≤ 2 := by
  simp only [unpowered]
  split
  · omega
  · split <;> omega

/-! ### SITE_JOIN -/

/-- The tests of a site as the event's operands give them. -/
def siteTest (s : State) : SiteTest :=
  { sid := argAt s 0, outcome := argAt s 1, links := argAt s 2, attach := argAt s 3 == 1
    spares := (upto 4).map fun d => argAt s (5 + d), action := argAt s 4 }
theorem siteTest_spares (s : State) {d : Nat} (hd : d < 4) : (siteTest s).spares.getD d 0 = argAt s (5 + d) := by
  simp [siteTest, upto, List.getD, hd]
/-- Bring-up completed where every site of a module has settled. -/
def completeBoot (w : Nat) (s : State) : State :=
  if (getModule s w).settled = 36864 ∧ (getModule s w).tests = [] then finishBoot w s else s
theorem completeBoot_kept (w : Nat) (s : State) : Kept [] s (completeBoot w s) := by
  unfold completeBoot
  split
  · exact finishBoot_kept w s
  · exact .refl [] s
/-- Sites that join one after another. -/
def joinSites (l : List SiteTest) (s : State) : State := l.foldl (fun s t => joinSite t s) s

/-- R438: in EDGE-WAVE a site joins when its tests end. -/
theorem exec_siteJoin_edgeWave {s : State} {sid : Nat} (hsid : argAt s 0 = sid) (hmay : mayJoin s sid = true)
    (hmode : (getModule s (siteW sid)).cfg.getLsbD 0 = false) :
    exec .siteJoin s = .next (completeBoot (siteW sid) (joinSite (siteTest s) s)) := by
  subst hsid
  simp only [exec_siteJoin, execSiteJoin, hmay, bit_eq_getLsbD, hmode, Bool.not_true, Bool.not_false, Bool.false_eq_true,
    if_false, if_true]
  rfl
/-- R438: in PORT-FIRST a test is kept until the region's sites have all been tested; then they join. -/
theorem exec_siteJoin_portFirst {s : State} {sid : Nat} (hsid : argAt s 0 = sid) (hmay : mayJoin s sid = true)
    (hmode : (getModule s (siteW sid)).cfg.getLsbD 0 = true) :
    exec .siteJoin s = .next (completeBoot (siteW sid)
      (if (getModule s (siteW sid)).tests.length < 2303 then
        modModule s (siteW sid) fun u => { u with tests := (getModule s (siteW sid)).tests ++ [siteTest s] }
      else joinSites ((getModule s (siteW sid)).tests ++ [siteTest s])
        (modModule s (siteW sid) fun u => { u with tests := [] }))) := by
  subst hsid
  have hlength (l : List SiteTest) (t : SiteTest) : (l ++ [t]).length < 2304 ↔ l.length < 2303 := by
    rw [List.length_append, List.length_singleton]
    omega
  simp only [exec_siteJoin, execSiteJoin, hmay, bit_eq_getLsbD, hmode, hlength, Bool.not_true, Bool.false_eq_true, if_false]
  rfl

theorem siteOf_life (sid outcome : Nat) :
    (siteOf sid outcome).life = if outcome = 0 then .live else if outcome = 1 then .transit else .hole := by
  unfold siteOf
  split
  · rfl
  · rfl
  · next h0 h1 => rw [if_neg h0, if_neg h1]
theorem joinSite_life (t : SiteTest) (s : State) : (getSite (joinSite t s) t.sid).life =
    if outcomeOf s t = 0 then .live else if outcomeOf s t = 1 then .transit else .hole :=
  (joinSite_self t s).life.trans (siteOf_life _ _)
/-- A site that joins, or has joined before, has settled. -/
theorem joinSite_settles (t : SiteTest) (s : State) {n : Nat} (h : n = t.sid ∨ (getSite s n).life ≠ .unjoined) :
    (getSite (joinSite t s) n).life ≠ .unjoined := by
  by_cases hn : n = t.sid
  · rw [hn, joinSite_life]
    split
    · decide
    · split <;> decide
  · rw [(joinSite_other t s hn).life]
    exact h.resolve_left hn
theorem joinSites_settle {l : List SiteTest} {n : Nat} : ∀ {s : State}, (∃ t ∈ l, n = t.sid) ∨ (getSite s n).life ≠ .unjoined →
    (getSite (joinSites l s) n).life ≠ .unjoined := by
  induction l with
  | nil => exact fun h => h.resolve_left (by simp)
  | cons t l ih =>
    intro s h
    rcases h with ⟨e, he, hn⟩ | hlife
    · rcases List.mem_cons.1 he with rfl | he
      · exact ih (.inr (joinSite_settles e s (.inl hn)))
      · exact ih (.inl ⟨e, he, hn⟩)
    · exact ih (.inr (joinSite_settles t s (.inr hlife)))
theorem joinSites_module {l : List SiteTest} {w : Nat} (hl : ∀ t ∈ l, siteW t.sid = w) : ∀ s,
    (getModule (joinSites l s) w).settled = (getModule s w).settled + l.length ∧
      (getModule (joinSites l s) w).tests = (getModule s w).tests := by
  induction l with
  | nil => exact fun _ => ⟨rfl, rfl⟩
  | cons t l ih =>
    intro s
    rw [List.forall_mem_cons] at hl
    have hmod := joinSite_module t s w
    rw [if_pos hl.1.symm] at hmod
    obtain ⟨hsettled, htests⟩ := ih hl.2 (joinSite t s)
    refine ⟨hsettled.trans ?_, htests.trans hmod.tests⟩
    rw [hmod.settled, List.length_cons]
    exact Nat.add_right_comm _ 1 _

end Sys2Proof.Laws

/-! Obligations of the family 01_wafer: module reset and the joining of sites (O45). -/

namespace Sys2Proof.Proofs

open Sys2Proof Sys2Proof.Machine Sys2Proof.Claims Sys2Proof.Laws

theorem moduleReset : ModuleReset := by
  intro s w hs
  have hreset := resetWafer_resets w s
  cases hslot : bootSlot (getModule s w) with
  | none =>
    obtain ⟨hsite, hother, hport, himage, htime⟩ := hreset
    refine ⟨_, exec_moduleReset_of_none hs hslot, hsite, hother, hport, himage, htime, fun k hk => ?_, fun _ => ?_⟩
    · rw [← bootSlot_eq_some_iff, hslot] at hk
      cases hk
    · rw [getModule_resetWafer_self]
      exact ⟨rfl, fun i hi => getMgmt_resetWafer hi s⟩
  | some k =>
    obtain ⟨hsite, hother, hport, himage, htime⟩ := startModule_resets hreset k
    refine ⟨_, exec_moduleReset_of_some hs hslot, hsite, hother, hport, himage, htime, fun j hj => ?_,
      fun hnone => absurd (bootSlot_eq_some_iff.1 hslot) (hnone k)⟩
    rw [← bootSlot_eq_some_iff, hslot, Option.some.injEq] at hj
    subst hj
    rw [getModule_startModule, if_pos rfl]
    refine ⟨rfl, rfl, fun i hi => ?_⟩
    simp only [mgmtByte, getMgmt_startModule hi, getModule_resetWafer_self, mget_bootMgmt_store]
    exact ⟨rfl, rfl, fun a => rfl⟩

/-- A site joins, and bring-up is completed where it is the last of its module. -/
def joinAndComplete (t : SiteTest) (s : State) : State := completeBoot (siteW t.sid) (joinSite t s)

theorem siteJoined (t : SiteTest) (s : State) :
    SiteKept [0x076] (siteOf t.sid (outcomeOf s t)) (getSite (joinAndComplete t s) t.sid) :=
  (joinSite_self t s).trans (((completeBoot_kept _ _).sites _).weaken _)
theorem siteJoined_life (t : SiteTest) (s : State) : (getSite (joinAndComplete t s) t.sid).life =
    if outcomeOf s t = 0 then .live else if outcomeOf s t = 1 then .transit else .hole :=
  (siteJoined t s).life.trans (siteOf_life _ _)
theorem siteJoined_module (t : SiteTest) (s : State) :
    ModuleKept (countSite t.sid (outcomeOf s t) (getModule s (siteW t.sid)))
      (getModule (joinAndComplete t s) (siteW t.sid)) := by
  have h := (joinSite_module t s (siteW t.sid)).trans ((completeBoot_kept (siteW t.sid) _).modules _)
  rwa [if_pos rfl] at h
/-- A site that joins without a core is transit-only or a hole, and no live core is counted. -/
theorem siteJoined_coreless {t : SiteTest} {s : State} {o : Nat} (h : outcomeOf s t = o + 1) :
    (getSite (joinAndComplete t s) t.sid).life = (if o = 0 then .transit else .hole) ∧
      (getModule (joinAndComplete t s) (siteW t.sid)).joined = (getModule s (siteW t.sid)).joined := by
  rw [siteJoined_life, (siteJoined_module t s).joined, h]
  exact ⟨by simp, rfl⟩
/-- R439: a core that passes is live, with the page map, HTAB_BASE and MBOX_CFG of bring-up, its supervisor context idle. -/
theorem siteJoined_live {t : SiteTest} {s : State} (h : outcomeOf s t = 0) :
    let x := getSite (joinAndComplete t s) t.sid
    x.life = .live ∧ (getModule (joinAndComplete t s) (siteW t.sid)).joined = (getModule s (siteW t.sid)).joined + 1 ∧
      (∀ v, v < 512 → tget 0 x.core.pmap v = BitVec.ofNat 64 (joinedPage v)) ∧ reg x 0x046 = 0x8000 ∧
      regF x 0x055 14 0 = 16 + 16 * 2 ^ 9 ∧ x.core.sup.st = .idle ∧ regF x 0x023 21 21 = 0 := by
  have hsite := siteJoined t s
  have hmod := siteJoined_module t s
  rw [h] at hsite hmod
  refine ⟨hsite.life, hmod.joined, fun v _ => ?_, ?_, ?_, ?_, ?_⟩
  · rw [hsite.pmap, siteOf, bootSite, bootCore_pmap, tget_bootPmap]
  · exact hsite.reg 0x046 (by decide)
  · rw [regF, hsite.reg 0x055 (by decide), show reg (siteOf t.sid 0) 0x055 = 16 + 16 * 2 ^ 9 from rfl]
    rfl
  · rw [hsite.sup, siteOf, bootSite, bootCore_sup]
  · rw [regF, hsite.reg 0x023 (by decide), show reg (siteOf t.sid 0) 0x023 = 0 from rfl]
    rfl
/-- R69: the link to a neighbour that has joined. -/
theorem siteJoined_link {t : SiteTest} {s : State} {d n : Nat} (hd : d < 4) (hn : nbr t.sid d = some n)
    (hlog : (getModule s (siteW t.sid)).startLog = []) (houtcome : outcomeOf s t < 2) (hspares : t.spares.getD d 0 ≤ 16)
    (hjoined : (getSite s n).life = .live ∨ (getSite s n).life = .transit) :
    linkUp (getSite (joinAndComplete t s) t.sid) d = t.links.testBit d ∧
      (t.links.testBit d = true → linkUp (getSite (joinAndComplete t s) n) (opp d) = true) := by
  have hkept (k : Nat) := ((completeBoot_kept (siteW t.sid) (joinSite t s)).sites k)
  rw [joinAndComplete, (hkept _).linkUp, (hkept _).linkUp, ← bitN_eq_testBit]
  exact linkUp_joinSite hd hn hlog houtcome (by simpa [hasJoined] using hjoined) hspares

/-- R438, R441: SITE_JOIN in EDGE-WAVE. -/
theorem siteJoin_edgeWave {s : State} {sid tested links : Nat} {rest : List Nat} (hs : s.arg = sid :: tested :: links :: rest)
    (hmay : mayJoin s sid = true) (hmode : (getModule s (siteW sid)).cfg.getLsbD 0 = false) :
    ∃ t : SiteTest, t.sid = sid ∧ t.outcome = tested ∧ t.links = links ∧
      (∀ d, d < 4 → t.spares.getD d 0 = rest.getD (2 + d) 0) ∧ exec .siteJoin s = .next (joinAndComplete t s) := by
  have harg : argAt s 0 = sid := by rw [argAt, hs]; rfl
  refine ⟨siteTest s, harg, ?_, ?_, fun d hd => ?_, ?_⟩
  · simp [siteTest, argAt, hs]
  · simp [siteTest, argAt, hs]
  · rw [siteTest_spares s hd, argAt, hs, show 5 + d = 2 + d + 3 by omega]
    rfl
  · rw [exec_siteJoin_edgeWave harg hmay hmode, ← harg]
    rfl

/-- R438: SITE_JOIN in PORT-FIRST. -/
theorem siteJoin_portFirst {s : State} {sid : Nat} {rest : List Nat} (hs : s.arg = sid :: rest) (hmay : mayJoin s sid = true)
    (hmode : (getModule s (siteW sid)).cfg.getLsbD 0 = true) :
    let u := getModule s (siteW sid)
    ∃ t, exec .siteJoin s = .next t ∧
      (u.tests.length < 2303 → t.sites = s.sites ∧ (getModule t (siteW sid)).settled = u.settled ∧
        ∃ e, (getModule t (siteW sid)).tests = u.tests ++ [e] ∧ e.sid = sid) ∧
      (u.tests.length = 2303 → (∀ e ∈ u.tests, siteW e.sid = siteW sid) → (getModule t (siteW sid)).tests = [] ∧
        (getModule t (siteW sid)).settled = u.settled + 2304 ∧ (getSite t sid).life ≠ .unjoined ∧
        ∀ e ∈ u.tests, (getSite t e.sid).life ≠ .unjoined) := by
  intro u
  have harg : argAt s 0 = sid := by rw [argAt, hs]; rfl
  refine ⟨_, exec_siteJoin_portFirst harg hmay hmode, fun hlen => ?_, fun hlen hwafer => ?_⟩
  · have hsite : (siteTest s).sid = sid := harg
    rw [if_pos hlen, completeBoot, if_neg (by simp)]
    simp only [getModule_modModule, if_true]
    exact ⟨rfl, rfl, siteTest s, rfl, hsite⟩
  · let cleared := modModule s (siteW sid) fun u => { u with tests := [] }
    have hall : ∀ e ∈ u.tests ++ [siteTest s], siteW e.sid = siteW sid := by
      intro e he
      rcases List.mem_append.1 he with he | he
      · exact hwafer e he
      · rw [List.mem_singleton.1 he]
        exact congrArg siteW harg
    obtain ⟨hsettled, htests⟩ := joinSites_module hall cleared
    have hkept := completeBoot_kept (siteW sid) (joinSites (u.tests ++ [siteTest s]) cleared)
    have hlife (e : SiteTest) (he : e ∈ u.tests ++ [siteTest s]) :
        (getSite (joinSites (u.tests ++ [siteTest s]) cleared) e.sid).life ≠ .unjoined :=
      joinSites_settle (.inl ⟨e, he, rfl⟩)
    rw [if_neg (Nat.not_lt.2 (Nat.le_of_eq hlen.symm))]
    refine ⟨?_, ?_, ?_, fun e he => ?_⟩
    · rw [(hkept.modules _).tests, htests]
      simp [cleared]
    · rw [(hkept.modules _).settled, hsettled, List.length_append, hlen]
      simp [cleared, u]
    · rw [(hkept.sites _).life, ← harg]
      exact hlife (siteTest s) (by simp)
    · rw [(hkept.sites _).life]
      exact hlife e (List.mem_append_left _ he)

theorem sitesJoin : SitesJoin := by
  refine ⟨fun s sid tested links rest hs hmay hmode => ?_, fun s sid rest hs hmay hmode => siteJoin_portFirst hs hmay hmode⟩
  obtain ⟨t, rfl, rfl, rfl, hspares, hexec⟩ := siteJoin_edgeWave hs hmay hmode
  refine ⟨_, hexec, (siteJoined_module t s).settled, fun huntested => ?_, fun hlog htester => ?_⟩
  · refine siteJoined_coreless (o := 1) (outcomeOf_untested (huntested.imp_right ?_))
    rintro ⟨e, he, hkey, hone⟩
    exact skips_of_entry he hkey (logKey_lt _ 1 (by omega)) hone
  · have houtcome := outcomeOf_tested hlog htester
    have hpower := unpowered_le s t.sid
    refine ⟨fun h => ?_, fun htested hpowered h => ?_, fun htested hpowered => ?_, fun d n hd hn htested hpowered hwires hjoined => ?_⟩
    · exact siteJoined_coreless (o := 1) (by omega)
    · exact siteJoined_coreless (o := 0) (by omega)
    · exact siteJoined_live (by omega)
    · exact siteJoined_link hd hn hlog (by omega) (Nat.le_trans (Nat.le_of_eq (hspares d hd)) hwires) hjoined

/-- Settles O45: MODULE_RESET by what it leaves of sites, memories and management cores, SITE_JOIN by what each of its steps
keeps. -/
theorem bringUp : Obligations.BringUp := ⟨moduleReset, sitesJoin⟩

end Sys2Proof.Proofs

/-! SUPPORT. Strands, groups and the Tumbler: a site changed alone, and what EXIT, the end of DRAINING, a release that takes
effect and the zeroing of a line leave of a core (R98, R113, R122, R128). -/

namespace Sys2Proof.Laws

open Sys2Proof Sys2Proof.Machine Sys2Proof.Claims

theorem onlySite_modSite (s : State) (sid : Nat) (f : Site → Site) : onlySite s (modSite s sid f) sid :=
  ⟨fun m hm => by rw [getSite_modSite, if_neg hm], rfl⟩
theorem argAt_of_arg {s : State} {l : List Nat} (h : s.arg = l) (k : Nat) : argAt s k = l.getD k 0 := by rw [argAt, h]

/-! ### Groups -/

theorem groupOf_modGroup (c : Core) (g h : Nat) (f : Group → Group) :
    groupOf (modGroup c g f) h = if h = g then (groupOf c g).map f else groupOf c h := by
  unfold modGroup groupOf
  split
  · next e => simp [e]
  · next e => split <;> simp_all
theorem groupOf_modGroup_self {c : Core} {g : Nat} {gr : Group} (h : groupOf c g = some gr) (f : Group → Group) :
    groupOf (modGroup c g f) g = some (f gr) := by
  rw [groupOf_modGroup, if_pos rfl, h, Option.map_some]
/-- What does not depend on a core's groups reads alike when one of them changes. -/
theorem modGroup_reads {α : Type} (read : Core → α) (hread : ∀ c l, read { c with groups := l } = read c) (c : Core)
    (g : Nat) (f : Group → Group) : read (modGroup c g f) = read c := by
  unfold modGroup
  split
  · exact hread c _
  · rfl
theorem drainIfEmpty_reads {α : Type} (read : Core → α) (hread : ∀ c l, read { c with groups := l } = read c) (c : Core)
    (g : Nat) : read (drainIfEmpty c g) = read c := by
  unfold drainIfEmpty
  split
  · split
    · exact hread c _
    · rfl
  · rfl
/-- R98: a group whose last strand has gone is DRAINING. -/
theorem groupOf_drainIfEmpty_self {c : Core} {g : Nat} {gr : Group} (h : groupOf c g = some gr) :
    groupOf (drainIfEmpty c g) g =
      some (if gr.live = [] then { gr with st := .draining, victim := false, start := false } else gr) := by
  simp only [drainIfEmpty, h]
  split
  · simp [groupOf]
  · exact h

/-! ### EXIT -/

/-- The mailbox copy that a strand holds, freed. -/
def freeHeld (c : Core) (key : Nat) : Core :=
  match (strandOf c key).heldCopy with | some i => freeCopies c [i] | none => c
/-- The slot that a strand stands in, free. -/
def clearSlot (c : Core) (key : Nat) : Core :=
  match findSlot c key with | some k => { c with slots := terase c.slots k } | none => c
/-- What the core keeps for a strand that exits, dropped, and its banks returned. -/
def forgetStrand (c : Core) (key : Nat) : Core :=
  { c with bankOf := c.bankOf.filter fun e => e.2 != key
           strands := terase c.strands key
           scalars := orphans c.scalars key
           vectors := vecOrphans c.vectors key
           allowQ := c.allowQ.filter fun k => k != key
           tum := { c.tum with releases := c.tum.releases.filter fun r =>
                      match r with | .banks k _ => k != key | _ => true } }
/-- A strand's index taken from those of its group that live. -/
def leaveGroup (c : Core) (key : Nat) : Core :=
  modGroup c (key / 16) fun gr => { gr with live := gr.live.filter fun i => i != key % 16 }

theorem freeStrand_exits_core (x : Site) (key : Nat) :
    (freeStrand x key true).core = released (leaveGroup (forgetStrand (clearSlot (freeHeld x.core key) key) key) key) := by
  unfold freeStrand
  by_cases h : (true && (strandOf x.core key).deferred.isSome) = true
  · simp only [h, if_true]; rfl
  · simp only [h]; rfl

theorem freeHeld_eq (c : Core) (key : Nat) : freeHeld c key = { c with copies := (freeHeld c key).copies } := by
  unfold freeHeld
  split <;> rfl
theorem clearSlot_freeHeld {c : Core} {key k : Nat} (h : findSlot c key = some k) :
    clearSlot (freeHeld c key) key = { freeHeld c key with slots := terase c.slots k } := by
  have hfind : findSlot (freeHeld c key) key = some k := by rw [freeHeld_eq]; exact h
  have hslots : (freeHeld c key).slots = c.slots := by rw [freeHeld_eq]
  simp only [clearSlot, hfind, hslots]

/-- What EXIT of strand `key` from slot k leaves of its core (R113). -/
structure StrandGone (key k : Nat) (c c' : Core) : Prop where
  mem : c'.mem = c.mem
  slots : c'.slots = terase c.slots k
  strands : c'.strands = terase c.strands key
  bankOf : c'.bankOf = c.bankOf.filter fun e => e.2 != key
  group : ∀ gr, groupOf c (key / 16) = some gr →
    groupOf c' (key / 16) = some { gr with live := gr.live.filter fun i => i != key % 16 }

theorem strandGone_freeStrand {x : Site} {key k : Nat} (h : findSlot x.core key = some k) :
    StrandGone key k x.core (freeStrand x key true).core := by
  rw [freeStrand_exits_core, clearSlot_freeHeld h, freeHeld_eq]
  generalize (freeHeld x.core key).copies = copies
  let c := forgetStrand { x.core with copies := copies, slots := terase x.core.slots k } key
  have reads {α : Type} (read : Core → α) (hread : ∀ c l, read { c with groups := l } = read c) :
      read (leaveGroup c key) = read c := modGroup_reads read hread c _ _
  exact ⟨reads Core.mem fun _ _ => rfl, reads Core.slots fun _ _ => rfl, reads Core.strands fun _ _ => rfl,
    reads Core.bankOf fun _ _ => rfl, fun gr hgr => groupOf_modGroup_self (c := c) hgr _⟩

/-! ### Releases -/

/-- R128: a release that can be applied is applied and leaves the list, and a re-evaluation is due. -/
theorem doRelease_of_canRelease {c : Core} {i : Nat} {r : Release} (h : c.tum.releases[i]? = some r)
    (hcan : canRelease c r = true) :
    doRelease c i = { released (applyRelease c r) with
      tum := settleTumbler { (released (applyRelease c r)).tum with releases := c.tum.releases.eraseIdx i } } := by
  simp [doRelease, h, hcan]
theorem doRelease_of_not_canRelease {c : Core} {i : Nat} {r : Release} (h : c.tum.releases[i]? = some r)
    (hcan : canRelease c r = false) : doRelease c i = c := by
  simp [doRelease, h, hcan]
/-- A re-evaluation is due once what the cycle has released is settled. -/
theorem settleTumbler_released (c : Core) : (settleTumbler (released c).tum).reeval = true := Bool.or_true _

/-- R128: a release of one group's that changes that group alone. -/
theorem doRelease_modGroup {c : Core} {i g : Nat} {r : Release} {gr : Group} {f : Group → Group}
    (h : c.tum.releases[i]? = some r) (hcan : canRelease c r = true) (happly : applyRelease c r = modGroup c g f)
    (hgr : groupOf c g = some gr) :
    (doRelease c i).mem = c.mem ∧ groupOf (doRelease c i) g = some (f gr) ∧
      (doRelease c i).tum.releases = c.tum.releases.eraseIdx i ∧ (doRelease c i).tum.reeval = true := by
  rw [doRelease_of_canRelease h hcan, happly]
  exact ⟨modGroup_reads Core.mem (fun _ _ => rfl) c g f, groupOf_modGroup_self hgr f, rfl, settleTumbler_released _⟩

/-! ### A store in one line of the local store, and the zeroing of a line -/

/-- What a store at a physical offset changes of a core: bytes, and what is kept of errors and of the frames' lines. -/
theorem storePhys_reads {α : Type} (read : Core → α)
    (hread : ∀ c m b cor f st, read { c with mem := m, bad := b, correctable := cor, found := f, stored := st } = read c)
    (c : Core) (p n v : Nat) : read (storePhys c p n v) = read c := by
  unfold storePhys
  split
  · rfl
  · split
    · exact hread c _ _ _ _ _
    · exact hread c _ _ _ _ c.stored
/-- R111: a store takes effect where the hardware has not written that line of a frame in the cycle. -/
theorem storePhys_mem {c : Core} {p : Nat} (h : p / 32 ∉ c.frameLines) (n v : Nat) :
    (storePhys c p n v).mem = mwrite c.mem p n v := by
  unfold storePhys
  rw [if_neg (by simpa using h)]
  split <;> rfl
/-- R122: a zeroed line reads zero, and every other byte as before. -/
theorem mget_zeroLine {c : Core} {l : Nat} (h : 32 * l / 32 ∉ c.frameLines) (p : Nat) :
    mget (zeroLine c l).mem p = if p / 32 = l then 0 else mget c.mem p := by
  rw [zeroLine, storePhys_mem h]
  by_cases hp : p / 32 = l
  · rw [if_pos hp, show p = 32 * l + (p - 32 * l) by omega, mget_mwrite_inside _ _ _ _ _ (by omega), Nat.zero_div]
    rfl
  · rw [if_neg hp, mget_mwrite_other _ _ _ _ _ (by omega)]

/-! ### Results delivered to a strand that stands in a slot -/

/-- What does not depend on slots and strands reads alike when one of either changes. -/
theorem slotSetG_reads {α : Type} (read : Core → α) (hread : ∀ c l p, read { c with slots := l, pool := p } = read c)
    (c : Core) (k r : Nat) (v : Word) : read (slotSetG c k r v) = read c := by
  unfold slotSetG
  split
  · exact hread c _ c.pool
  · split
    · exact hread c _ _
    · rfl
/-- A general register of a slot whose bank is mapped reads what was written; g0 reads zero. -/
theorem gGet_slotSetG {c : Core} {k d : Nat} (v : Word) (h : gMapped (slotOf c k).ctx d = true) :
    gGet (slotSetG c k d v) (slotOf (slotSetG c k d v) k).ctx d = if d = 0 then 0 else v := by
  by_cases hd : d < 16
  · simp only [slotSetG, if_pos hd, slotOf_modSlot, if_true, gGet, setResident_g]
    by_cases h0 : d = 0 <;> simp [h0]
  · have h0 : d ≠ 0 := by omega
    simp only [gMapped, hd, decide_false, Bool.false_or] at h
    obtain ⟨b, hb⟩ := Option.isSome_iff_exists.mp h
    simp [slotSetG, gGet, hd, h0, poolIdx, hb]
@[simp] theorem readG_seenBy (s : State) (sid k r : Nat) :
    readG (seenBy s sid k) r = gGet (getSite s sid).core (slotOf (getSite s sid).core k).ctx r := rfl

/-- The entry that is found by its value keeps its key when that key's value is replaced by one that is found alike. -/
theorem find?_tset_key {α : Type} {p : α → Bool} {d x : α} {k : Nat} : ∀ {t : Tab α},
    (t.find? fun e => p e.2).map Prod.fst = some k → p x = p (tget d t k) →
    ((tset t k x).find? fun e => p e.2).map Prod.fst = some k
  | [], h, _ => by cases h
  | (j, v) :: t, h, hx => by
    rw [tset]
    split
    · by_cases hpx : p x = true
      · simp [hpx]
      · simpa [List.find?_cons, hpx] using h
    · split
      · next hj =>
        subst hj
        by_cases hv : p v = true
        · simp [hx, tget, tget?, hv]
        · simpa [List.find?_cons, hx, tget, tget?, hv] using h
      · next hj =>
        have hv : p v = false := by
          refine Bool.eq_false_iff.2 fun hv => ?_
          simp only [List.find?_cons, hv, Option.map_some, Option.some.injEq] at h
          exact hj h.symm
        simp only [List.find?_cons, hv] at h ⊢
        exact find?_tset_key h (by simpa [tget, tget?, hj] using hx)
/-- A strand is found in its slot after a change of the slot's registers. -/
theorem findSlot_modSlot_ctx {c : Core} {key k : Nat} (h : findSlot c key = some k) (f : Slot → Ctx) :
    findSlot (modSlot c k fun sl => { sl with ctx := f sl }) key = some k :=
  find?_tset_key (α := Slot) (p := fun sl => sl.st != .free && slotKey sl == key) (d := {}) h rfl

/-- The strand of a key stands in a slot. -/
structure Stands (c : Core) (key k : Nat) : Prop where
  lt : key < 256
  saved : (strandOf c key).saved = none
  slot : findSlot c key = some k

section Stands
variable {c : Core} {key k : Nat} (h : Stands c key k)
include h

theorem Stands.ne_supKey : key ≠ supKey := by
  have := h.lt
  unfold supKey
  omega
theorem Stands.of_eq {c' : Core} (hstrands : c'.strands = c.strands) (hslots : c'.slots = c.slots) : Stands c' key k := by
  obtain ⟨hlt, hsaved, hslot⟩ := h
  exact ⟨hlt, by rw [strandOf, hstrands]; exact hsaved, by rw [findSlot, hslots]; exact hslot⟩
theorem stands_modSlot_ctx (f : Slot → Ctx) : Stands (modSlot c k fun sl => { sl with ctx := f sl }) key k :=
  ⟨h.lt, h.saved, findSlot_modSlot_ctx h.slot f⟩
theorem stands_slotSetG (r : Nat) (v : Word) : Stands (slotSetG c k r v) key k := by
  unfold slotSetG
  split
  · exact stands_modSlot_ctx h _
  · split
    · next i _ => exact stands_modSlot_ctx (c := { c with pool := tset c.pool i v }) (h.of_eq rfl rfl) _
    · exact h
theorem deliverG_of_stands (r : Nat) (v : Word) : deliverG c key r v = slotSetG c k r v := by
  unfold deliverG
  rw [if_neg h.ne_supKey]
  simp only [h.saved, h.slot]
/-- R104: the wait of a strand in a slot ends with its instruction complete: of the slot the program counter moves. -/
theorem endWait_of_stands : ∃ n, endWait c key true =
    modStrand (if n = 0 then c else modSlot c k fun sl => { sl with ctx := { sl.ctx with pc := sl.ctx.pc + wordN n } }) key
      fun st => { st with wait := .none } := by
  refine ⟨(strandOf c key).wlen, ?_⟩
  unfold endWait bumpPc modCtxOf savedOf
  simp only [if_true, if_neg h.ne_supKey, h.saved, h.slot]

end Stands

/-- A result delivered to a strand in a slot with the end of its wait (R104, R109): the strand waits for nothing, the register
reads it, and the core's memory and Tumbler stay. -/
theorem endWait_deliverG {c : Core} {key k d : Nat} (h : Stands c key k) (v : Word) :
    let c' := endWait (deliverG c key d v) key true
    c'.mem = c.mem ∧ c'.tum = c.tum ∧ (strandOf c' key).wait = .none ∧
      (gMapped (slotOf c k).ctx d = true → gGet c' (slotOf c' k).ctx d = if d = 0 then 0 else v) := by
  rw [deliverG_of_stands h]
  obtain ⟨n, hend⟩ := endWait_of_stands (stands_slotSetG h d v)
  simp only [hend]
  refine ⟨?_, ?_, by simp, fun hmapped => ?_⟩
  · split <;> exact slotSetG_reads Core.mem (fun _ _ _ => rfl) c k d v
  · split <;> exact slotSetG_reads Core.tum (fun _ _ _ => rfl) c k d v
  · rw [← gGet_slotSetG v hmapped]
    split
    · rfl
    · exact gGet_congr d (by simp) (by simp) rfl

/-! ### Granted pages zeroed -/

/-- R122: where the strand that waits for a zeroing stands in a slot, the end of the zeroing leaves memory and the Tumbler. -/
theorem zeroingOver_kept {c : Core} {z : Zeroing} (h : ∀ key, z.forKey = some key → ∃ k, Stands c key k) :
    (zeroingOver c z).mem = c.mem ∧ (zeroingOver c z).tum = c.tum := by
  unfold zeroingOver
  split
  · next key hfor =>
    split
    · obtain ⟨k, hk⟩ := h key hfor
      obtain ⟨hmem, htum, -⟩ := endWait_deliverG hk _
      exact ⟨hmem, htum⟩
    · exact ⟨rfl, rfl⟩
  · split
    · exact ⟨modGroup_reads Core.mem (fun _ _ => rfl) _ _ _, modGroup_reads Core.tum (fun _ _ => rfl) _ _ _⟩
    · exact ⟨rfl, rfl⟩

/-- R106: the group that waits for a zeroing starts. -/
theorem zeroingOver_group {c : Core} {z : Zeroing} {g : Nat} {gr : Group} (hnone : z.forKey = none) (hgrp : z.forGrp = some g)
    (hgr : groupOf c g = some gr) : groupOf (zeroingOver c z) g = some { gr with start := false } := by
  simp only [zeroingOver, hnone, hgrp]
  exact groupOf_modGroup_self hgr _
/-- R122: the strand that waits for a zeroing goes on with its result. -/
theorem zeroingOver_strand {c : Core} {z : Zeroing} {key k d : Nat} {v : Word} (h : Stands c key k) (hfor : z.forKey = some key)
    (hwait : (strandOf c key).wait = .zeroing d v) (hmapped : gMapped (slotOf c k).ctx d = true) :
    (strandOf (zeroingOver c z) key).wait = .none ∧
      gGet (zeroingOver c z) (slotOf (zeroingOver c z) k).ctx d = if d = 0 then 0 else v := by
  obtain ⟨-, -, hended, hread⟩ := endWait_deliverG (d := d) h v
  simp only [zeroingOver, hfor, hwait]
  exact ⟨hended, hread hmapped⟩

section Zeroing
variable {c : Core} {z : Zeroing} {i j l time : Nat} (hz : c.tum.zeroing[i]? = some z) (hl : z.lines[j]? = some l)
include hz hl

/-- R122: a line zeroed while others are left, and the last one. -/
theorem zeroNext_of_more (hmore : 1 < z.lines.length) : zeroNext c i j time =
    { zeroLine c l with tum := { c.tum with zeroing := c.tum.zeroing.set i { z with lines := z.lines.eraseIdx j } } } := by
  have htum : (zeroLine c l).tum = c.tum := storePhys_reads Core.tum (fun _ _ _ _ _ _ => rfl) c _ _ _
  simp only [zeroNext, hz, hl, htum, if_pos hmore, show ¬(z.lines.length ≤ 1 ∧ time < z.ready) by omega, if_false]
theorem zeroNext_of_last (hlast : ¬1 < z.lines.length) (hready : z.ready ≤ time) : zeroNext c i j time =
    zeroingOver { zeroLine c l with tum := { c.tum with zeroing := c.tum.zeroing.eraseIdx i } } z := by
  have htum : (zeroLine c l).tum = c.tum := storePhys_reads Core.tum (fun _ _ _ _ _ _ => rfl) c _ _ _
  simp only [zeroNext, hz, hl, htum, if_neg hlast, show ¬(z.lines.length ≤ 1 ∧ time < z.ready) by omega, if_false]

end Zeroing

/-- What does not depend on memory, its errors and the Tumbler reads alike after the zeroing of a line. -/
theorem zeroLine_reads {α : Type} (read : Core → α)
    (hread : ∀ c m b cor f st t,
      read { c with mem := m, bad := b, correctable := cor, found := f, stored := st, tum := t } = read c)
    (c : Core) (l : Nat) (t : Tumbler) : read { zeroLine c l with tum := t } = read c :=
  (hread (zeroLine c l) _ _ _ _ _ t).trans (storePhys_reads read (fun c _ _ _ _ _ => hread c _ _ _ _ _ c.tum) c _ _ _)
theorem stands_zeroLine {c : Core} {key k : Nat} (h : Stands c key k) (l : Nat) (t : Tumbler) :
    Stands { zeroLine c l with tum := t } key k :=
  h.of_eq (zeroLine_reads Core.strands (fun _ _ _ _ _ _ _ => rfl) c l t)
    (zeroLine_reads Core.slots (fun _ _ _ _ _ _ _ => rfl) c l t)

/-! ### The end of DRAINING -/

/-- R98: the group that leaves DRAINING is gone with its banks, no other one is touched, and a re-evaluation is due. -/
theorem leaveDraining_core {x : Site} {g : Nat} {gr : Group} (h : groupOf x.core g = some gr) :
    let c := (leaveDraining x g).core
    c.mem = x.core.mem ∧ c.groups = terase x.core.groups g ∧ c.bankOf = (x.core.bankOf.filter fun e => e.2 / 16 != g) ∧
      (settleTumbler c.tum).reeval = true := by
  simp only [leaveDraining, h]
  exact ⟨rfl, rfl, rfl, settleTumbler_released _⟩

end Sys2Proof.Laws

/-! Obligations of the family 05_scheduling: the end of strands and groups, and releases (O28). -/

namespace Sys2Proof.Proofs

open Sys2Proof Sys2Proof.Machine Sys2Proof.Claims Sys2Proof.Laws

/-- R98, R113, R157: the site of a strand that exits. -/
theorem exitStrand_core {x : Site} {key k : Nat} (h : findSlot x.core key = some k) {gr : Group}
    (hgr : groupOf x.core (key / 16) = some gr) :
    let c := (exitStrand x key).core
    c.mem = x.core.mem ∧ c.slots = terase x.core.slots k ∧ c.strands = terase x.core.strands key ∧
      c.bankOf = (x.core.bankOf.filter fun e => e.2 != key) ∧
      groupOf c (key / 16) = some (if gr.live.filter (fun i => i != key % 16) = []
        then { gr with live := gr.live.filter fun i => i != key % 16, st := .draining, victim := false, start := false }
        else { gr with live := gr.live.filter fun i => i != key % 16 }) := by
  obtain ⟨hmem, hslots, hstrands, hbanks, hgroup⟩ := strandGone_freeStrand h
  have reads {α : Type} (read : Core → α) (hread : ∀ c l, read { c with groups := l } = read c) :
      read (exitStrand x key).core = read (freeStrand x key true).core := drainIfEmpty_reads read hread _ _
  exact ⟨(reads Core.mem fun _ _ => rfl).trans hmem, (reads Core.slots fun _ _ => rfl).trans hslots,
    (reads Core.strands fun _ _ => rfl).trans hstrands, (reads Core.bankOf fun _ _ => rfl).trans hbanks,
    groupOf_drainIfEmpty_self (hgroup gr hgr)⟩

theorem exec_exit_of_strand {s : State} {sid k : Nat} (hcur : s.cur = .strand sid k) (hguard : guardTrap .exit s = none) :
    exec .exit s = .next (modSite s sid fun x => exitStrand x (slotKey (slotOf (getSite s sid).core k))) := by
  rw [exec_exit, execExit, issue_acts hguard, curSid, hcur, curKey, hcur]
/-- R98: GROUP_LEAVES_DRAINING of a DRAINING group acts where its outstanding work has ended. -/
theorem exec_groupLeavesDraining_of_draining {s : State} {sid g : Nat} {gr : Group} (hs : s.arg = [sid, g])
    (hgr : groupOf (getSite s sid).core g = some gr) (hst : gr.st = .draining) :
    exec .groupLeavesDraining s = .next (modSite s sid fun _ =>
      if drained (getSite s sid).core g = true then leaveDraining (getSite s sid) g else getSite s sid) := by
  simp [exec_groupLeavesDraining, execGroupLeavesDraining, argAt_of_arg hs, modSite, hgr, hst]

theorem strandsAndGroupsEnd : StrandsAndGroupsEnd := by
  refine ⟨fun s sid k g gr hcur ⟨_, hslot, _⟩ ⟨_, hg, hidx, hgr⟩ hguard => ?_, fun s sid g gr hs hgr hst => ?_⟩
  · have hsite : curSite s = getSite s sid := by rw [curSite, curSid, hcur]
    rw [hsite] at hg hidx hgr
    refine ⟨_, exec_exit_of_strand hcur hguard, ?_⟩
    have hkey : slotKey (slotOf (getSite s sid).core k) / 16 = g := by
      unfold slotKey
      omega
    generalize slotKey (slotOf (getSite s sid).core k) = key at *
    subst hkey
    obtain ⟨hmem, hslots, hstrands, hbanks, hgroup⟩ := exitStrand_core hslot hgr
    refine ⟨sameMemory_modSite hmem, onlySite_modSite _ _ _, ?_⟩
    simp only [getSite_modSite, if_true, slotOf, strandOf, hslots, hstrands, hbanks, hgroup]
    refine ⟨by simp, fun j hj => by simp [hj], by simp, by simp, _, rfl, ?_⟩
    split <;> simp [*]
  · obtain ⟨hmem, hgroups, hbanks, hreeval⟩ := leaveDraining_core hgr
    refine ⟨_, exec_groupLeavesDraining_of_draining hs hgr hst, sameMemory_modSite ?_, onlySite_modSite _ _ _, ?_, ?_⟩
    · split
      · exact hmem
      · rfl
    · exact fun h => by simp [h]
    · intro h
      simp only [getSite_modSite, if_true, h]
      exact ⟨by simp [groupOf, hgroups], fun h hh => by simp [groupOf, hgroups, hh], by simp [hbanks], hreeval⟩

theorem releasesTakeEffect : ReleasesTakeEffect := by
  intro s sid i c
  have hexec {l : List Nat} (hs : s.arg = sid :: i :: l) :
      exec .releaseApply s = .next (modSite s sid (onCore fun c => doRelease c i)) := by
    rw [exec_releaseApply, execReleaseApply, argAt_of_arg hs, argAt_of_arg hs]
    rfl
  refine ⟨fun g n gr hs hr hgr => ?_, fun g j gr hs hr hgr => ?_, fun z j l hs hz hl hfree hready hkey => ?_⟩
  · obtain ⟨hmem, hgroup, hreleases, hreeval⟩ := doRelease_modGroup hr rfl rfl hgr
    refine ⟨_, hexec hs, onlySite_modSite _ _ _, sameMemory_modSite hmem, ?_⟩
    rw [getSite_modSite, if_pos rfl]
    exact ⟨hgroup, hreleases, hreeval⟩
  · refine ⟨_, hexec hs, onlySite_modSite _ _ _, ?_⟩
    rw [getSite_modSite, if_pos rfl]
    cases hbusy : tslotBusy c j with
    | true =>
      have hkeep : doRelease c i = c := doRelease_of_not_canRelease hr (by simp [canRelease, hbusy])
      exact ⟨sameMemory_modSite (congrArg Core.mem hkeep), fun _ => by rw [onCore, hkeep], fun h => absurd h.symm Bool.false_ne_true⟩
    | false =>
      obtain ⟨hmem, hgroup, hreleases, hreeval⟩ := doRelease_modGroup hr (by simp [canRelease, hbusy]) rfl hgr
      exact ⟨sameMemory_modSite hmem, fun h => absurd h Bool.false_ne_true, fun _ => ⟨hgroup, hreleases, hreeval⟩⟩
  · have hstands (t : Tumbler) (key : Nat) (h : z.forKey = some key) : ∃ k, Stands { zeroLine c l with tum := t } key k := by
      obtain ⟨k, hlt, hsaved, hslot, -⟩ := hkey key h
      exact ⟨k, stands_zeroLine ⟨hlt, hsaved, hslot⟩ l t⟩
    refine ⟨modSite s sid (onCore fun c => zeroNext c i j s.time), ?_, onlySite_modSite _ _ _, ?_⟩
    · rw [exec_pageZeroingDone, execPageZeroingDone, argAt_of_arg hs, argAt_of_arg hs, argAt_of_arg hs]
      rfl
    simp only [storeByte, readG_seenBy, getSite_modSite, if_true, onCore_core]
    by_cases hmore : 1 < z.lines.length
    · rw [zeroNext_of_more hz hl hmore]
      exact ⟨mget_zeroLine hfree, fun _ => rfl, fun h => by simp [h] at hmore⟩
    · rw [zeroNext_of_last hz hl hmore (hready.resolve_left hmore)]
      obtain ⟨hmem, htum⟩ := zeroingOver_kept (z := z) (hstands { c.tum with zeroing := c.tum.zeroing.eraseIdx i })
      refine ⟨fun p => ?_, fun h => absurd h hmore, fun _ => ⟨congrArg Tumbler.zeroing htum, ?_, ?_⟩⟩
      · rw [hmem]
        exact mget_zeroLine hfree p
      · exact fun g gr hnone hgrp hgr => zeroingOver_group hnone hgrp <|
          (zeroLine_reads (groupOf · g) (fun _ _ _ _ _ _ _ => rfl) c l _).trans hgr
      · intro key d v k hfor hwait ⟨hlt, hsaved, hslot, hmapped⟩
        refine zeroingOver_strand (stands_zeroLine ⟨hlt, hsaved, hslot⟩ l _) hfor ?_ ?_
        · exact (zeroLine_reads (fun c => (strandOf c key).wait) (fun _ _ _ _ _ _ _ => rfl) c l _).trans hwait
        · exact (zeroLine_reads (fun c => gMapped (slotOf c k).ctx d) (fun _ _ _ _ _ _ _ => rfl) c l _).trans hmapped

/-- Settles O28: EXIT by what it leaves of its core, the end of DRAINING, releases that change one group, and the zeroing of a
line with what the last one lets go on. -/
theorem strandsEndAndReleasesApply : Obligations.StrandsEndAndReleasesApply := ⟨strandsAndGroupsEnd, releasesTakeEffect⟩

end Sys2Proof.Proofs

/-! Obligations of the family 05_scheduling that do not hold of every state: local accesses that perform (O7), and frames (O52). -/

namespace Sys2Proof.Proofs

open Sys2Proof Sys2Proof.Machine Sys2Proof.Claims Sys2Proof.Laws

/-- R178: the lanes of a gather come in order, so that no later unit of its access performs before them. -/
theorem mayPerform_of_gather {l : List Access} {time i u : Nat} {started : Access → Bool} {x : Access}
    {lanes : List (Nat × Nat × Nat)} {rest : List AUnit} (hfind : l.find? (fun y => y.id == i) = some x)
    (hunits : x.units = .gather lanes :: rest) (hu : u ≠ 0) : mayPerform l time i u started = none := by
  simp [mayPerform, hfind, hunits, hu]

/-- An access of a form that no instruction gives: a line to be written after the lanes of a gather. -/
def gatherThenWrite : Access :=
  { id := 0, key := 0, stream := 0, rd := true, wr := true, units := [.gather [], .write 0 32 1] }
/-- A machine with that access on site 0, its line to be written next. -/
def gatherThenWriteState : State :=
  { arg := [0, 0, 1, 0], sites := [(0, { core := { accesses := [gatherThenWrite] } })] }

/-- The line is not written while the gather is left. -/
theorem exec_gatherThenWrite :
    exec .localAccessPerform gatherThenWriteState = .next (modSite gatherThenWriteState 0 fun x => x) := by
  have hnone : mayPerform [gatherThenWrite] 0 0 1 (engineBegun { accesses := [gatherThenWrite] }) = none :=
    mayPerform_of_gather rfl rfl (by decide)
  have hsite : performAt (getSite gatherThenWriteState 0) 0 0 1 = getSite gatherThenWriteState 0 := by
    show performAt { core := { accesses := [gatherThenWrite] } } 0 0 1 = _
    simp only [performAt, hnone]
    rfl
  exact congrArg (fun x => Host.Outcome.next (setSite gatherThenWriteState 0 x)) hsite

/-- Refutes O7: `VectorLinePerforms` has any line of an access of several units written whose turn has come, and so the line
after the lanes of a gather, which the model holds back (R178). -/
theorem not_localAccessesPerform : ¬ Obligations.LocalAccessesPerform := by
  rintro ⟨-, -, -, hlines, -⟩
  have hgo : mayGo gatherThenWriteState 0 0 gatherThenWrite := by
    refine ⟨rfl, Nat.le_refl 0, fun y hy => ?_⟩
    cases hy
  obtain ⟨-, hwrite⟩ := hlines gatherThenWriteState 0 0 1 0 gatherThenWrite hgo
  obtain ⟨t, p, hexec, -, hbytes, -⟩ := hwrite 1 rfl rfl rfl (by decide) List.not_mem_nil
  cases exec_gatherThenWrite.symm.trans hexec
  have hunwritten : storeByte (modSite gatherThenWriteState 0 fun x => x) 0 (p + 0) = 0 := by
    rw [storeByte, getSite_modSite, if_pos rfl]
    rfl
  exact absurd (hunwritten.symm.trans (hbytes 0 (by decide))) (by decide)

/-- A machine whose site 0 lists slot 0 twice: the entry that counts has a strand of group 0, which is no group's number, the
other one a strand of group 1, a victim. -/
def slotListedTwice : State :=
  { sites := [(0, { core := { slots := [(0, { st := .ready, grp := 0 }), (0, { st := .ready, grp := 1 })]
                              groups := [(1, { uid := 0, victim := true })] } })] }

/-- The slot is the next to enter SAVING. -/
theorem nextSave_slotListedTwice : nextSave (getSite slotListedTwice 0).core = some 0 := by
  simp [nextSave, toSave, slotListedTwice, getSite, tget?, groupOf, settled, slotOf, tget]

/-- Refutes O52: of a table that lists a slot twice the first entry counts, but a victim's strand in the second has the slot
enter SAVING, though the strand that stands in it is of no victim. -/
theorem not_framesSavedAndRestored : ¬ Obligations.FramesSavedAndRestored := by
  rintro ⟨hsave, -⟩
  obtain ⟨⟨g, hg, -⟩, -⟩ := hsave slotListedTwice 0 0 nextSave_slotListedTwice
  cases hg

end Sys2Proof.Proofs

/-! SUPPORT. Scalar instructions: the values of their rows (R141 to R149), frames one after another, results in flight and their
writing (R139), and where branches and jumps go (R150 to R152). -/

namespace Sys2Proof.Laws

open Sys2Proof Sys2Proof.Machine Sys2Proof.Claims

/-! ### Integers as words -/

theorem wordI_eq_ofInt (x : Int) : wordI x = BitVec.ofInt 64 x := by
  apply BitVec.eq_of_toNat_eq
  rw [wordI, truncI, BitVec.toNat_ofNat, BitVec.toNat_ofInt]
  omega
/-- A sign-extended field is the signed reading of its bits. -/
theorem sext_eq_toInt (i : Nat) {n : Nat} (hn : 0 < n) : sext i n = (BitVec.ofNat n i).toInt := by
  have hpow : 2 ^ n = 2 * 2 ^ (n - 1) := by rw [← Nat.pow_succ', Nat.succ_eq_add_one, Nat.sub_add_cancel hn]
  rw [BitVec.toInt_eq_toNat_cond, BitVec.toNat_ofNat, hpow, sext, hpow]
  simp only [Nat.mul_lt_mul_left Nat.two_pos]
theorem immW_eq_imm14 (i : Nat) : immW i = imm14 i := by
  rw [immW, wordI_eq_ofInt, sext_eq_toInt i (by omega)]
  rfl
theorem wordI_four_mul_sext14 (i : Nat) : wordI (4 * sext i 14) = imm14 i * 4 := by
  rw [wordI_eq_ofInt, sext_eq_toInt i (by omega), Int.mul_comm, BitVec.ofInt_mul]
  rfl
theorem wordI_four_mul_sext20 (i : Nat) : wordI (4 * sext i 20) = imm20 i * 4 := by
  rw [wordI_eq_ofInt, sext_eq_toInt i (by omega), Int.mul_comm, BitVec.ofInt_mul]
  rfl
theorem wordI_sext20_shift (i : Nat) : wordI (sext i 20 * 16384) = imm20 i <<< 14 := by
  rw [wordI_eq_ofInt, sext_eq_toInt i (by omega), BitVec.ofInt_mul, BitVec.shiftLeft_eq_mul_twoPow]
  rfl

/-! ### Differences and bits outside (R141) -/

theorem toNat_sub_emod (a b : Word) : ((a - b).toNat : Int) = (a.toNat - b.toNat : Int) % 2 ^ 64 := by
  rw [BitVec.toNat_sub]
  omega
theorem getLsbD_and_not (a b : Word) (k : Nat) : (a &&& ~~~b).getLsbD k = (a.getLsbD k && !b.getLsbD k) := by
  rw [BitVec.getLsbD_and, BitVec.getLsbD_not]
  by_cases hk : k < 64
  · rw [decide_eq_true hk, Bool.true_and]
  · rw [BitVec.getLsbD_of_ge a k (by omega), Bool.false_and, Bool.false_and]

/-! ### Shifts and rotations (R142) -/

theorem toNat_shlW (a : Word) (n : Nat) : (shlW a n).toNat = a.toNat * 2 ^ n % 2 ^ 64 := by
  unfold shlW
  split
  · rw [BitVec.toNat_shiftLeft, Nat.shiftLeft_eq]
  · have hdvd : 2 ^ 64 ∣ a.toNat * 2 ^ n := Nat.dvd_mul_left_of_dvd (Nat.pow_dvd_pow 2 (by omega)) _
    exact (Nat.mod_eq_zero_of_dvd hdvd).symm
theorem toNat_shrW (a : Word) (n : Nat) : (shrW a n).toNat = a.toNat / 2 ^ n := by
  unfold shrW
  split
  · rw [BitVec.toNat_ushiftRight, Nat.shiftRight_eq_div_pow]
  · have hlt : a.toNat < 2 ^ n := Nat.lt_of_lt_of_le a.isLt (Nat.pow_le_pow_right (by omega) (by omega))
    exact (Nat.div_eq_of_lt hlt).symm
theorem toInt_sarW (a : Word) (n : Nat) : (sarW a n).toInt = a.toInt / 2 ^ Nat.min n 63 := by
  rw [sarW, BitVec.toInt_sshiftRight, Int.shiftRight_eq_div_pow, Int.natCast_pow]
  rfl
theorem rolW_eq_rotateLeft (a : Word) (n : Nat) : rolW a n = a.rotateLeft n := by
  rw [rolW, BitVec.rotateLeft_def]
  split
  · next h => simp [h, BitVec.ushiftRight_eq_zero]
  · rfl
theorem getLsbD_rolW (a : Word) (n : Nat) {k : Nat} (hk : k < 64) :
    (rolW a n).getLsbD ((k + n) % 64) = a.getLsbD k := by
  rw [rolW_eq_rotateLeft, BitVec.getLsbD_rotateLeft]
  by_cases hwrap : (k + n) % 64 < n % 64
  · rw [decide_eq_true hwrap, cond_true, show 64 - n % 64 + (k + n) % 64 = k by omega]
  · rw [decide_eq_false hwrap, cond_false, decide_eq_true (by omega : (k + n) % 64 < 64), Bool.true_and,
      show (k + n) % 64 - n % 64 = k by omega]

/-! ### Comparisons -/

theorem flagW_beq (a b : Word) : flagW (a == b) = if a = b then 1 else 0 := by
  simp [flagW]
theorem flagW_slt (a b : Word) : flagW (a.slt b) = if a.toInt < b.toInt then 1 else 0 := by
  simp [flagW, BitVec.slt_eq_decide]
theorem flagW_ult (a b : Word) : flagW (a.ult b) = if a.toNat < b.toNat then 1 else 0 := by
  simp [flagW, BitVec.ult_eq_decide]
theorem toInt_ite_slt_min (a b : Word) : (if a.slt b then a else b).toInt = min a.toInt b.toInt := by
  simp only [apply_ite BitVec.toInt, BitVec.slt_eq_decide, decide_eq_true_eq]
  split <;> omega
theorem toInt_ite_slt_max (a b : Word) : (if a.slt b then b else a).toInt = max a.toInt b.toInt := by
  simp only [apply_ite BitVec.toInt, BitVec.slt_eq_decide, decide_eq_true_eq]
  split <;> omega
theorem toNat_ite_ult_min (a b : Word) : (if a.ult b then a else b).toNat = min a.toNat b.toNat := by
  simp only [apply_ite BitVec.toNat, BitVec.ult_eq_decide, decide_eq_true_eq]
  split <;> omega
theorem toNat_ite_ult_max (a b : Word) : (if a.ult b then b else a).toNat = max a.toNat b.toNat := by
  simp only [apply_ite BitVec.toNat, BitVec.ult_eq_decide, decide_eq_true_eq]
  split <;> omega

/-! ### Bits counted -/

theorem lt_two_pow_bitLen (x : Nat) : x < 2 ^ bitLen x := by
  unfold bitLen
  split
  · omega
  · exact Nat.lt_log2_self
theorem bitLen_le {x n : Nat} (h : x < 2 ^ n) : bitLen x ≤ n := by
  unfold bitLen
  split
  · omega
  · next h0 => exact (Nat.log2_lt h0).2 h
theorem testBit_bitLen {x : Nat} (h : 0 < bitLen x) : x.testBit (bitLen x - 1) = true := by
  unfold bitLen at *
  split at h
  · omega
  · next h0 =>
    rw [if_neg h0]
    exact Nat.testBit_log2 h0
theorem ctzN_le (n : Nat) : ∀ x, ctzN n x ≤ n := by
  induction n with
  | zero => exact fun _ => Nat.le_refl 0
  | succ n ih =>
    intro x
    rw [ctzN]
    split
    · omega
    · exact Nat.succ_le_succ (ih _)
theorem testBit_of_lt_ctzN (n : Nat) : ∀ x k, k < ctzN n x → x.testBit k = false := by
  induction n with
  | zero => exact fun _ _ h => absurd h (Nat.not_lt_zero _)
  | succ n ih =>
    intro x k h
    rw [ctzN] at h
    split at h
    · omega
    · next hodd =>
      cases k with
      | zero => simpa [Nat.testBit_zero] using hodd
      | succ k => rw [Nat.testBit_succ]; exact ih _ k (by omega)
theorem testBit_ctzN (n : Nat) : ∀ x, ctzN n x < n → x.testBit (ctzN n x) = true := by
  induction n with
  | zero => exact fun _ h => absurd h (Nat.not_lt_zero _)
  | succ n ih =>
    intro x h
    rw [ctzN] at h ⊢
    split at h
    · next hodd => rw [if_pos hodd, Nat.testBit_zero, hodd]; rfl
    · next hodd => rw [if_neg hodd, Nat.testBit_succ]; exact ih _ (by omega)
theorem popN_eq_length_filter (n : Nat) : ∀ x, popN n x = ((List.range n).filter fun k => x.testBit k).length := by
  induction n with
  | zero => exact fun _ => rfl
  | succ n ih =>
    intro x
    have hshift : (fun k => x.testBit k) ∘ Nat.succ = fun k => (x / 2).testBit k := funext fun k => Nat.testBit_succ x k
    rw [popN, ih, List.range_succ_eq_map, List.filter_cons, List.filter_map, hshift, Nat.testBit_zero]
    by_cases hodd : x % 2 = 1
    · rw [decide_eq_true hodd, if_pos rfl, List.length_cons, List.length_map, hodd, Nat.add_comm]
    · rw [decide_eq_false hodd, if_neg Bool.false_ne_true, List.length_map, Nat.mod_two_ne_one.1 hodd, Nat.zero_add]
theorem popN_le (n x : Nat) : popN n x ≤ n := by
  rw [popN_eq_length_filter]
  exact Nat.le_trans (List.length_filter_le _ _) (Nat.le_of_eq List.length_range)
theorem toNat_wordN_of_le {n : Nat} (h : n ≤ 64) : (wordN n).toNat = n := by
  rw [wordN, BitVec.toNat_ofNat]
  omega
theorem clz_spec (a : Word) : let v := wordN (64 - bitLen a.toNat)
    v.toNat ≤ 64 ∧ (∀ k, k < v.toNat → a.getLsbD (63 - k) = false) ∧ (v.toNat < 64 → a.getLsbD (63 - v.toNat) = true) := by
  have hlen : bitLen a.toNat ≤ 64 := bitLen_le a.isLt
  simp only [toNat_wordN_of_le (Nat.sub_le 64 (bitLen a.toNat))]
  refine ⟨Nat.sub_le _ _, fun k hk => ?_, fun hv => ?_⟩
  · exact Nat.testBit_lt_two_pow (Nat.lt_of_lt_of_le (lt_two_pow_bitLen _) (Nat.pow_le_pow_right (by omega) (by omega)))
  · rw [show 63 - (64 - bitLen a.toNat) = bitLen a.toNat - 1 by omega]
    exact testBit_bitLen (by omega)
theorem ctz_spec (a : Word) : let v := wordN (ctzN 64 a.toNat)
    v.toNat ≤ 64 ∧ (∀ k, k < v.toNat → a.getLsbD k = false) ∧ (v.toNat < 64 → a.getLsbD v.toNat = true) := by
  simp only [toNat_wordN_of_le (ctzN_le 64 a.toNat)]
  exact ⟨ctzN_le 64 _, testBit_of_lt_ctzN 64 _, testBit_ctzN 64 _⟩
theorem popc_spec (a : Word) :
    (wordN (popN 64 a.toNat)).toNat = ((List.range 64).filter fun k => a.getLsbD k).length :=
  (toNat_wordN_of_le (popN_le 64 _)).trans (popN_eq_length_filter 64 _)

/-! ### Fields (R145) -/

theorem getLsbD_wordN (x k : Nat) : (wordN x).getLsbD k = (decide (k < 64) && x.testBit k) := BitVec.getLsbD_ofNat 64 x k
theorem fieldPos_add_fieldWid_le (b : Word) : fieldPos b + fieldWid b ≤ 64 := by
  have : fieldWid b ≤ 64 - fieldPos b := Nat.min_le_right _ _
  have : fieldPos b < 64 := Nat.mod_lt _ (by omega)
  omega
theorem getLsbD_bfxW (a b : Word) (k : Nat) :
    (bfxW a b.toNat).getLsbD k = (decide (k < fieldWid b) && a.getLsbD (fieldPos b + k)) := by
  have hle := fieldPos_add_fieldWid_le b
  show (wordN (a.toNat / 2 ^ fieldPos b % 2 ^ fieldWid b)).getLsbD k = _
  rw [getLsbD_wordN, Nat.testBit_mod_two_pow, Nat.testBit_div_two_pow]
  by_cases hk : k < fieldWid b
  · rw [decide_eq_true (by omega : k < 64), Bool.true_and, Nat.add_comm]; rfl
  · rw [decide_eq_false hk, Bool.false_and, Bool.false_and, Bool.and_false]
theorem bfiW_eq_setBitsN (d a b : Word) (h : 0 < fieldWid b) :
    bfiW d a b.toNat = wordN (setBitsN d.toNat (fieldPos b + fieldWid b - 1) (fieldPos b) a.toNat) := by
  rw [setBitsN, show fieldPos b + fieldWid b - 1 + 1 - fieldPos b = fieldWid b by omega]
  rfl
theorem bfiW_of_fieldWid_zero (d a b : Word) (h : fieldWid b = 0) : bfiW d a b.toNat = d := by
  show wordN (d.toNat - d.toNat / 2 ^ fieldPos b % 2 ^ fieldWid b * 2 ^ fieldPos b + a.toNat % 2 ^ fieldWid b * 2 ^ fieldPos b) = d
  simp [h, Nat.mod_one, wordN]
theorem getLsbD_bfiW (d a b : Word) (k : Nat) : (bfiW d a b.toNat).getLsbD k =
    if fieldPos b ≤ k ∧ k < fieldPos b + fieldWid b then a.getLsbD (k - fieldPos b) else d.getLsbD k := by
  have hle := fieldPos_add_fieldWid_le b
  rcases Nat.eq_zero_or_pos (fieldWid b) with hw | hw
  · rw [bfiW_of_fieldWid_zero d a b hw, if_neg (by omega)]
  · rw [bfiW_eq_setBitsN d a b hw, getLsbD_wordN, testBit_setBitsN _ _ _ (by omega)]
    by_cases hk : k < 64
    · rw [decide_eq_true hk, Bool.true_and]
      exact ite_congr (propext (by omega)) (fun _ => rfl) fun _ => rfl
    · rw [decide_eq_false hk, Bool.false_and, if_neg (by omega), BitVec.getLsbD_of_ge d k (by omega)]

/-! ### Products and quotients (R141, R143) -/

theorem toInt_mulhW (a b : Word) : (mulhW a b).toInt = a.toInt * b.toInt / 2 ^ 64 := by
  have hlow : -2 ^ (64 * 2 - 2) ≤ a.toInt * b.toInt := BitVec.le_toInt_mul_toInt
  have hhigh : a.toInt * b.toInt ≤ 2 ^ (64 * 2 - 2) := BitVec.toInt_mul_toInt_le
  rw [mulhW, wordI_eq_ofInt]
  generalize a.toInt * b.toInt = p at *
  exact BitVec.toInt_ofInt_eq_self (by omega) (by omega) (by omega)
theorem toNat_mulhnW (a b : Word) : (mulhnW a b).toNat = a.toNat * b.toNat / 2 ^ 64 := by
  have hlt : a.toNat * b.toNat < 2 ^ 64 * 2 ^ 64 := Nat.mul_lt_mul'' a.isLt b.isLt
  rw [mulhnW, wordN, BitVec.toNat_ofNat]
  exact Nat.mod_eq_of_lt (Nat.div_lt_of_lt_mul hlt)
theorem divW_eq_sQuot (a b : Word) : divW a b = sQuot a b := by
  rw [divW, wordI_eq_ofInt]
  rfl
theorem remW_eq_sRem (a b : Word) : remW a b = sRem a b := by
  rw [remW, wordI_eq_ofInt, Int.mul_comm, ← Int.tmod_def]
  rfl
theorem divnW_eq (a b : Word) : divnW a b = if b = 0 then BitVec.allOnes 64 else a / b := by
  rw [divnW, wordN, wordN, ← BitVec.toNat_udiv, BitVec.ofNat_toNat, BitVec.setWidth_eq]
  rfl
theorem remnW_eq (a b : Word) : remnW a b = if b = 0 then a else a % b := by
  rw [remnW, wordN, ← BitVec.toNat_umod, BitVec.ofNat_toNat, BitVec.setWidth_eq]

/-! ### A site changed twice, and frames one after another -/

theorem tset_tset {α : Type} (t : Tab α) (n : Nat) (x y : α) : tset (tset t n x) n y = tset t n y := by
  induction t with
  | nil => simp [tset]
  | cons e t ih =>
    obtain ⟨k, v⟩ := e
    rcases Nat.lt_trichotomy n k with h | h | h
    · simp [tset, h]
    · simp [tset, h]
    · simp [tset, show ¬n < k by omega, show n ≠ k by omega, ih]
theorem modSite_modSite (s : State) (a : Nat) (f g : Site → Site) :
    modSite (modSite s a f) a g = modSite s a fun x => g (f x) := by
  rw [modSite, getSite_modSite, if_pos rfl]
  simp only [modSite, setSite, tset_tset]

theorem ctxSame_trans {d : Option RegRef} {x y z : Ctx} (h : ctxSame d x y) (h' : ctxSame d y z) : ctxSame d x z := by
  obtain ⟨hg, hv, hq, hm, hf, hflags, hctl, hlfsr, hbanks⟩ := h
  obtain ⟨hg', hv', hq', hm', hf', hflags', hctl', hlfsr', hbanks'⟩ := h'
  exact ⟨fun r hr hd => (hg' r hr hd).trans (hg r hr hd), fun n hd => (hv' n hd).trans (hv n hd),
    fun n hd => (hq' n hd).trans (hq n hd), hm'.trans hm, hf'.trans hf, hflags'.trans hflags, hctl'.trans hctl,
    hlfsr'.trans hlfsr, hbanks'.trans hbanks⟩
theorem ctxSame_of_none {x y : Ctx} (h : ctxSame none x y) (d : Option RegRef) : ctxSame d x y := by
  obtain ⟨hg, hv, hq, hrest⟩ := h
  exact ⟨fun r hr _ => hg r hr nofun, fun n _ => hv n nofun, fun n _ => hq n nofun, hrest⟩

section Frames
variable {d : Option RegRef} {hd : Hide} {s t u : State}

theorem cur_of_changesOnly (h : changesOnly d hd s t) : t.cur = s.cur := by
  obtain ⟨hrest, -⟩ := h
  exact (congrArg State.cur hrest :)
/-- Two changes that each keep a frame keep it together. -/
theorem changesOnly_trans (h : changesOnly d hd s t) (h' : changesOnly d hd t u) : changesOnly d hd s u := by
  have hcur := cur_of_changesOnly h
  obtain ⟨hrest, hctx, hunits⟩ := h
  obtain ⟨hrest', hctx', hunits'⟩ := h'
  refine ⟨hrest'.trans hrest, ctxSame_trans hctx hctx', ?_⟩
  rw [hcur] at hunits'
  cases hc : s.cur with
  | strand sid k =>
    simp only [hc] at hunits hunits' ⊢
    obtain ⟨hmgmts, hothers, hcore, hslots, hslot, hpool⟩ := hunits
    obtain ⟨hmgmts', hothers', hcore', hslots', hslot', hpool'⟩ := hunits'
    have hbanks : (slotOf (getSite t sid).core k).ctx.banks = (slotOf (getSite s sid).core k).ctx.banks := by
      obtain ⟨-, -, -, -, -, -, -, -, hbanks⟩ := hctx
      simpa only [curCtx, hcur, hc] using hbanks
    exact ⟨hmgmts'.trans hmgmts, fun n hn => (hothers' n hn).trans (hothers n hn), hcore'.trans hcore,
      fun j hj => (hslots' j hj).trans (hslots j hj), hslot'.trans hslot,
      fun i hi => (hpool' i fun r hr h16 => by rw [poolIdx, hbanks]; exact hi r hr h16).trans (hpool i hi)⟩
  | sup sid =>
    simp only [hc] at hunits hunits' ⊢
    obtain ⟨hmgmts, hothers, hcore⟩ := hunits
    obtain ⟨hmgmts', hothers', hcore'⟩ := hunits'
    exact ⟨hmgmts'.trans hmgmts, fun n hn => (hothers' n hn).trans (hothers n hn), hcore'.trans hcore⟩
  | mgmt k =>
    simp only [hc] at hunits hunits' ⊢
    obtain ⟨hsites, hothers, hself⟩ := hunits
    obtain ⟨hsites', hothers', hself'⟩ := hunits'
    exact ⟨hsites'.trans hsites, fun n hn => (hothers' n hn).trans (hothers n hn), hself'.trans hself⟩
/-- A change that keeps every register keeps all but one. -/
theorem changesOnly_of_none (h : changesOnly none hd s t) (d : Option RegRef) : changesOnly d hd s t := by
  obtain ⟨hrest, hctx, hunits⟩ := h
  refine ⟨hrest, ctxSame_of_none hctx d, ?_⟩
  cases hc : s.cur with
  | strand sid k =>
    simp only [hc] at hunits ⊢
    obtain ⟨hmgmts, hothers, hcore, hslots, hslot, hpool⟩ := hunits
    exact ⟨hmgmts, hothers, hcore, hslots, hslot, fun i _ => hpool i nofun⟩
  | sup sid => simpa only [hc] using hunits
  | mgmt k => simpa only [hc] using hunits

end Frames

/-! ### Results in flight (R139) -/

/-- A result of the agent at hand that is put in flight. -/
def lateResult (s : State) (d : Nat) (v : Word) (div : Bool) : Pending :=
  { key := curKey s, d := if d = 0 then none else some d, val := v, div := div, ready := s.time + (if div then 18 else 3) }
/-- The results in flight, out of sight. -/
def hideScalars : Hide :=
  { core := fun c => { c with scalars := [] }, mgmt := fun m => { m with scalars := [] } }

section Late
variable {s : State} (d : Nat) (v : Word) (div : Bool)

theorem lateG_of_mgmt {k : Nat} (hc : s.cur = .mgmt k) :
    lateG d v div s = modMgmt s k fun m => { m with scalars := m.scalars ++ [lateResult s d v div] } := by
  simp only [lateG, hc]
  rfl
theorem lateG_of_core (hc : ∀ k, s.cur ≠ .mgmt k) :
    lateG d v div s = modSite s (curSid s) (onCore fun c => { c with scalars := c.scalars ++ [lateResult s d v div] }) := by
  cases h : s.cur with
  | mgmt k => exact absurd h (hc k)
  | strand sid k => simp only [lateG, h]; rfl
  | sup sid => simp only [lateG, h]; rfl
theorem inFlight_of_core (hc : ∀ k, s.cur ≠ .mgmt k) : Claims.inFlight s = (curSite s).core.scalars := by
  cases h : s.cur with
  | mgmt k => exact absurd h (hc k)
  | strand sid k => simp only [Claims.inFlight, h]
  | sup sid => simp only [Claims.inFlight, h]
theorem inFlight_onCore (hc : ∀ k, s.cur ≠ .mgmt k) (f : Core → Core) :
    Claims.inFlight (modSite s (curSid s) (onCore f)) = (f (curSite s).core).scalars := by
  rw [inFlight_of_core (s := modSite s _ _) hc]
  simp [curSite]
/-- A change of the agent's registers leaves the results in flight. -/
theorem inFlight_modCurCtx (f : Ctx → Ctx) : Claims.inFlight (modCurCtx s f) = Claims.inFlight s := by
  cases h : s.cur with
  | strand sid k => simp [Claims.inFlight, modCurCtx, h, curSite, curSid, onCore]
  | sup sid => simp [Claims.inFlight, modCurCtx, h, curSite, curSid, onCore]
  | mgmt k => simp [Claims.inFlight, modCurCtx, h]

/-- A result put in flight stands behind those in flight, and nothing else changes. -/
theorem lateG_spec : Claims.inFlight (lateG d v div s) = Claims.inFlight s ++ [lateResult s d v div] ∧
    curPc (lateG d v div s) = curPc s ∧ changesOnly none hideScalars s (lateG d v div s) := by
  rcases Classical.em (∃ k, s.cur = .mgmt k) with ⟨k, hc⟩ | hc
  · rw [lateG_of_mgmt d v div hc]
    exact ⟨by simp [Claims.inFlight, hc], by simp [curPc, curCtx, hc], changesOnly_mgmt hideScalars s k _ hc rfl rfl⟩
  · replace hc : ∀ k, s.cur ≠ .mgmt k := fun k hk => hc ⟨k, hk⟩
    rw [lateG_of_core d v div hc]
    refine ⟨?_, curPc_onCore s _ hc rfl rfl, ?_⟩
    · rw [inFlight_onCore hc, inFlight_of_core hc]
    · exact changesOnly_onCore hideScalars s _ hc rfl rfl rfl (fun _ _ _ => rfl) (fun _ _ => rfl)

/-- An instruction that puts a result in flight and goes on: the result, the program counter and the frame. -/
theorem done_lateG_spec : ∃ t, done 4 (lateG d v div s) = .next t ∧ Claims.inFlight t = Claims.inFlight s ++ [lateResult s d v div] ∧
    curPc t = curPc s + 4 ∧ sameMemory s t ∧ changesOnly none hideScalars s t := by
  obtain ⟨hflight, hpc, hframe⟩ := lateG_spec (s := s) d v div
  have hframe' := changesOnly_advance hframe 4
  refine ⟨advance (lateG d v div s) 4, rfl, ?_, ?_, ?_, hframe'⟩
  · rw [advance, inFlight_modCurCtx, hflight]
  · rw [curPc_advance, hpc]; rfl
  · exact sameMemory_of hframe' (fun _ _ e => (congrArg Core.mem e :)) (fun _ _ e => (congrArg Mgmt.store e :))

end Late

/-- A core of whose results in flight one is gone. -/
def dropResult (n : Nat) (c : Core) : Core := { c with scalars := c.scalars.eraseIdx n }
/-- A machine after the n-th result in flight of a site is written to gd of a slot. -/
def resultWritten (s : State) (sid n k d : Nat) (v : Word) : State :=
  modSite s sid (onCore fun c => slotSetG (dropResult n c) k d v)

/-- SCALAR_RESULT_WRITE of a strand that stands in a slot, once the latency of its result has passed (R139). -/
theorem exec_scalarResultWrite_of_stands {s : State} {sid n k d : Nat} {p : Pending} (hs : s.arg = [sid, n, 0])
    (hp : (getSite s sid).core.scalars[n]? = some p) (hready : p.ready ≤ s.time) (hd : p.d = some d)
    (hk : Stands (getSite s sid).core p.key k) :
    exec .scalarResultWrite s = .next (resultWritten s sid n k d p.val) := by
  have hwrite : deliverG? (dropResult n (getSite s sid).core) p.key p.d p.val =
      slotSetG (dropResult n (getSite s sid).core) k d p.val := by
    rw [hd]
    exact deliverG_of_stands (hk.of_eq (c' := dropResult n (getSite s sid).core) rfl rfl) d p.val
  simp only [exec_scalarResultWrite, execScalarResultWrite, argAt_of_arg hs, List.getD_cons_zero, List.getD_cons_succ,
    Nat.zero_ne_one, if_false, hp, if_neg (Nat.not_lt.2 hready)]
  exact congrArg (fun c => Host.Outcome.next (setSite s sid { getSite s sid with core := c })) hwrite

section ResultWritten
variable (s : State) (sid n k d : Nat) (v : Word)

theorem scalars_resultWritten :
    (getSite (resultWritten s sid n k d v) sid).core.scalars = (getSite s sid).core.scalars.eraseIdx n := by
  rw [resultWritten, getSite_modSite, if_pos rfl, onCore_core, slotSetG_reads Core.scalars fun _ _ _ => rfl]
  rfl
theorem sameMemory_resultWritten : sameMemory s (resultWritten s sid n k d v) :=
  sameMemory_modSite (slotSetG_reads Core.mem (fun _ _ _ => rfl) (dropResult n (getSite s sid).core) k d v)
theorem readG_resultWritten (h : gMapped (slotOf (getSite s sid).core k).ctx d = true) :
    readG (seenBy (resultWritten s sid n k d v) sid k) d = if d = 0 then 0 else v := by
  rw [readG_seenBy, resultWritten, getSite_modSite, if_pos rfl, onCore_core]
  exact gGet_slotSetG (c := dropResult n (getSite s sid).core) v h
/-- What a strand sees of its result written: the result is gone from those in flight, then gd is written. -/
theorem seenBy_resultWritten : seenBy (resultWritten s sid n k d v) sid k =
    writeG (modSite (seenBy s sid k) sid (onCore (dropResult n))) d v := by
  simp only [writeG, seenBy, modSite_cur, modSite_modSite]
  rfl
theorem changesOnly_resultWritten :
    changesOnly (some (.g d)) hideScalars (seenBy s sid k) (seenBy (resultWritten s sid n k d v) sid k) := by
  rw [seenBy_resultWritten]
  have hdrop : changesOnly none hideScalars (seenBy s sid k) (modSite (seenBy s sid k) sid (onCore (dropResult n))) :=
    changesOnly_onCore hideScalars (seenBy s sid k) (dropResult n) nofun rfl rfl rfl (fun _ _ _ => rfl) (fun _ _ => rfl)
  exact changesOnly_trans (changesOnly_of_none hdrop _) (changesOnly_writeG hideScalars _ d v)

end ResultWritten

/-! ### Branches and jumps (R150 to R152) -/

theorem nearTarget_eq (s : State) (o : Nat) : nearTarget s o = curPc s + imm14 o * 4 := by
  rw [nearTarget, wordI_four_mul_sext14]
theorem farTarget_eq (s : State) (o : Nat) : farTarget s o = curPc s + imm20 o * 4 := by
  rw [farTarget, wordI_four_mul_sext20]
/-- A branch goes to its target where it is taken and past itself where it is not. -/
theorem branch_spec (taken : Bool) (o : Nat) (s : State) : ∃ t, branch taken o s = .next t ∧
    (taken = true → curPc t = curPc s + imm14 o * 4) ∧ (taken = false → curPc t = curPc s + 4) ∧ writesOnly none s t := by
  cases taken with
  | true =>
    refine ⟨jumpTo s (nearTarget s o), rfl, fun _ => ?_, nofun, writesOnly_jumpTo s _⟩
    rw [curPc_jumpTo, nearTarget_eq]
  | false => exact ⟨advance s 4, rfl, nofun, fun _ => curPc_advance s 4, writesOnly_advance s 4⟩
/-- A jump that writes gd, by an instruction whose checks pass: the link, the target and the frame. -/
theorem jump_spec {i : Instr} {s : State} (h : guardTrap i s = none) {d : Nat} (hu : .wg d ∈ uses i) (hn : nameable s d)
    (v target : Word) : let t := jumpTo (writeG s d v) target
    readG t d = (if d = 0 then 0 else v) ∧ curPc t = target ∧ writesOnly (some (.g d)) s t :=
  ⟨by rw [readG_jumpTo, readG_writeG s d v hn (mapped_of_guard h hu rfl)], curPc_jumpTo _ _, writesOnly_jump s d v target⟩

end Sys2Proof.Laws

/-! Obligations of the family 07_scalar: one-cycle scalar instructions (O1), products and quotients (O2), branches and
jumps (O3). -/

namespace Sys2Proof.Proofs

open Sys2Proof Sys2Proof.Machine Sys2Proof.Claims Sys2Proof.Laws

/-- A one-cycle scalar instruction names the register that it writes. -/
theorem wg_mem_uses_of_aluDest {i : Instr} {d : Nat} (h : aluDest i = some d) : .wg d ∈ uses i := by
  cases i
  all_goals cases h
  all_goals simp
/-- A one-cycle scalar instruction writes a value of its row to gd. -/
theorem exec_of_aluDest {i : Instr} {s : State} {d : Nat} (h : aluDest i = some d) :
    ∃ f : State → Word, exec i s = issue i s (fun s => retG d (f s) s) ∧ aluRule s (f s) i := by
  cases i
  all_goals cases h
  case add a b => exact ⟨_, exec_add d a b s, BitVec.toNat_add _ _⟩
  case sub a b => exact ⟨_, exec_sub d a b s, toNat_sub_emod _ _⟩
  case and a b => exact ⟨_, exec_and d a b s, fun k => BitVec.getLsbD_and⟩
  case or a b => exact ⟨_, exec_or d a b s, fun k => BitVec.getLsbD_or⟩
  case xor a b => exact ⟨_, exec_xor d a b s, fun k => BitVec.getLsbD_xor⟩
  case andn a b => exact ⟨_, exec_andn d a b s, getLsbD_and_not _ _⟩
  case shl a b => exact ⟨_, exec_shl d a b s, toNat_shlW _ _⟩
  case shr a b => exact ⟨_, exec_shr d a b s, toNat_shrW _ _⟩
  case sar a b => exact ⟨_, exec_sar d a b s, toInt_sarW _ _⟩
  case rol a b => exact ⟨_, exec_rol d a b s, fun _ => getLsbD_rolW _ _⟩
  case min a b => exact ⟨_, exec_min d a b s, toInt_ite_slt_min _ _⟩
  case max a b => exact ⟨_, exec_max d a b s, toInt_ite_slt_max _ _⟩
  case minn a b => exact ⟨_, exec_minn d a b s, toNat_ite_ult_min _ _⟩
  case maxn a b => exact ⟨_, exec_maxn d a b s, toNat_ite_ult_max _ _⟩
  case slt a b => exact ⟨_, exec_slt d a b s, flagW_slt _ _⟩
  case sltn a b => exact ⟨_, exec_sltn d a b s, flagW_ult _ _⟩
  case seq a b => exact ⟨_, exec_seq d a b s, flagW_beq _ _⟩
  case sel a b => exact ⟨_, exec_sel d a b s, ite_not _ _ _⟩
  case clz a => exact ⟨_, exec_clz d a s, clz_spec _⟩
  case ctz a => exact ⟨_, exec_ctz d a s, ctz_spec _⟩
  case popc a => exact ⟨_, exec_popc d a s, popc_spec _⟩
  case bfx a b => exact ⟨_, exec_bfx d a b s, getLsbD_bfxW _ _⟩
  case bfi a b => exact ⟨_, exec_bfi d a b s, getLsbD_bfiW _ _ _⟩
  case addi a j => exact ⟨_, exec_addi d a j s, congrArg _ (immW_eq_imm14 j)⟩
  case andi a j => exact ⟨_, exec_andi d a j s, congrArg _ (immW_eq_imm14 j)⟩
  case ori a j => exact ⟨_, exec_ori d a j s, congrArg _ (immW_eq_imm14 j)⟩
  case xori a j => exact ⟨_, exec_xori d a j s, congrArg _ (immW_eq_imm14 j)⟩
  case shli a n => exact ⟨_, exec_shli d a n s, toNat_shlW _ n⟩
  case shri a n => exact ⟨_, exec_shri d a n s, toNat_shrW _ n⟩
  case sari a n => exact ⟨_, exec_sari d a n s, toInt_sarW _ n⟩
  case slti a j => exact ⟨_, exec_slti d a j s, immW_eq_imm14 j ▸ flagW_slt _ _⟩
  case sltin a j => exact ⟨_, exec_sltin d a j s, immW_eq_imm14 j ▸ flagW_ult _ _⟩
  case lui j => exact ⟨_, exec_lui d j s, wordI_sext20_shift j⟩
  case adrp j => exact ⟨_, exec_adrp d j s, farTarget_eq s j⟩

/-- Settles O1: each row's value by the lemma about its operation, and its frame as that of any result written to gd. -/
theorem scalarResults : Obligations.ScalarResults := by
  intro i s d hdest hguard hname
  obtain ⟨f, hexec, hrule⟩ := exec_of_aluDest (s := s) hdest
  obtain ⟨t, hret, hwrote⟩ := retG_spec hguard d (f s) (wg_mem_uses_of_aluDest hdest) hname
  exact ⟨t, f s, by rw [hexec, issue_acts hguard, hret], hrule, hwrote⟩

/-- A multiplication or division puts a result of its row in flight. -/
theorem exec_of_slowDest {i : Instr} {s : State} {d : Nat} {div : Bool} (h : slowDest i = some (d, div)) :
    ∃ f : State → Word, exec i s = issue i s (fun s => done 4 (lateG d (f s) div s)) ∧ slowRule s (f s) i := by
  cases i
  all_goals cases h
  case mul a b => exact ⟨_, exec_mul d a b s, BitVec.toNat_mul _ _⟩
  case mulh a b => exact ⟨_, exec_mulh d a b s, toInt_mulhW _ _⟩
  case mulhn a b => exact ⟨_, exec_mulhn d a b s, toNat_mulhnW _ _⟩
  case div a b => exact ⟨_, exec_div d a b s, divW_eq_sQuot _ _⟩
  case divn a b => exact ⟨_, exec_divn d a b s, divnW_eq _ _⟩
  case rem a b => exact ⟨_, exec_rem d a b s, remW_eq_sRem _ _⟩
  case remn a b => exact ⟨_, exec_remn d a b s, remnW_eq _ _⟩

theorem multiplyAndDivide : MultiplyAndDivide := by
  intro i s d div hdest hguard
  obtain ⟨f, hexec, hrule⟩ := exec_of_slowDest (s := s) hdest
  obtain ⟨t, hdone, hflight, hpc, hmem, hframe⟩ := done_lateG_spec (s := s) d (f s) div
  exact ⟨t, lateResult s d (f s) div, by rw [hexec, issue_acts hguard, hdone], hrule, hflight, rfl, rfl, rfl, hpc, hmem, hframe⟩

theorem slowResultWritten : SlowResultWritten := by
  intro s sid n k d p hs hp hready hd hkey hsaved hslot hmapped
  exact ⟨resultWritten s sid n k d p.val, exec_scalarResultWrite_of_stands hs hp hready hd ⟨hkey, hsaved, hslot⟩,
    scalars_resultWritten s sid n k d p.val, readG_resultWritten s sid n k d p.val hmapped,
    changesOnly_resultWritten s sid n k d p.val, sameMemory_resultWritten s sid n k d p.val⟩

/-- Settles O2: a result put in flight by what it leaves, and its write as the slot's register written. -/
theorem productsAndQuotients : Obligations.ProductsAndQuotients := ⟨multiplyAndDivide, slowResultWritten⟩

/-- A conditional branch is taken where its condition holds. -/
theorem exec_of_branchTaken {i : Instr} {s : State} {o : Nat} {c : Prop} (h : branchTaken s i = some (o, c)) :
    ∃ f : State → Bool, exec i s = issue i s (fun s => branch (f s) o s) ∧ (f s = true ↔ c) := by
  cases i
  all_goals cases h
  case beq a b => exact ⟨_, exec_beq a b o s, beq_iff_eq⟩
  case bne a b => exact ⟨_, exec_bne a b o s, bne_iff_ne⟩
  case blt a b => exact ⟨_, exec_blt a b o s, BitVec.slt_iff_toInt_lt⟩
  case bge a b => exact ⟨_, exec_bge a b o s, by simp [BitVec.slt_eq_decide]⟩
  case bltn a b => exact ⟨_, exec_bltn a b o s, BitVec.ult_iff_toNat_lt⟩
  case bgen a b => exact ⟨_, exec_bgen a b o s, by simp [BitVec.ult_eq_decide]⟩

theorem branchTargets : BranchTargets := by
  intro i s o c hbranch hguard
  obtain ⟨f, hexec, htaken⟩ := exec_of_branchTaken hbranch
  obtain ⟨t, hnext, hgo, hpast, hframe⟩ := branch_spec (f s) o s
  exact ⟨t, by rw [hexec, issue_acts hguard, hnext], fun hc => hgo (htaken.2 hc),
    fun hc => hpast (Bool.eq_false_iff.2 (mt htaken.1 hc)), hframe⟩

theorem jumpAndLink : JumpAndLink := by
  intro s d hname
  refine ⟨fun o hguard => ⟨jumpTo (writeG s d (curPc s + 4)) (farTarget s o), ?_, ?_⟩,
    fun a i hguard => ⟨jumpTo (writeG s d (curPc s + 4)) (readG s a + immW i), ?_, ?_⟩⟩
  · rw [exec_jal, execJal, issue_acts hguard]
  · rw [← farTarget_eq]
    exact jump_spec hguard (by simp) hname _ _
  · rw [exec_jalr, execJalr, issue_acts hguard]
  · rw [← immW_eq_imm14]
    exact jump_spec hguard (by simp) hname _ _

/-- Settles O3: by what a branch and a jump leave, the target formed of the machine before the link is written. -/
theorem branchesAndJumps : Obligations.BranchesAndJumps := ⟨branchTargets, jumpAndLink⟩

end Sys2Proof.Proofs
